-- ==== Sys2Proof/Word.lean ====
section
/-! DEFINITION. The word types of the model and the plain data that commands carry as operands: names of units,
packets of the fabric, and what nature or the operator supplies with an event. -/

namespace Sys2Proof

abbrev Byte := BitVec 8
abbrev U16 := BitVec 16
abbrev U32 := BitVec 32
abbrev U64 := BitVec 64

/-- One of the two halves (01 R16). -/
inductive Half where
  | west
  | east
  deriving DecidableEq, Repr

namespace Half

/-- 0 for West, 1 for East, as every field that names a half encodes it. -/
def num : Half → Nat
  | .west => 0
  | .east => 1

def other : Half → Half
  | .west => .east
  | .east => .west

end Half

/-- The engine instances of 03 Table 3.6. -/
inductive EngineInst where
  | weave
  | splints (h : Half)
  | sampler (h : Half)
  | rim (h : Half)
  | fabric
  | tier
  deriving DecidableEq, Repr

/-- A Splint, which holds one coil core (06 Table 6.1). -/
structure CoreId where
  half : Half
  idx : Fin 32
  deriving DecidableEq, Repr

/-- A coil register number g0 to g31 (06 R335). -/
abbrev Reg := BitVec 5

/-- A fabric port, in the order XP0, XP1, XN0, XN1, YP0, YP1, YN0, YN1, ZP0, ZP1, ZN0, ZN1 of 11 R602. -/
abbrev PortNo := Fin 12

/-- A packet of the fabric: the header of 11 Table 11.5 and its data; LENGTH is the length of data. -/
structure Packet where
  type : Byte
  last : Bool
  sig : Bool
  srcMod : BitVec 12
  dstMod : BitVec 12
  incarn : Byte
  jobTag : U32
  groupId : U16
  stream : U16
  msg : U32
  index : U32
  packets : U32
  step : U32
  a : U64
  b : U64
  data : List Byte
  deriving DecidableEq, Repr

/-- What the check column met while a Weave command ran (07 R385): nothing, a mismatch of a half that the
recomputation cleared, or one that it did not clear. -/
inductive CheckOutcome where
  | clean
  | cleared (h : Half) (row : Nat)
  | lasting (h : Half) (row : Nat)
  deriving DecidableEq, Repr

/-- How a unit read of the flash tier went (10 R538). -/
inductive FetchOutcome where
  | hard
  | retried
  | rebuilt
  | uncorrectable
  deriving DecidableEq, Repr

/-- The operator configuration of 14 Table 14.3. -/
structure OpConfig where
  tickNs : Nat
  cacheSlices : Nat
  logGib : Nat
  capW : Nat
  brakeFloorW : Nat
  thermalStepW : Nat
  deriving DecidableEq, Repr

/-- What nature supplies to a run of the upsett sequence (14 Table 14.1): which images and copies are good, which
units fail, what training and mounting find. -/
structure UpsettOutcome where
  handleOk : Bool
  configOk : Bool
  locksOk : Bool
  handOffA : Bool
  handOffB : Bool
  failedUnits : List U16
  spareLanes : List Nat
  portsUp : BitVec 12
  lanes : List (BitVec 4)
  timeLock : Option Nat
  deriving DecidableEq, Repr

end Sys2Proof
end

