-- ==== Sys2Proof/Syntax.lean ====
section
/-! DEFINITION. The commands of the block: one constructor per row of spec/opcode_table.json, in the order of the
families of the spec. Each docstring gives the row and the rule the table names. -/

namespace Sys2Proof

inductive Instr where
  /-- MBX_SQ_DOORBELL (R66) -/
  | mbxSqDoorbell (fn : Nat) (value : U32)
  /-- MBX_CQ_DOORBELL (R68) -/
  | mbxCqDoorbell (fn : Nat) (value : U32)
  /-- ENABLE_SET (R62) -/
  | enableSet (fn : Nat)
  /-- ENABLE_CLEAR (R72) -/
  | enableClear (fn : Nat)
  /-- RING_RESET (R73) -/
  | ringReset (fn : Nat)
  /-- MBX_ERR_CLEAR (R71) -/
  | mbxErrClear (fn : Nat) (value : U32)
  /-- MBX_TIME_LO_READ (R60) -/
  | mbxTimeLoRead (fn : Nat)
  /-- REGISTER_WRITE (R63) -/
  | registerWrite (bar : Nat) (fn : Nat) (offset : Nat) (size : Nat) (value : U32)
  /-- SUBMISSION_FETCH (R69) -/
  | submissionFetch (fn : Nat)
  /-- NOTICE_WRITE (R118) -/
  | noticeWrite (fn : Nat)
  /-- COMPLETION_INT_COAL_TIMER (R120) -/
  | completionIntCoalTimer (fn : Nat)
  /-- TELEMETRY_INT_TIMER (R122) -/
  | telemetryIntTimer (fn : Nat)
  /-- INTERIM_QUEUED (R127) -/
  | interimQueued (fn : Nat) (tag : U16)
  /-- RESERVED_OPCODE (R82) -/
  | reservedOpcode (fn : Nat) (tag : U16)
  /-- IDENTIFICATION_QUERY (R89) -/
  | identificationQuery (fn : Nat) (tag : U16)
  /-- OPEN_SESSION (R97) -/
  | openSession (fn : Nat) (tag : U16)
  /-- AUTH_RESPONSE (R98) -/
  | authResponse (fn : Nat) (tag : U16)
  /-- CLOSE_SESSION (R106) -/
  | closeSession (fn : Nat) (tag : U16)
  /-- KEEPALIVE (R105) -/
  | keepalive (fn : Nat) (tag : U16)
  /-- NONCE_EXPIRY (R101) -/
  | nonceExpiry (sess : U32)
  /-- SESSION_IDLE_EXPIRY (R105) -/
  | sessionIdleExpiry (sess : U32)
  /-- LOCKOUT_END (R104) -/
  | lockoutEnd (tenant : U32)
  /-- ALLOC_MEM (R473) -/
  | allocMem (fn : Nat) (tag : U16)
  /-- FREE_MEM (R474) -/
  | freeMem (fn : Nat) (tag : U16)
  /-- MAP_HOST (R720) -/
  | mapHost (fn : Nat) (tag : U16)
  /-- CREATE_TABLE (R479) -/
  | createTable (fn : Nat) (tag : U16)
  /-- CREATE_GRAPH (R229) -/
  | createGraph (fn : Nat) (tag : U16)
  /-- SET_OWNERSHIP (R487) -/
  | setOwnership (fn : Nat) (tag : U16)
  /-- DESTROY_OBJECT (R575) -/
  | destroyObject (fn : Nat) (tag : U16)
  /-- LOAD_COIL (R332) -/
  | loadCoil (fn : Nat) (tag : U16)
  /-- SUBMIT_LIST (R130) -/
  | submitList (fn : Nat) (tag : U16)
  /-- CONTEXT_WAIT_SERVE (R615) -/
  | contextWaitServe
  /-- CANCEL_LIST (R86) -/
  | cancelList (fn : Nat) (tag : U16)
  /-- JOIN_GROUP (R573) -/
  | joinGroup (fn : Nat) (tag : U16)
  /-- JOIN_GROUP_TIMEOUT (R573) -/
  | joinGroupTimeout (fn : Nat) (tag : U16)
  /-- OPEN_PEER_STREAM (R577) -/
  | openPeerStream (fn : Nat) (tag : U16)
  /-- OPEN_PEER_STREAM_TIMEOUT (R577) -/
  | openPeerStreamTimeout (fn : Nat) (tag : U16)
  /-- TIER_SYNC (R528) -/
  | tierSync (fn : Nat) (tag : U16)
  /-- SAVE_CONTEXT (R185) -/
  | saveContext (fn : Nat) (tag : U16)
  /-- RESTORE_CONTEXT (R187) -/
  | restoreContext (fn : Nat) (tag : U16)
  /-- QUERY_COUNTERS_SPLINT (R341) -/
  | queryCountersSplint (fn : Nat) (tag : U16)
  /-- QUERY_COUNTERS_WEAVE (R390) -/
  | queryCountersWeave (fn : Nat) (tag : U16)
  /-- QUERY_COUNTERS_RIM (R447) -/
  | queryCountersRim (fn : Nat) (tag : U16)
  /-- QUERY_COUNTERS_MEMORY (R501) -/
  | queryCountersMemory (fn : Nat) (tag : U16)
  /-- QUERY_COUNTERS_TIER (R547) -/
  | queryCountersTier (fn : Nat) (tag : U16)
  /-- QUERY_COUNTERS_FABRIC (R601) -/
  | queryCountersFabric (fn : Nat) (tag : U16)
  /-- QUERY_COUNTERS_QUOTA (R629) -/
  | queryCountersQuota (fn : Nat) (tag : U16)
  /-- QUERY_COUNTERS_RESERVED (R91) -/
  | queryCountersReserved (fn : Nat) (tag : U16)
  /-- READ_FLAGS (R225) -/
  | readFlags (fn : Nat) (tag : U16)
  /-- CLEAR_FLAGS (R84) -/
  | clearFlags (fn : Nat) (tag : U16)
  /-- SET_TENANT_KEY (R108) -/
  | setTenantKey (fn : Nat) (tag : U16)
  /-- SET_QUOTA (R605) -/
  | setQuota (fn : Nat) (tag : U16)
  /-- SET_POLICY (R87) -/
  | setPolicy (fn : Nat) (tag : U16)
  /-- FW_UPDATE (R660) -/
  | fwUpdate (fn : Nat) (tag : U16)
  /-- FW_UPDATE_ACTIVATE (R661) -/
  | fwUpdateActivate (fn : Nat) (tag : U16)
  /-- FW_UPDATE_RECOVER (R114) -/
  | fwUpdateRecover (fn : Nat) (tag : U16)
  /-- FW_FOLLOWER_HEALTHY (R661) -/
  | fwFollowerHealthy
  /-- FW_ACTIVATION_DONE (R661) -/
  | fwActivationDone
  /-- FW_PHASE_TIMEOUT (R662) -/
  | fwPhaseTimeout
  /-- RESET_UNIT (R642) -/
  | resetUnit (fn : Nat) (tag : U16)
  /-- UNIT_RESET_END (R644) -/
  | unitResetEnd (unit : U16) (returned : Bool)
  /-- RETIRE_UNIT (R636) -/
  | retireUnit (fn : Nat) (tag : U16)
  /-- REKEY_HBM (R456) -/
  | rekeyHbm (fn : Nat) (tag : U16)
  /-- READ_ERROR_LOG (R668) -/
  | readErrorLog (fn : Nat) (tag : U16)
  /-- FUNCTION_LEVEL_RESET (R74) -/
  | functionLevelReset (fn : Nat)
  /-- VF_DISABLE (R75) -/
  | vfDisable (numVfs : Nat)
  /-- PERST (R701) -/
  | perst
  /-- TASK_CHOICE (R142) -/
  | taskChoice (inst : EngineInst)
  /-- PREEMPT (R143) -/
  | preempt (inst : EngineInst)
  /-- RESERVED_ENGINE_OPCODE (R135) -/
  | reservedEngineOpcode (inst : EngineInst)
  /-- LIST_END (R181) -/
  | listEnd (fn : Nat) (tag : U16)
  /-- SY_WAIT (R157) -/
  | syWait (inst : EngineInst)
  /-- SY_WAIT_TIMEOUT (R157) -/
  | syWaitTimeout (inst : EngineInst)
  /-- SY_SIGNAL (R150) -/
  | sySignal (inst : EngineInst)
  /-- SY_DELAY (R167) -/
  | syDelay (inst : EngineInst)
  /-- DELAY_ENTRY_EXPIRY (R167) -/
  | delayEntryExpiry (h : Half)
  /-- DELAY_ENTRY_FREED (R168) -/
  | delayEntryFreed (h : Half)
  /-- WV_MATMUL (R352) -/
  | wvMatmul (check : CheckOutcome)
  /-- WV_EDGE (R369) -/
  | wvEdge
  /-- EDGE_TILE_ARRIVAL (R367) -/
  | edgeTileArrival (check : CheckOutcome)
  /-- WEAVE_DONE_HANDSHAKE (R26) -/
  | weaveDoneHandshake (h : Half)
  /-- WEAVE_PATTERN_TEST (R385) -/
  | weavePatternTest (h : Half) (failing : List Nat)
  /-- COLUMN_DISABLE (R381) -/
  | columnDisable
  /-- SP_GATHER (R292) -/
  | spGather (h : Half)
  /-- SP_SCATTER (R318) -/
  | spScatter (h : Half)
  /-- SP_RUN (R306) -/
  | spRun (h : Half)
  /-- CHUNK_CLAIM (R302) -/
  | chunkClaim (c : CoreId)
  /-- CHUNK_APPLY (R327) -/
  | chunkApply (h : Half)
  /-- SORT_WINDOW_ISSUE (R289) -/
  | sortWindowIssue (pc : Fin 512)
  /-- HBM_ACCESS_DONE (R461) -/
  | hbmAccessDone (req : Nat) (symbols : Nat)
  /-- REPLY_DELIVERY (R290) -/
  | replyDelivery (req : Nat) (badLanes : List (Nat × Nat))
  /-- ALU_ADD (R336) -/
  | aluAdd (c : CoreId) (d : Reg) (a : Reg) (b : Reg)
  /-- ALU_SUB (R336) -/
  | aluSub (c : CoreId) (d : Reg) (a : Reg) (b : Reg)
  /-- ALU_AND (R336) -/
  | aluAnd (c : CoreId) (d : Reg) (a : Reg) (b : Reg)
  /-- ALU_OR (R336) -/
  | aluOr (c : CoreId) (d : Reg) (a : Reg) (b : Reg)
  /-- ALU_XOR (R336) -/
  | aluXor (c : CoreId) (d : Reg) (a : Reg) (b : Reg)
  /-- ALU_SHL (R336) -/
  | aluShl (c : CoreId) (d : Reg) (a : Reg) (b : Reg)
  /-- ALU_SHR (R336) -/
  | aluShr (c : CoreId) (d : Reg) (a : Reg) (b : Reg)
  /-- ALU_SAR (R336) -/
  | aluSar (c : CoreId) (d : Reg) (a : Reg) (b : Reg)
  /-- ALU_MUL (R336) -/
  | aluMul (c : CoreId) (d : Reg) (a : Reg) (b : Reg)
  /-- ALU_MULHU (R336) -/
  | aluMulhu (c : CoreId) (d : Reg) (a : Reg) (b : Reg)
  /-- ALU_MINU (R336) -/
  | aluMinu (c : CoreId) (d : Reg) (a : Reg) (b : Reg)
  /-- ALU_MAXU (R336) -/
  | aluMaxu (c : CoreId) (d : Reg) (a : Reg) (b : Reg)
  /-- ALU_MINS (R336) -/
  | aluMins (c : CoreId) (d : Reg) (a : Reg) (b : Reg)
  /-- ALU_MAXS (R336) -/
  | aluMaxs (c : CoreId) (d : Reg) (a : Reg) (b : Reg)
  /-- ALU_SLTU (R336) -/
  | aluSltu (c : CoreId) (d : Reg) (a : Reg) (b : Reg)
  /-- ALU_SLTS (R336) -/
  | aluSlts (c : CoreId) (d : Reg) (a : Reg) (b : Reg)
  /-- ADDI (R336) -/
  | addi (c : CoreId) (d : Reg) (a : Reg) (imm : U16)
  /-- ANDI (R336) -/
  | andi (c : CoreId) (d : Reg) (a : Reg) (imm : U16)
  /-- ORI (R336) -/
  | ori (c : CoreId) (d : Reg) (a : Reg) (imm : U16)
  /-- XORI (R336) -/
  | xori (c : CoreId) (d : Reg) (a : Reg) (imm : U16)
  /-- SHLI (R336) -/
  | shli (c : CoreId) (d : Reg) (a : Reg) (imm : U16)
  /-- SHRI (R336) -/
  | shri (c : CoreId) (d : Reg) (a : Reg) (imm : U16)
  /-- SARI (R336) -/
  | sari (c : CoreId) (d : Reg) (a : Reg) (imm : U16)
  /-- LIH (R336) -/
  | lih (c : CoreId) (d : Reg) (a : Reg) (imm : U16)
  /-- LD1 (R337) -/
  | ld1 (c : CoreId) (d : Reg) (a : Reg) (imm : U16)
  /-- LD2 (R337) -/
  | ld2 (c : CoreId) (d : Reg) (a : Reg) (imm : U16)
  /-- LD4 (R337) -/
  | ld4 (c : CoreId) (d : Reg) (a : Reg) (imm : U16)
  /-- LD8 (R337) -/
  | ld8 (c : CoreId) (d : Reg) (a : Reg) (imm : U16)
  /-- BEQ (R334) -/
  | beq (c : CoreId) (a : Reg) (b : Reg) (ofs : U16)
  /-- BNE (R334) -/
  | bne (c : CoreId) (a : Reg) (b : Reg) (ofs : U16)
  /-- BLTS (R334) -/
  | blts (c : CoreId) (a : Reg) (b : Reg) (ofs : U16)
  /-- BGES (R334) -/
  | bges (c : CoreId) (a : Reg) (b : Reg) (ofs : U16)
  /-- BLTU (R334) -/
  | bltu (c : CoreId) (a : Reg) (b : Reg) (ofs : U16)
  /-- BGEU (R334) -/
  | bgeu (c : CoreId) (a : Reg) (b : Reg) (ofs : U16)
  /-- JMP (R334) -/
  | jmp (c : CoreId) (ofs : U16)
  /-- RND (R336) -/
  | rnd (c : CoreId) (d : Reg) (a : Reg) (b : Reg) (f : BitVec 11)
  /-- ETILE (R307) -/
  | etile (c : CoreId) (d : Reg) (a : Reg) (b : Reg) (f : BitVec 11)
  /-- GROW (R338) -/
  | grow (c : CoreId) (a : Reg) (b : Reg) (f : BitVec 11)
  /-- ECLOSE (R308) -/
  | eclose (c : CoreId)
  /-- END (R308) -/
  | coilEnd (c : CoreId)
  /-- SM_SAMPLE (R253) -/
  | smSample (h : Half)
  /-- SAMPLE_REQ (R259) -/
  | sampleReq (p : Packet)
  /-- SAMPLE_REPLY (R259) -/
  | sampleReply (p : Packet)
  /-- COPY (R392) -/
  | copy (h : Half)
  /-- RELU (R722) -/
  | relu (h : Half)
  /-- LEAKY_RELU (R392) -/
  | leakyRelu (h : Half)
  /-- GELU (R394) -/
  | gelu (h : Half)
  /-- SIGMOID (R394) -/
  | sigmoid (h : Half)
  /-- TANH (R394) -/
  | tanh (h : Half)
  /-- EXP (R394) -/
  | exp (h : Half)
  /-- LOG (R394) -/
  | log (h : Half)
  /-- SQRT (R394) -/
  | sqrt (h : Half)
  /-- RECIP (R394) -/
  | recip (h : Half)
  /-- ADD (R721) -/
  | add (h : Half)
  /-- SUB (R721) -/
  | sub (h : Half)
  /-- MUL (R721) -/
  | mul (h : Half)
  /-- DIV (R721) -/
  | div (h : Half)
  /-- MAX (R722) -/
  | max (h : Half)
  /-- MIN (R722) -/
  | min (h : Half)
  /-- AXPY (R392) -/
  | axpy (h : Half)
  /-- ROW_EXP_SUB (R721) -/
  | rowExpSub (h : Half)
  /-- ROW_SCALE (R721) -/
  | rowScale (h : Half)
  /-- ROW_DIV (R721) -/
  | rowDiv (h : Half)
  /-- DROPOUT (R398) -/
  | dropout (h : Half)
  /-- TEST (R392) -/
  | test (h : Half)
  /-- SCALE_LOSS (R392) -/
  | scaleLoss (h : Half)
  /-- INIT_UNIFORM (R268) -/
  | initUniform (h : Half)
  /-- INIT_NORMAL_BM (R269) -/
  | initNormalBm (h : Half)
  /-- INIT_NORMAL_ZIG (R269) -/
  | initNormalZig (h : Half)
  /-- ALIAS_BUILD (R401) -/
  | aliasBuild (h : Half)
  /-- VERSION_BIND (R421) -/
  | versionBind (h : Half)
  /-- VERSION_UNBIND (R427) -/
  | versionUnbind (h : Half)
  /-- STEP_VOTE (R430) -/
  | stepVote (h : Half)
  /-- STEP_APPLY (R435) -/
  | stepApply (h : Half)
  /-- SCALE_SET (R444) -/
  | scaleSet (h : Half)
  /-- PLAIT_SET (R273) -/
  | plaitSet (h : Half)
  /-- RM_REDUCE_RECORDS (R405) -/
  | rmReduceRecords (h : Half)
  /-- RM_REDUCE_DENSE_SUM (R407) -/
  | rmReduceDenseSum (h : Half)
  /-- RM_CONVERT (R213) -/
  | rmConvert (h : Half)
  /-- RM_OPT (R411) -/
  | rmOpt (h : Half)
  /-- RM_OPT_TABLE (R415) -/
  | rmOptTable (h : Half)
  /-- RM_PRUNE (R419) -/
  | rmPrune (h : Half)
  /-- FB_SEND (R579) -/
  | fbSend
  /-- ALL_REDUCE (R587) -/
  | allReduce
  /-- REDUCE_SCATTER (R587) -/
  | reduceScatter
  /-- ALL_GATHER (R589) -/
  | allGather
  /-- ALL_TO_ALL (R589) -/
  | allToAll
  /-- BROADCAST (R589) -/
  | broadcast
  /-- BARRIER (R592) -/
  | barrier
  /-- TR_FOLD (R526) -/
  | trFold
  /-- TR_SYNC (R528) -/
  | trSync
  /-- WRITE (R580) -/
  | writePacket (p : Packet)
  /-- COLL_DATA (R587) -/
  | collData (p : Packet) (mismatches : Nat)
  /-- COLL_READY (R586) -/
  | collReady (p : Packet)
  /-- ROW_REQ (R491) -/
  | rowReq (p : Packet)
  /-- ROW_REPLY (R290) -/
  | rowReply (p : Packet)
  /-- BAG_REQ (R295) -/
  | bagReq (p : Packet)
  /-- BAG_REPLY (R295) -/
  | bagReply (p : Packet)
  /-- CONTRIB (R494) -/
  | contrib (p : Packet)
  /-- CONTRIB_STORE_WAIT_DONE (R496) -/
  | contribStoreWaitDone (sess : U32)
  /-- ACCEPT (R581) -/
  | accept (p : Packet)
  /-- REPLICA_WRITE (R498) -/
  | replicaWrite (p : Packet)
  /-- REPLICA_MARK (R582) -/
  | replicaMark (p : Packet)
  /-- REFUSAL (R580) -/
  | refusal (p : Packet)
  /-- STREAM_OPEN (R577) -/
  | streamOpen (p : Packet)
  /-- STREAM_ACCEPT (R577) -/
  | streamAccept (p : Packet)
  /-- JOIN (R625) -/
  | join (p : Packet)
  /-- BARRIER_PACKET (R596) -/
  | barrierPacket (p : Packet)
  /-- VOTE (R433) -/
  | vote (p : Packet)
  /-- ABORT (R594) -/
  | abort (p : Packet)
  /-- ABORT_END (R594) -/
  | abortEnd (sess : U32) (group : BitVec 24)
  /-- UNKNOWN_PACKET (R564) -/
  | unknownPacket (p : Packet)
  /-- COLLECTIVE_TIMEOUT (R593) -/
  | collectiveTimeout (sess : U32) (group : BitVec 24)
  /-- DECISION_TIMEOUT (R440) -/
  | decisionTimeout (sess : U32)
  /-- SETTLE_TIMEOUT (R442) -/
  | settleTimeout (sess : U32)
  /-- REMOTE_REPLY_TIMEOUT (R264) -/
  | remoteReplyTimeout (req : Nat)
  /-- CONTRIB_ACCEPT_TIMEOUT (R496) -/
  | contribAcceptTimeout (h : Half)
  /-- DATA_FLIT (R556) -/
  | dataFlit (port : PortNo) (flit : List Byte)
  /-- IDLE_FLIT (R554) -/
  | idleFlit (port : PortNo) (flit : List Byte)
  /-- NAK (R556) -/
  | nak (port : PortNo) (seq : BitVec 12)
  /-- NAK_REPEAT (R556) -/
  | nakRepeat (port : PortNo)
  /-- LINK_STATE (R553) -/
  | linkState (port : PortNo) (peer : BitVec 12) (peerPort : PortNo) (incarnation : Byte)
  /-- WIRING_RETRY (R553) -/
  | wiringRetry (port : PortNo)
  /-- HOLD (R558) -/
  | hold (port : PortNo)
  /-- RESUME (R558) -/
  | resume (port : PortNo)
  /-- LANE_FAILURE (R559) -/
  | laneFailure (port : PortNo) (lane : Fin 4)
  /-- PORT_HOLD_TIMEOUT (R560) -/
  | portHoldTimeout (port : PortNo) (lastAccepted : BitVec 12)
  /-- LINK_STATE_UPDATE (R570) -/
  | linkStateUpdate (module : BitVec 12) (live : BitVec 12)
  /-- TIME_EXCHANGE (R598) -/
  | timeExchange (offset : Int)
  /-- PROMOTION (R485) -/
  | promotion (sess : U32) (table : BitVec 24) (row : Nat)
  /-- FLASH_FETCH_DONE (R538) -/
  | flashFetchDone (sess : U32) (table : BitVec 24) (row : Nat) (outcome : FetchOutcome)
  /-- FORCED_FOLD_AGE (R522) -/
  | forcedFoldAge (sess : U32)
  /-- FORCED_FOLD_FULL (R523) -/
  | forcedFoldFull (sess : U32)
  /-- BACKGROUND_FOLD (R525) -/
  | backgroundFold (h : Half)
  /-- STAGING_PROGRAM (R512) -/
  | stagingProgram (h : Half)
  /-- WRITE_BACK_STAGE (R511) -/
  | writeBackStage (sess : U32) (table : BitVec 24) (row : Nat)
  /-- RECLAMATION (R527) -/
  | reclamation (ch : Fin 32)
  /-- FLASH_PATROL (R539) -/
  | flashPatrol (ch : Fin 32) (die : Fin 12) (block : Nat) (relocate : Bool)
  /-- READ_DISTURB_RELOCATE (R540) -/
  | readDisturbRelocate (ch : Fin 32) (die : Fin 12) (block : Nat)
  /-- PROGRAM_ERASE_FAIL (R541) -/
  | programEraseFail (ch : Fin 32) (die : Fin 12) (block : Nat)
  /-- WEAR_THROTTLE_END (R537) -/
  | wearThrottleEnd
  /-- HBM_RETRAIN (R458) -/
  | hbmRetrain (pc : Fin 512) (laneErrors : Nat)
  /-- HBM_PATROL_SCRUB (R463) -/
  | hbmPatrolScrub (pc : Fin 512) (sector : Nat) (symbols : Nat)
  /-- SRAM_SCRUB (R464) -/
  | sramScrub (h : Half) (row : Nat) (bits : Nat)
  /-- TELEMETRY_SAMPLE (R124) -/
  | telemetrySample (stackTemps : List Nat) (coolantOut : Nat)
  /-- STACK_STOP_TIMEOUT (R466) -/
  | stackStopTimeout (req : Nat)
  /-- BUCKET_DRAIN (R631) -/
  | bucketDrain (row : Nat) (unit : U16)
  /-- UNIT_WATCHDOG (R632) -/
  | unitWatchdog (unit : U16)
  /-- BRIDGE_LOSS (R23) -/
  | bridgeLoss (channel : Fin 4)
  /-- HEARTBEAT (R649) -/
  | heartbeat (h : Half)
  /-- LEASE_RENEWAL (R649) -/
  | leaseRenewal (h : Half) (epoch : U32)
  /-- LEASE_REQUEST (R651) -/
  | leaseRequest (answered : Bool)
  /-- LEASE_GRANT (R652) -/
  | leaseGrant
  /-- FOLLOWER_PROBE (R653) -/
  | followerProbe (answered : Bool)
  /-- SPLIT_LEASE_CLAIM (R655) -/
  | splitLeaseClaim (epochWest : U32) (epochEast : U32)
  /-- PROCESSOR_REJOIN (R654) -/
  | processorRejoin (h : Half)
  /-- HANDLE_WATCHDOG_RESTART (R656) -/
  | handleWatchdogRestart
  /-- AUX_POWER_GOOD (R669) -/
  | auxPowerGood (outcome : UpsettOutcome)
  /-- MAIN_INPUT_IN_RANGE (R699) -/
  | mainInputInRange (mv : Nat) (outcome : UpsettOutcome)
  /-- MOD_RESET (R670) -/
  | modReset (low : Bool) (outcome : UpsettOutcome)
  /-- HOLD_OFF_ASSERT (R687) -/
  | holdOffAssert
  /-- HOLD_OFF_RELEASE (R687) -/
  | holdOffRelease (outcome : UpsettOutcome)
  /-- MAIN_INPUT_LOSS (R688) -/
  | mainInputLoss (mv : Nat)
  /-- OVERVOLTAGE_OR_RAIL_FAULT (R688) -/
  | overvoltageOrRailFault (overvoltage : Bool) (mv : Nat)
  /-- MOD_PRESENT_OPEN (R703) -/
  | modPresentOpen
  /-- REFERENCE_LOST (R680) -/
  | referenceLost
  /-- REFERENCE_RESTORED (R680) -/
  | referenceRestored
  /-- GOVERNOR_INTERVAL (R685) -/
  | governorInterval (watts : Nat)
  /-- POWER_ESTIMATE_UPDATE (R682) -/
  | powerEstimateUpdate (h : Half) (watts : Nat)
  /-- RAMP_STEP (R684) -/
  | rampStep
  /-- ENGINE_IDLE (R683) -/
  | engineIdle (inst : EngineInst)
  /-- JUNCTION_SENSOR_READ (R690) -/
  | junctionSensorRead (west : Nat) (east : Nat)
  /-- THERMAL_THROTTLE_STEP (R690) -/
  | thermalThrottleStep
  /-- TOKEN_BUCKET_REFILL (R618) -/
  | tokenBucketRefill
  /-- MEMORY_ZEROED (R627) -/
  | memoryZeroed (fn : Nat) (tag : U16)
  /-- PLDM_REQUEST (R705) -/
  | pldmRequest (ptype : Byte) (sensor : Nat)
  /-- ENTDAA (R704) -/
  | entdaa (address : BitVec 7)
  /-- SMBUS_FIRST_ADDRESS (R704) -/
  | smbusFirstAddress (address : BitVec 7)
  /-- READ_CONFIG (R706) -/
  | readConfig
  /-- WRITE_CONFIG (R678) -/
  | writeConfig (cfg : OpConfig)
  /-- WRITE_MAP (R551) -/
  | writeMap (dims : List Nat) (coords : List Nat)
  /-- INSTALL_ROOT (R706) -/
  | installRoot (key : List Byte)
  /-- INSTALL_KEK (R706) -/
  | installKek (payload : List Byte) (root : List Byte) (sig : List Byte)
  /-- INSTALL_COIL_KEY (R706) -/
  | installCoilKey (payload : List Byte) (root : List Byte) (sig : List Byte)
  /-- REVOKE_COIL_KEY (R706) -/
  | revokeCoilKey (payload : List Byte) (root : List Byte) (sig : List Byte)
  /-- READ_IDENTITY (R706) -/
  | readIdentity
  /-- PIPE_TILE_ARRIVAL (R316) -/
  | pipeTileArrival (inst : EngineInst)
  /-- AUX_POWER_LOSS (R697) -/
  | auxPowerLoss
  /-- VF_ENABLE (R56) -/
  | vfEnable (numVfs : Nat)
  /-- MANAGEMENT_RESET (R670) -/
  | managementReset (outcome : UpsettOutcome)
  /-- PCIE_COMPLETION_TIMEOUT (R718) -/
  | pcieCompletionTimeout (lo : Nat) (hi : Nat)
  deriving DecidableEq, Repr

end Sys2Proof
end

