-- ==== Sys2Proof/Config.lean ====
section
/-! DEFINITION. What one implementation fixes and the values the spec leaves free. Every constant here is opaque:
nothing in Lean can evaluate it, so a statement holds whatever its value. -/

namespace Sys2Proof.Config

/-- The n-th draw from the on-die true random source (02 R97, 05 R272, 09 R451): a free value (log entry 4). -/
opaque trueRandom : Nat → Nat

/-- The n-th choice that the spec leaves open to Pyvos, such as an allocation's base (log entry 5). -/
opaque openChoice : Nat → Nat

/-- Byte i of memory whose contents the spec leaves unspecified, at the k-th choice (08 R427; log entry 5). -/
opaque openByte : Nat → Nat → Byte

/-- EXP, LOG, SIGMOID, TANH and GELU of an FP32 operand: within one unit in the last place, the bits being the
family's own (08 R394); free functions of the operand (log entry 8). -/
opaque expUnit : U32 → U32
opaque logUnit : U32 → U32
opaque sigmoidUnit : U32 → U32
opaque tanhUnit : U32 → U32
opaque geluUnit : U32 → U32

/-- The Box-Muller normal of two words (05 R269), evaluated by the family's function units (log entry 8). -/
opaque boxMuller : U32 → U32 → U32

/-- The edge tables of the ziggurat (05 R269), which ship in the conformance kit (log entry 9). -/
opaque zigX : Nat → U32
opaque zigY : Nat → U32

/-- The Sampler's keyed bucket hash of a node (05 R249), the tier's keyed channel hash of a unit (10 R506) and the
row cache's keyed set hash of a row (09 R483): free functions (log entry 10). -/
opaque dedupHash : Nat → Nat → Nat
opaque channelHash : Nat → Nat → Nat → Nat
opaque rowSetHash : Nat → Nat → Nat

/-- The power estimate E + D, in W, that the governor expects at throttle level l, from the halves' estimates and
the offset; the coefficients are calibrated at manufacture (14 R682) and not given (log entry 11). -/
opaque estimateAt : Nat → Nat → Int → Nat → Int

/-- The key under which the module authenticates context save areas (03 R185); it never leaves the module. -/
opaque saveKey : BitVec 256

/-- The module's 48-bit serial number (15 R714). -/
opaque serial : BitVec 48

/-- The public transport key of the module, as READ_IDENTITY returns it, and the operator's unwrapping of a
key-encryption key under its private half (15 Table 15.5). -/
opaque transportKey : List Byte
opaque unwrapKek : List Byte → Option (BitVec 256)

/-- The firmware-signing keys 0 to 3: the public point, whether its hash is fused, whether it is revoked
(13 Table 13.7). -/
opaque fwKey : Nat → Nat × Nat
opaque fwKeyFused : Nat → Bool
opaque fwKeyRevoked : Nat → Bool

/-- Repair lanes of each direction of each bridge channel (01 R22); the number is not given. -/
opaque bridgeRepairLanes : Nat → Nat

/-- The count of bad events that a bounded interval of time draws from physical memory arrays at manufacture is not
given: factory-marked bad blocks of a flash die (10 R541). -/
opaque factoryBad : Nat → Nat → List Nat

/-- The body of a link message (11 Table 11.3): the spec gives the messages and not their layout. The list holds the message's
number (0 NAK, 1 LINK_STATE, 2 HOLD, 3 RESUME, 4 link-state map, 5 last SEQ accepted) and its operands (log entry 25). -/
opaque linkBody : List Nat → List Byte

/-- The bytes of a reply of the management interface: the spec gives what READ_CONFIG, READ_IDENTITY and PLDM answers carry and not
how it is laid out (15 R705, R706). The first argument is the message's code, or 0x100 + the PLDM type (log entry 27). -/
opaque mgmtBody : Nat → List Nat → List Byte → List Byte

/-- The SLOT_ID straps of the slot the module sits in (15 R704). -/
opaque slotId : BitVec 4

end Sys2Proof.Config
end

