-- ==== Sys2Proof/Machine/State.lean ====
section
/-! DEFINITION. The state of the module as plain data: everything the spec names, grouped by the chapter that owns
it, and the machine right after reset. A field that is the model's own says so. -/

namespace Sys2Proof.Machine

/-! ### Chapter 02: mailboxes and sessions -/

/-- STATE of MBX_STATUS (02 Table 2.2). -/
inductive ModState where
  | reset
  | upsett
  | ready
  | updating
  | recovery
  | down
  deriving DecidableEq, Repr

/-- A submission entry (02 Table 2.3). -/
structure Submission where
  opcode : Byte
  flags : Byte
  tag : U16
  session : U32
  epoch : U32
  p0 : U64
  p1 : U64
  p2 : U64
  p3 : U64
  p4 : U64
  p5 : U64
  deriving DecidableEq, Repr

/-- A completion entry that has fallen due, less the fields fixed when it is written (02 Table 2.4). -/
structure Completion where
  tag : U16
  cls : Byte
  reason : Byte
  final : Bool
  res0 : U64
  res1 : U64
  detail : U32
  quiet : Bool
  deriving DecidableEq, Repr

/-- A notice waiting for the slot of 02 R118. -/
structure Notice where
  kind : Byte
  arg : U64
  deriving DecidableEq, Repr

/-- A command read from a ring and not yet finally completed (02 R69, R80). held says that it has been accepted and
waits for its condition, started that it has been acted on and completes later. -/
structure Outstanding where
  sub : Submission
  readAt : Nat
  interim : Bool
  held : Bool
  started : Bool
  order : Nat
  deriving DecidableEq, Repr

/-- The mailbox of one function: its registers (02 Table 2.2) and the state of its rings. -/
structure Mailbox where
  fn : Nat
  err : Byte := 0
  halted : Bool := false
  enable : Bool := false
  timeUs : U16 := 0
  count : BitVec 12 := 1
  sqBase : U64 := 0
  cqBase : U64 := 0
  sqLog2 : BitVec 4 := 6
  cqLog2 : BitVec 4 := 6
  sqHead : Nat := 0
  cqTail : Nat := 0
  sqTail : Nat := 0
  cqHead : Nat := 0
  phase : Bool := true
  timeHi : U32 := 0
  periodMs : U16 := 0
  outstanding : List Outstanding := []
  held : List Completion := []
  notices : List Notice := []
  noticeSlot : Option Nat := none
  unsignalled : Nat := 0
  firstUnsignalled : Option Nat := none
  vector0 : Nat := 0
  vector1 : Nat := 0
  vector2 : Nat := 0
  telFired : Nat := 0
  deriving DecidableEq, Repr

/-- A session in PENDING or OPEN state (02 R92); a CLOSED one is no longer listed. -/
structure Session where
  id : U32
  fn : Nat
  tenant : U32
  isOpen : Bool
  nonce : List Byte
  openedAt : Nat
  idleTimeout : Nat
  lastActive : Nat
  deriving DecidableEq, Repr

/-- What the operator and the failures of authentication have set for a tenant (02 R87, R102; 12 R605, R618). -/
structure Tenant where
  id : U32
  key : Option (BitVec 256) := none
  failures : List Nat := []
  lockedUntil : Option Nat := none
  ceiling : BitVec 3 := 5
  idleTimeout : Nat := 300
  functions : BitVec 256 := BitVec.allOnes 256
  quotas : List (Nat × U64) := []
  hbmTokens : Option Nat := none
  fabricTokens : Option Nat := none
  refusedQuota : Nat := 0
  refusedCeiling : Nat := 0
  hbmThrottleNs : Nat := 0
  fabricThrottleNs : Nat := 0
  deriving DecidableEq, Repr

/-! ### Chapters 01, 05, 06, 08, 09, 10, 11, 12: a context -/

/-- Where the pages of an allocation are backed (01 R39, R43; 09 R472). -/
inductive Backing where
  | nearWest
  | nearEast
  | striped
  | basketWest
  | basketEast
  | host
  deriving DecidableEq, Repr

/-- What an allocation is reserved to (09 R472). -/
inductive AllocUse where
  | plain
  | pool (table : Nat)
  | shadow
  | pyvos
  deriving DecidableEq, Repr

/-- An allocation of context memory. phys is the base in the module memory of its backing, or the bus address. -/
structure Alloc where
  base : Nat
  size : Nat
  page : Nat
  backing : Backing
  rd : Bool
  wr : Bool
  phys : Nat
  use : AllocUse
  deriving DecidableEq, Repr

/-- A two-version region (08 R421, 09 R479): granules whose committed version lies in the shadow, granules
provisional for the pending step, and granules flipped by steps not yet settled, with the step. -/
structure Region where
  table : Nat
  base : Nat
  bytes : Nat
  shadow : Nat
  inShadow : List Nat
  provisional : List Nat
  unsettled : List (Nat × Nat)
  deriving DecidableEq, Repr

/-- One entry of a range map (09 Table 9.3). -/
structure RangeEntry where
  first : Nat
  owner : Nat
  replicated : Bool
  unowned : Bool
  localBase : Nat
  deriving DecidableEq, Repr

/-- One way of a row cache (09 R483, R484): both versions of the record and its tag bits. -/
structure CacheWay where
  row : Nat
  set : Nat
  slot : Nat
  committed : List Byte
  provisional : Option (List Byte)
  previous : Option (Nat × List Byte)
  dirty : Bool
  pending : Bool
  lru : Nat
  deriving DecidableEq, Repr

/-- One unit of a tiered table in flash (10 R505, Table 10.3): its map entry, its contents, the retained synced
copy (10 R530), and the contents at the last completed sync. -/
structure FlashUnit where
  unit : Nat
  channel : Nat
  location : Nat
  written : Bool
  poison : Bool
  data : List Byte
  synced : Option (List Byte)
  deriving DecidableEq, Repr

/-- The tier side of a tiered table: hash keys, ways, rows being promoted and whether flash has been read for each, units. -/
structure TierTable where
  sets : Nat
  setKey : Nat
  channelKey : Nat
  ways : List CacheWay
  promoting : List (Nat × Bool)
  units : List FlashUnit
  everSynced : Bool
  isProtected : Bool
  deriving DecidableEq, Repr

/-- A pool table (09 R476-R490). -/
structure Table where
  handle : Nat
  fmt : Nat
  rowBytes : Nat
  rows : Nat
  optimiser : Nat
  hub : Bool
  placement : Nat
  storage : Nat
  ownStorage : Bool
  defaultRow : List Byte
  ownership : Option (List RangeEntry)
  poolGroup : Option Nat
  tier : Option TierTable
  deriving DecidableEq, Repr

/-- A graph object (05 R229). -/
structure Graph where
  handle : Nat
  offsets : Nat
  neighbours : Nat
  nodes : Nat
  relationCount : Nat
  weights : Nat
  relations : Nat
  ownership : Option (List RangeEntry)
  mapOrder : Nat
  deriving DecidableEq, Repr

/-- A loaded coil image (06 R331): its class (0 Splint, 1 Sampler) and its instructions. -/
structure Coil where
  handle : Nat
  cls : Nat
  code : List U32
  deriving DecidableEq, Repr

/-- Names a command: the list, the task's index and the command's index in the task. -/
structure CmdRef where
  list : Nat
  task : Nat
  cmd : Nat
  deriving DecidableEq, Repr

/-- What a member's readiness says of a collective: its numbers, and the axis along which it came. -/
structure CollNote where
  seq : Nat
  src : Nat
  kind : Nat
  op : Nat
  wire : Nat
  count : Nat
  deriving DecidableEq, Repr

/-- A collective in progress at this member (11 R583-R595). readyPos and readyNeg say that the ring neighbour has told its
readiness; phase counts the axes of a readiness flood or barrier that are done, heard the states come along each axis; outbox
holds packets for a neighbour that is not ready, with the direction; got the elements received by stage (0 reduction, 1 gathering),
half-piece or block; abort the kept originator and error and when the member first learned of one. -/
structure Collective where
  ref : CmdRef
  seq : Nat
  kind : Nat
  op : Nat
  wire : Nat
  count : Nat
  step : Nat
  startedAt : Nat
  readyPos : Bool
  readyNeg : Bool
  phase : Nat
  heard : List (Nat × Nat)
  outbox : List (Bool × Packet)
  got : List (Nat × Nat × Nat)
  abort : Option (Nat × Nat × Nat)
  deriving DecidableEq, Repr

/-- Votes received for a step or a settle round (08 R433). -/
structure VoteRx where
  step : Nat
  settle : Bool
  phase : Nat
  src : Nat
  set : Bool
  lowest : Nat
  deriving DecidableEq, Repr

/-- The receiving side of a peer stream (11 R580): transfers complete in order. -/
structure RxStream where
  src : Nat
  stream : Nat
  nextTransfer : Nat
  arrived : List (Nat × Nat × Nat × Option (Nat × U32))
  refused : List Nat
  deriving DecidableEq, Repr

/-- A group of the fabric (11 Table 11.7, R573). joined lists the members known to have joined, order the place of the join
among the commands. -/
structure Group where
  handle : Nat
  gid : Nat
  axes : Nat
  origin : Nat
  extent : Nat
  jobTag : U32
  timeoutMs : Nat
  rxBase : Nat
  rxBytes : Nat
  order : Nat
  joinedAt : Nat
  members : List Nat
  joined : List Nat
  complete : Bool
  joinTag : Option U16
  nextSeq : Nat
  current : Option Collective
  early : List CollNote
  aborts : List (Nat × Nat × Nat × Nat)
  votes : List VoteRx
  rx : List RxStream
  deriving DecidableEq, Repr

/-- An open sending stream (11 R577). -/
structure PeerStream where
  number : Nat
  handle : Nat
  group : Nat
  peer : Nat
  rxBytes : Option Nat
  nextTransfer : Nat
  openedAt : Nat
  openTag : Option U16
  deriving DecidableEq, Repr

/-- The loss-scale policy and the step fields of the Rim state (08 Table 8.7). -/
structure RimState where
  lsScale : U32 := 0x3F800000
  lsGrowth : U32 := 0x40000000
  lsBackoff : U32 := 0x3F000000
  lsMin : U32 := 0x3F800000
  lsMax : U32 := 0x4B800000
  lsInterval : U32 := 2000
  lsClean : U32 := 0
  lsMode : Bool := false
  pending : Nat := 0
  lastDecided : Nat := 0
  ringValid : U64 := 0
  latch : Bool := false
  deriving DecidableEq, Repr

/-- Decision of a step (08 Table 8.6). -/
inductive Decision where
  | none
  | commit
  | skip
  | aborted
  deriving DecidableEq, Repr

/-- The vote of a step of the context, from STEP_VOTE to STEP_APPLY, and the round it takes part in (08 R430-R440). phase
counts the axes done, 3 when all are. -/
structure VoteState where
  step : Nat
  group : Nat
  myVote : Bool
  castAt : Nat
  phase : Nat
  set : Bool
  lowest : Nat
  decision : Decision
  decidedAt : Nat
  origin : Nat
  error : Nat
  deriving DecidableEq, Repr

/-- A committed step whose settle has not completed, or whose settle was aborted (08 R438-R442), with its STEP_APPLY. -/
structure Settle where
  step : Nat
  group : Nat
  record : Nat
  startedAt : Nat
  phase : Nat
  aborted : Bool
  ref : CmdRef
  deriving DecidableEq, Repr

/-- One entry of the hyperparameter ring (08 Table 8.4). -/
structure RingEntry where
  step : Nat
  pgroup : Nat
  lr : U32
  beta1 : U32
  beta2 : U32
  eps : U32
  wd : U32
  bc1 : U32
  bc2 : U32
  invScale : U32
  deriving DecidableEq, Repr

/-- A gradient contribution in the store (09 R494), numbered as its sender numbered it (11 R581). -/
structure Contribution where
  table : Nat
  row : Nat
  step : Nat
  sender : Nat
  seq : Nat
  grad : List U32
  deriving DecidableEq, Repr

/-- A contribution waiting for the store, local or from a packet to be answered (09 R496). -/
structure WaitingContribution where
  item : Contribution
  since : Nat
  jobTag : U32
  gid : Nat
  ref : Option CmdRef
  deriving DecidableEq, Repr

/-- A table-mode RM_OPT waiting for the deferred-update log (10 R522, R523): for entries of a step or earlier to be folded,
or for an append of so many bytes to fit. -/
structure LogWait where
  ref : CmdRef
  age : Option Nat
  bytes : Nat
  deriving DecidableEq, Repr

/-- A row of a pipe tile: its tags and its elements; none while the row is still being gathered. -/
structure TileRow where
  dest : U32
  edge : U32
  data : Option (List Byte)
  deriving DecidableEq, Repr

/-- A tile of a pipe: the header of 06 Table 6.5 and its rows. -/
structure Tile where
  uid : Nat
  chunk : Nat
  seq : Nat
  last : Bool
  split : Bool
  relation : Nat
  attempt : Nat
  colBase : Nat
  rowElems : Nat
  splitSeq : Nat
  destFirst : Nat
  destCount : Nat
  splitCount : Nat
  fmt : Nat
  raw : Bool
  rows : List TileRow
  deriving DecidableEq, Repr

/-- A pipe of a context (03 R136). -/
structure Pipe where
  n : Nat
  producer : Option CmdRef
  consumer : Option CmdRef
  producerDone : Bool
  consumerDone : Bool
  tiles : List Tile
  deriving DecidableEq, Repr

/-- A context (12 R603, R604), named by the session it belongs to. decided lists the steps it has decided (08 R431, R436). -/
structure Context where
  sess : U32
  tenant : U32
  fn : Nat
  slot : Option Nat
  residentAt : Nat
  activeAt : Nat
  allocs : List Alloc := []
  regions : List Region := []
  nextHandle : Nat := 1
  tables : List Table := []
  graphs : List Graph := []
  coils : List Coil := []
  groups : List Group := []
  streams : List PeerStream := []
  sems : List U32 := List.replicate 48 0
  plaitKey : BitVec 128
  bases : List U64
  flags : BitVec 30 := 0
  rim : RimState := {}
  vote : Option VoteState := none
  decided : List Nat := []
  settles : List Settle := []
  ring : List RingEntry := []
  ringProvisional : Option RingEntry := none
  contributions : List Contribution := []
  waiting : List WaitingContribution := []
  logWait : Option LogWait := none
  storeBytes : Nat := 0
  marks : List (Nat × Nat × Nat) := []
  replicaApplied : List (Nat × Nat × Nat) := []
  contribSeq : List (Nat × Nat × Nat) := []
  pipes : List Pipe := []
  waysWest : Nat := 0
  waysEast : Nat := 0
  tierKeys : Option Nat := none
  splintCtr : List U64 := List.replicate 20 0
  weaveCtr : List U64 := List.replicate 16 0
  rimCtr : List U64 := List.replicate 16 0
  memCtr : List U64 := List.replicate 16 0
  tierCtr : List U64 := List.replicate 16 0
  fabricCtr : List U64 := List.replicate 16 0
  parks : Nat := 0
  contextWaitNs : Nat := 0
  queuedEntries : Nat := 0
  waysShortNs : Nat := 0
  deriving DecidableEq, Repr

/-! ### Chapter 03: lists, tasks and engines -/

/-- A task of an admitted list (03 Table 3.2), with the next command of each half and the commands completed. -/
structure Task where
  engine : Nat
  halves : Nat
  count : Nat
  offset : Nat
  nextWest : Nat
  nextEast : Nat
  doneWest : List Nat
  doneEast : List Nat
  waitSince : Option Nat
  timedOut : Bool
  deriving DecidableEq, Repr

/-- How a list ended (03 R179-R183). -/
structure ListEnd where
  cls : Byte
  reason : Byte
  detail : U32
  res0 : Option U64
  fault : U32
  faultOffset : U32
  faultInfo : U64
  endedAt : Nat
  deriving DecidableEq, Repr

/-- A list from its submission to its final completion. order is the admission order of 02 R70; the seven times
are those of 03 R184, in ns: context, preempted, priority, throttle, delay, semaphore, run. -/
structure CmdList where
  uid : Nat
  fn : Nat
  tag : U16
  sess : U32
  base : Nat
  bytes : Nat
  status : Nat
  prio : Nat
  order : Nat
  readAt : Nat
  admitted : Bool
  tasks : List Task
  started : Bool
  preemptions : Nat
  preempted : Bool
  times : List Nat
  ended : Option ListEnd
  deriving DecidableEq, Repr

/-- A command in progress on an engine instance, with the stream descriptors read when it was fetched, by the payload
offset of the field that names them (03 R147, R169). started says that its row has run. -/
structure Running where
  ref : CmdRef
  sess : U32
  word : BitVec 512
  descs : List (Nat × BitVec 512)
  firedAt : Nat
  started : Bool
  deriving DecidableEq, Repr

/-- Progress of a command over the halves it names: completed units, units signalled, halves finished (03 R132, R154),
and the generator state that stood when it started (05 R274). -/
structure Progress where
  ref : CmdRef
  sess : U32
  word : BitVec 512
  halves : Nat
  units : List Nat
  signalled : Nat
  westDone : Bool
  eastDone : Bool
  plaitKey : BitVec 128
  bases : List U64
  deriving DecidableEq, Repr

/-- An engine instance (03 Table 3.6): its commands in progress, its prefetched slot, commands pre-empted on it, and
when it last issued work (14 R683). -/
structure Engine where
  inst : EngineInst
  running : List Running := []
  prefetched : Option (Nat × Nat) := none
  suspended : List (Nat × List Running) := []
  lastIssue : Nat := 0
  idle : Bool := true
  rampStep : Nat := 0
  deriving DecidableEq, Repr

/-- What a delay-list entry stands for (03 R165). -/
inductive DelayKind where
  | delay (ref : CmdRef)
  | timeout (ref : CmdRef)
  deriving DecidableEq, Repr

/-- An entry of a half's delay list (03 R165-R168), deadline in ns of module time. -/
structure DelayEntry where
  half : Half
  deadline : Nat
  kind : DelayKind
  deriving DecidableEq, Repr

/-- A command waiting, without fault, for a free delay-list entry (03 R168). -/
structure DelayWait where
  half : Half
  ref : CmdRef
  deadline : Nat
  isTimeout : Bool
  deriving DecidableEq, Repr

/-! ### Chapter 06: Splints -/

/-- Where a reply is written (06 R290): at an address, into a row of a tile from a byte offset, or as a part of a bag. -/
inductive ReqDest where
  | memory (va : Nat)
  | tileRow (tile : Nat) (row : Nat) (offset : Nat)
  | bag (bag : Nat) (owner : Nat) (position : Nat) (offset : Nat)
  deriving DecidableEq, Repr

/-- The states of a row request (06 Table 6.2), less DELIVERED and DISCARDED, which free the slot. held is ISSUED at an
owner that holds the lookup (08 R428). -/
inductive ReqState where
  | basket
  | merged (leader : Nat)
  | queued
  | sorting
  | memory
  | remote
  | tier
  | held
  | returned
  deriving DecidableEq, Repr

/-- A row request in a Splint's slot: at most 512 B of a row from a byte offset. phys is the module address, or the row
for REMOTE and TIER; position the index position or item it serves; data what the memory held when it was issued;
overwritten that a write has since reached one of its sectors (06 R286). stopped says that its command has stopped. -/
structure Request where
  id : Nat
  ref : CmdRef
  sess : U32
  splint : CoreId
  state : ReqState
  merging : Bool
  table : Nat
  row : Nat
  offset : Nat
  bytes : Nat
  phys : Nat
  step : Nat
  half : Half
  pc : Nat
  issuedAt : Nat
  owner : Nat
  group : Nat
  targetIncarn : Byte
  stopped : Bool
  overwritten : Bool
  position : Nat
  dest : ReqDest
  data : List Byte
  poisoned : Bool
  deriving DecidableEq, Repr

/-- Where a chunk of a Splint command stands, and the Splint that holds it. -/
inductive ChunkState where
  | unclaimed
  | claimed (by_ : CoreId)
  | finished (by_ : CoreId)
  | applied
  deriving DecidableEq, Repr

/-- A row, or the part of a row from element col, as a chunk reduces it: destination, edge or position tag, its place in
the chunk, and FP32 elements. -/
structure SumRow where
  dest : Nat
  tag : Nat
  tile : Nat
  row : Nat
  col : Nat
  elems : List U32
  deriving DecidableEq, Repr

/-- A chunk (06 R299, R300): its edges or items, its destinations, its split piece, how many of its positions have been
issued, the pieces of tiles and the rows collected for it, and the number of its tiles once the last has come. -/
structure Chunk where
  num : Nat
  first : Nat
  count : Nat
  destFirst : Nat
  destCount : Nat
  split : Bool
  splitSeq : Nat
  splitCount : Nat
  attempt : Nat
  state : ChunkState
  issued : Nat
  finishedAt : Nat
  got : List (Nat × Nat × Nat)
  rows : List SumRow
  tiles : Option Nat
  rowElems : Nat
  deriving DecidableEq, Repr

/-- The shared progress of a Splint command over both halves: its chunks, the first chunk of East's part, requests
outstanding by position or bag, positions done, destinations reduced into, parts of bags that have come, contributions
not yet accepted, the time of the last claim, and for bags the index words and the bounds of each bag. -/
structure SpJob where
  ref : CmdRef
  sess : U32
  opcode : Nat
  step : Nat
  chunks : List Chunk
  westEnd : Nat
  outstanding : List (Nat × Nat)
  done : List Nat
  touched : List Nat
  parts : List (Nat × Nat × Nat × Nat × List Byte)
  sums : List (Nat × Nat × List U32)
  contribsDue : Nat
  lastClaim : Nat
  words : List Nat
  bags : List (Nat × Nat)
  deriving DecidableEq, Repr

/-- A coil core while a chunk runs on it (06 R306): registers, program counter, instruction count,
the open tile, and a closed one that is sent once it is known whether it is the chunk's last. -/
structure Core where
  id : CoreId
  job : CmdRef
  chunk : Nat
  coil : Nat
  regs : List U64
  pc : Nat
  executed : Nat
  tile : Option Tile
  closed : Option Tile
  rowBytes : Nat
  tileSeq : Nat
  deriving DecidableEq, Repr

/-! ### Chapter 05: remote sampling -/

/-- The picks of a node expanded at its owner (05 R259). -/
structure RemotePicks where
  ref : CmdRef
  hop : Nat
  node : Nat
  picks : List (Nat × Nat × Nat × U32)
  unreached : Bool
  deriving DecidableEq, Repr

/-- A remote request of a Sampler, a lookup held at the owner, or a bag awaiting its reply. -/
structure RemoteReq where
  msg : Nat
  ref : CmdRef
  sess : U32
  group : Nat
  type : Nat
  hop : Nat
  items : List Nat
  peer : Nat
  targetIncarn : Byte
  sentAt : Nat
  stopped : Bool
  deriving DecidableEq, Repr

/-- A remote lookup held at this owner until earlier steps are decided and settled (08 R428), or until rows it needs
have been promoted (09 R486). -/
structure HeldLookup where
  sess : U32
  pkt : Packet
  since : Nat
  forStep : Bool
  deriving DecidableEq, Repr

/-! ### Chapter 07: the Weave -/

/-- Accumulators carried by CHAIN (07 R354): the shape of the chain, the accumulator codes by element m × 32NT + n, the
elements that have saturated, and the A descriptor, B descriptor and weight extension of each earlier command, which the
stray and check stages read again. -/
structure Chain where
  ref : CmdRef
  m : Nat
  n : Nat
  accFmt : Nat
  group : Nat
  promo : Nat
  trans : Bool
  accs : List U32
  saturated : List Nat
  operands : List (BitVec 512 × BitVec 512 × BitVec 512)
  deriving DecidableEq, Repr

/-- A Weave command in progress: the scales read when it started (04 R208), what it will merge into the record (04
R209), the weight streams of its relations, 256 for one that serves all (07 R365, R377), and whether it waits for a pattern
test (07 R385). -/
structure WeaveRun where
  ref : CmdRef
  sa : U32
  sb : U32
  qmul : U32
  amax : U32
  sat : Nat
  rels : List (Nat × BitVec 512 × BitVec 512)
  unavailable : Bool
  testing : Bool
  deriving DecidableEq, Repr

/-- One half's columns (07 R380, R381, R390). disabled are the columns whose failed cell lies in this half; a column is
out of use when either half lists it (01 R33). spare is the logical column that the spare serves, 0x3F when it is free,
0x3E when it has failed. steer lists the columns that wait for the spare, first failed first. -/
structure Columns where
  disabled : U32 := 0
  spare : Nat := 0x3F
  steer : List Nat := []
  doneSent : Bool := false
  deriving DecidableEq, Repr

structure Weave where
  west : Columns := {}
  east : Columns := {}
  chains : List Chain := []
  runs : List WeaveRun := []
  pendingDisable : List (Half × Nat) := []
  pendingTest : List (Half × Option CmdRef) := []
  outOfService : Bool := false
  commandNumber : Nat := 0
  deriving DecidableEq, Repr

/-! ### Chapter 09: HBM and the Basket -/

/-- A pseudo-channel (09 Table 9.5, R455-R463). sectors counts those of the present window of 1 ms, window those of the last. -/
structure PseudoChannel where
  num : Nat
  sectors : Nat := 0
  window : Nat := 0
  retired : Bool := false
  marked : Bool := false
  openPage : Option Nat := none
  heldUntil : Nat := 0
  lastTrain : Nat := 0
  scrubbed : Nat := 0
  deriving DecidableEq, Repr

/-- A stack (09 Table 9.5). thermal is 0 NORMAL, 1 HOT, 2 THROTTLED, 3 STOPPED. -/
structure Stack where
  num : Nat
  spares : Nat := 0
  thermal : Nat := 0
  temp : Nat := 0
  stoppedAt : Nat := 0
  retired : Bool := false
  deriving DecidableEq, Repr

structure Hbm where
  keyA : List (BitVec 9) := []
  k0 : BitVec 9 := 0
  pcs : List PseudoChannel := []
  stackList : List Stack := []
  poisoned : List Nat := []
  sramRepairs : List (Half × Nat) := []
  skewRun : Nat := 0
  skew : Nat := 0
  skewArmed : Bool := true
  zeroing : List (Backing × Nat) := []
  rekeying : Option (Nat × U16 × Nat) := none
  deriving DecidableEq, Repr

/-! ### Chapter 10: the flash tier -/

/-- A row waiting in a half's staging buffer (10 R511, R512). -/
structure Staged where
  half : Half
  sess : U32
  table : Nat
  row : Nat
  record : List Byte
  deriving DecidableEq, Repr

/-- An entry of the deferred-update log (10 Table 10.4). -/
structure LogEntry where
  sess : U32
  table : Nat
  row : Nat
  step : Nat
  grad : List U32
  deriving DecidableEq, Repr

/-- An erase block with a count of reads since its erase, or retired (10 R540, R541). -/
structure Block where
  channel : Nat
  die : Nat
  block : Nat
  reads : Nat
  erases : Nat
  retired : Bool
  deriving DecidableEq, Repr

/-- A flash channel (10 Table 10.9). state is 0 NORMAL, 1 READ_ONLY, 2 DOWN. -/
structure Channel where
  num : Nat
  diesLive : Nat
  state : Nat
  eraseMean : Nat
  eraseSpread : Nat
  deriving DecidableEq, Repr

structure Tier where
  channels : List Channel := []
  blocks : List Block := []
  staging : List Staged := []
  log : List LogEntry := []
  wearBytes : Nat := 0
  wearAt : Nat := 0
  lifeBytes : Nat := 0
  throttle : Bool := false
  powerLoss : Bool := false
  cleanMount : Bool := true
  deriving DecidableEq, Repr

/-! ### Chapter 11: the fabric -/

/-- STATE of LNK_PORT (11 Table 11.12). -/
inductive PortState where
  | down
  | training
  | up
  | held
  | wiring
  | retired
  deriving DecidableEq, Repr

/-- A port (11 R549-R562). out holds the flits put on the wire (the model's own), turn the place in the weighted round of
11 R562. -/
structure Port where
  num : Nat
  state : PortState := .down
  peer : Nat := 0
  peerPort : Nat := 0
  lanes : BitVec 4 := 0
  retrains : Nat := 0
  nextSeq : BitVec 12 := 0
  expected : BitVec 12 := 0
  retry : List (BitVec 12 × List Byte) := []
  waiting : List (Nat × List Byte × Bool × Bool) := []
  nakOpen : Bool := false
  credits : List Nat := []
  freed : List (Nat × Nat) := []
  assembly : List (Nat × List Byte) := []
  heldSince : Nat := 0
  lastTry : Nat := 0
  fecBucket : Nat := 0
  replayUs : Nat := 0
  turn : Nat := 0
  out : List (List Byte) := []
  deriving DecidableEq, Repr

/-- The fabric side of the module: installation map in force and written, ports, link-state map, incarnations of peers as
known, packets received whole and not yet taken, packets of tenants waiting for tokens, and module time; everLocked says that
time has been locked since auxiliary power came (13 Table 13.9). -/
structure Fabric where
  dims : List Nat := [1, 1, 1]
  coords : List Nat := [0, 0, 0]
  nextDims : List Nat := [1, 1, 1]
  nextCoords : List Nat := [0, 0, 0]
  mapWritten : Bool := false
  ports : List Port := []
  links : List (Nat × BitVec 12) := []
  peers : List (Nat × Byte) := []
  received : List Packet := []
  sent : List Packet := []
  nextMsg : Nat := 0
  tagDrops : Nat := 0
  typeDrops : Nat := 0
  lostCut : Nat := 0
  grandmaster : Bool := false
  locked : Bool := false
  everLocked : Bool := false
  gm : Nat := 0
  offset : Int := 0
  slewNs : Int := 0
  slewAt : Nat := 0
  deriving DecidableEq, Repr

/-! ### Chapter 13: faults, resets and leadership -/

/-- A leaky bucket (13 R631): row of Table 13.2, unit, sub-resource, count, time of the last event or fall. -/
structure Bucket where
  row : Nat
  unit : U16
  sub : Nat
  count : Nat
  since : Nat
  deriving DecidableEq, Repr

/-- An error-log record (13 Table 13.9). -/
structure LogRecord where
  index : Nat
  time : Nat
  kind : Nat
  severity : Nat
  unit : U16
  code : U16
  incarn : Byte
  auxTime : Bool
  tenant : U32
  sess : U32
  handle : Nat
  epoch : U32
  arg0 : U64
  arg1 : U64
  bucket : Nat
  deriving DecidableEq, Repr

/-- A unit being reset (13 R644): until when, and the command that waits for it. -/
structure Resetting where
  unit : U16
  endsAt : Nat
  command : Option (Nat × U16)
  deriving DecidableEq, Repr

/-- A firmware image in a slot (13 Table 13.6). -/
structure Image where
  version : U32
  security : Nat
  verified : Bool
  deriving DecidableEq, Repr

/-- A live update in progress (13 Table 13.8): phase 0 stands for the writing of the image. -/
structure Update where
  fn : Nat
  tag : U16
  phase : Nat
  startedAt : Nat
  failures : Nat
  oldSlot : Nat
  oldVersion : U32
  deriving DecidableEq, Repr

/-- deferred holds lasting faults that wait for the end of a reset: row of 13 Table 13.2, unit, sub-resource. -/
structure Faults where
  buckets : List Bucket := []
  retired : List U16 := []
  incarnations : List (U16 × Byte) := []
  moduleIncarnation : Byte := 0
  resetting : List Resetting := []
  deferred : List (Nat × U16 × Nat) := []
  bridgeLanes : List Nat := [0, 0, 0, 0]
  log : List LogRecord := []
  nextIndex : Nat := 0
  deriving DecidableEq, Repr

/-- The lease (13 R648-R656). heldProcessor is held in reset after a split claim, followerUp says that the follower is in
service, dispatching that a processor dispatches, granting that the Handle's three probes of the leader have failed. The Handle
restarts until handleUntil. -/
structure Leadership where
  epoch : U32 := 1
  leader : Half := .west
  degraded : Bool := false
  heldProcessor : Option Half := none
  followerUp : Bool := true
  dispatching : Bool := true
  lastBeatWest : Nat := 0
  lastBeatEast : Nat := 0
  lastRenewal : Nat := 0
  handleUntil : Nat := 0
  granting : Bool := false
  deriving DecidableEq, Repr

structure Firmware where
  slotA : Image := { version := 0, security := 0, verified := true }
  slotB : Image := { version := 0, security := 0, verified := true }
  bootSlot : Nat := 0
  running : Nat := 0
  runningVersion : U32 := 0
  fusedMinimum : Nat := 0
  update : Option Update := none
  deriving DecidableEq, Repr

/-! ### Chapters 14 and 15: power, clocks, pins and management -/

/-- Supplies, start-up, governor, heat and pins (14 R669-R694; 15 R696-R703). upsettStep is the last step of upsett that has
ended, outcome what nature supplies to the run of it, level L, allowance the issue allowance in 64ths, rampRefused that the last
ramp step asked for in this interval was refused, rampHeld that one was in the last interval, estimateSum and estimates the
estimates E of the interval, thermalCap the cap that the thermal throttle leaves. -/
structure Power where
  auxPresent : Bool := false
  auxMv : Nat := 0
  inputMv : Nat := 0
  charged : Bool := false
  railsOn : Bool := false
  pcieUp : Bool := false
  auxGoodAt : Nat := 0
  upsettStep : Nat := 0
  upsettPaused : Bool := false
  outcome : Option UpsettOutcome := none
  presentOpen : Bool := false
  resetLow : Bool := false
  holdOff : Bool := false
  alert : Bool := false
  thermtrip : Bool := false
  config : OpConfig := { tickNs := 1000, cacheSlices := 8, logGib := 16, capW := 1500, brakeFloorW := 750, thermalStepW := 25 }
  stored : OpConfig := { tickNs := 1000, cacheSlices := 8, logGib := 16, capW := 1500, brakeFloorW := 750, thermalStepW := 25 }
  thermalCap : Nat := 1500
  thermalThrottle : Bool := false
  thermalBrake : Bool := false
  recovering : Bool := false
  level : Nat := 0
  levelBeforeBrake : Nat := 0
  allowance : Nat := 0
  rampRefused : Bool := false
  rampHeld : Bool := false
  offset : Int := 0
  estimateWest : Nat := 0
  estimateEast : Nat := 0
  estimateSum : Nat := 0
  estimates : Nat := 0
  powerW : Nat := 0
  energyMj : Nat := 0
  energyUj : Nat := 0
  throttledNs : Nat := 0
  tempWest : Nat := 0
  tempEast : Nat := 0
  coolantOut : Nat := 0
  referenceOk : Bool := true
  deriving DecidableEq, Repr

/-- The telemetry window (02 R123, R124): TEL_VERSION, TEL_SEQ, the time of the last 1-ms sample in µs, the samples taken, and
the 64-bit words of BAR2 beyond its head as the last sample left them, by byte offset; a word not listed is zero. -/
structure Telemetry where
  version : U32 := 0
  seq : U32 := 0
  time : U64 := 0
  samples : Nat := 0
  window : List (Nat × U64) := []
  deriving DecidableEq, Repr

/-- A reply of the management interface: the message code, whether it succeeded, and its data (15 Table 15.5). -/
structure MgmtReply where
  code : Nat
  ok : Bool
  data : List Byte
  deriving DecidableEq, Repr

structure Management where
  smbus : Bool := false
  dynamicAddress : Option (BitVec 7) := none
  rootHash : Option (List Byte) := none
  kek : Option (BitVec 256) := none
  coilKeys : List (U32 × Nat × Nat) := []
  reply : Option MgmtReply := none
  deriving DecidableEq, Repr

/-! ### The whole -/

/-- The module. pending is the queue of commands waiting, first in, first out. mem lists the bytes of module memory
that are not zero; hostMem those of host memory (the host's, seen through DMA), hostRefuse the bus ranges whose
accesses the host refuses or does not answer; dedupKeys the Samplers' hash keys (05 R249). draws and choices count the uses of Config.trueRandom and
Config.openChoice, nextUid the model's own numbering of lists, requests and tiles. -/
structure State where
  pending : List Instr
  now : Nat
  mstate : ModState
  numVfs : Nat
  boxes : List Mailbox
  sessions : List Session
  generations : List (Nat × Nat)
  tenants : List Tenant
  contexts : List Context
  waitQueue : List (U32 × Nat × Nat)
  lists : List CmdList
  engines : List Engine
  progress : List Progress
  delays : List DelayEntry
  delayWaits : List DelayWait
  jobs : List SpJob
  cores : List Core
  requests : List Request
  remotePicks : List RemotePicks
  remoteReqs : List RemoteReq
  heldLookups : List HeldLookup
  weave : Weave
  hbm : Hbm
  tier : Tier
  fabric : Fabric
  faults : Faults
  lead : Leadership
  fw : Firmware
  power : Power
  tel : Telemetry
  mgmt : Management
  mem : List Host.Cell
  hostMem : List Host.Cell
  hostRefuse : List (Nat × Nat)
  busRead : U32
  splintIssued : List (Nat × Nat)
  splintBusyNs : List (Nat × Nat)
  dedupKeys : List Nat
  draws : Nat
  choices : Nat
  nextUid : Nat
  deriving DecidableEq, Repr

/-- Why the module stops. -/
inductive Fault where
  /-- A register access names a PCIe function that does not exist (02 R56, R75). Raised by the mailbox register
  commands. Safe: the module has no register there and the spec gives no effect. -/
  | noSuchFunction
  deriving DecidableEq, Repr

/-- Why a command has no meaning in the model. -/
inductive Refusal where
  /-- The command is not modelled yet. Raised by exec's own arms only. Safe. -/
  | notModelled (mnemonic : String)
  deriving DecidableEq, Repr

/-- A mailbox at the reset values of 02 Table 2.2. -/
def Mailbox.fresh (fn : Nat) : Mailbox := { fn := fn }

/-- The engine instances of 03 Table 3.6, all idle. -/
def Engine.all : List Engine :=
  [{ inst := .weave }, { inst := .splints .west }, { inst := .splints .east }, { inst := .sampler .west },
   { inst := .sampler .east }, { inst := .rim .west }, { inst := .rim .east }, { inst := .fabric }, { inst := .tier }]

/-- The module right after reset: registers at the reset values of their tables, no session, no context, no list,
memory with nothing listed, before auxiliary power is good. -/
def State.reset : State where
  pending := []
  now := 0
  mstate := .upsett
  numVfs := 0
  boxes := [Mailbox.fresh 0]
  sessions := []
  generations := []
  tenants := []
  contexts := []
  waitQueue := []
  lists := []
  engines := Engine.all
  progress := []
  delays := []
  delayWaits := []
  jobs := []
  cores := []
  requests := []
  remotePicks := []
  remoteReqs := []
  heldLookups := []
  weave := {}
  hbm := {}
  tier := {}
  fabric := {}
  faults := {}
  lead := {}
  fw := {}
  power := {}
  tel := {}
  mgmt := {}
  mem := []
  hostMem := []
  hostRefuse := []
  busRead := 0
  splintIssued := []
  splintBusyNs := []
  dedupKeys := []
  draws := 0
  choices := 0
  nextUid := 0

end Sys2Proof.Machine
end

