-- ==== Sys2Proof/Machine/Ops.lean ====
section
/-! DEFINITION. The named operations over the state that the meanings share: memory as cells, the interleave, the
translation of context addresses, host DMA, the error log, and the mailbox (errors, completions, notices). -/

namespace Sys2Proof.Machine

/-! ### Lists -/

/-- Replace the elements that satisfy p by their image under f. -/
def mapIf {α : Type} (p : α → Bool) (f : α → α) (l : List α) : List α :=
  l.map fun x => if p x then f x else x

/-- Change the element at an index. -/
def modifyAt {α : Type} (f : α → α) : Nat → List α → List α
  | _, [] => []
  | 0, x :: t => f x :: t
  | n + 1, x :: t => x :: modifyAt f n t

/-- The element at an index, or a default. -/
def nthD {α : Type} (d : α) : List α → Nat → α
  | [], _ => d
  | x :: _, 0 => x
  | _ :: t, n + 1 => nthD d t n

/-- Insert before the first element that must not precede x. -/
def insertBy {α : Type} (before : α → α → Bool) (x : α) : List α → List α
  | [] => [x]
  | y :: t => if before x y then x :: y :: t else y :: insertBy before x t

/-- A stable sort. -/
def sortBy {α : Type} (before : α → α → Bool) : List α → List α
  | [] => []
  | x :: t => insertBy before x (sortBy before t)

/-- The least element under a strict order, the first of equals. -/
def leastBy {α : Type} (before : α → α → Bool) : List α → Option α
  | [] => none
  | x :: t =>
    match leastBy before t with
    | none => some x
    | some y => if before y x then some y else some x

/-- Add n to counter i of a counter record of 64-bit words. -/
def bump (ctr : List U64) (i n : Nat) : List U64 :=
  modifyAt (fun w => w + BitVec.ofNat 64 n) i ctr

/-! ### Bytes -/

/-- Little-endian value of a byte string (00 R10). -/
def leNat : List Byte → Nat
  | [] => 0
  | b :: t => b.toNat + 256 * leNat t

/-- The n low bytes of v, little-endian (00 R10). -/
def leBytes : Nat → Nat → List Byte
  | 0, _ => []
  | n + 1, v => BitVec.ofNat 8 v :: leBytes n (v / 256)

/-- Bits [hi:lo] of a number. -/
def bits (v hi lo : Nat) : Nat := (v >>> lo) % 2 ^ (hi + 1 - lo)

/-- A field of w bytes at a byte offset of a structure. -/
def fieldAt (bs : List Byte) (off w : Nat) : Nat := leNat ((bs.drop off).take w)

def alignUp (x a : Nat) : Nat := (x + a - 1) / a * a

def ceilDiv (x a : Nat) : Nat := (x + a - 1) / a

/-! ### Memory as cells -/

/-- The byte an unlisted address reads as (09 R473, 12 R627 for module memory; log entry 3 for host memory). -/
def unlisted : Byte := 0

def readCell : List Host.Cell → Nat → Byte
  | [], _ => unlisted
  | (a, b) :: t, x => if x < a then unlisted else if x = a then b else readCell t x

def writeCell : List Host.Cell → Nat → Byte → List Host.Cell
  | [], x, v => if v = unlisted then [] else [(x, v)]
  | (a, b) :: t, x, v =>
    if x < a then (if v = unlisted then (a, b) :: t else (x, v) :: (a, b) :: t)
    else if x = a then (if v = unlisted then t else (x, v) :: t)
    else (a, b) :: writeCell t x v

def readCells (m : List Host.Cell) : Nat → Nat → List Byte
  | _, 0 => []
  | a, n + 1 => readCell m a :: readCells m (a + 1) n

def writeCells (m : List Host.Cell) : Nat → List Byte → List Host.Cell
  | _, [] => m
  | a, b :: t => writeCells (writeCell m a b) (a + 1) t

/-- Zero a range of addresses. -/
def clearCells (m : List Host.Cell) (lo n : Nat) : List Host.Cell :=
  m.filter fun c => decide (c.1 < lo) || decide (lo + n ≤ c.1)

/-- The canonical form: addresses strictly rising, no entry equal to the unlisted byte. -/
def cellsFrom : Nat → List Host.Cell → Bool
  | _, [] => true
  | lo, (a, b) :: t => decide (lo ≤ a) && decide (b ≠ unlisted) && cellsFrom (a + 1) t

def Memory.wf (m : List Host.Cell) : Bool := cellsFrom 0 m

/-! ### Module physical memory -/

/-- The spaces of module memory, each of 2^48 addresses: near West, near East, striped, and the two Baskets
(the model's own numbering of what 01 R49 hides from software). -/
def Backing.space : Backing → Nat
  | .nearWest => 0
  | .nearEast => 1
  | .striped => 2
  | .basketWest => 3
  | .basketEast => 4
  | .host => 5

def spaceSize : Nat := 2 ^ 48

def isHbm (b : Backing) : Bool :=
  match b with
  | .nearWest | .nearEast | .striped => true
  | _ => false

def parity9 (x : BitVec 9) : Bool :=
  (x.getLsbD 0 ^^ x.getLsbD 1 ^^ x.getLsbD 2 ^^ x.getLsbD 3 ^^ x.getLsbD 4 ^^ x.getLsbD 5 ^^ x.getLsbD 6 ^^
    x.getLsbD 7 ^^ x.getLsbD 8)

/-- The xor of the w-bit slices of x (09 R450), over at most n slices. -/
def foldSlices (w : Nat) : Nat → Nat → Nat
  | 0, _ => 0
  | n + 1, x => (x % 2 ^ w) ^^^ foldSlices w n (x / 2 ^ w)

/-- The product of the key's rows with a vector over GF(2) (09 R450). -/
def gf2Mul : List (BitVec 9) → BitVec 9 → Nat
  | [], _ => 0
  | r :: t, x => (if parity9 (r &&& x) then 1 else 0) + 2 * gf2Mul t x

/-- Pseudo-channel of a near granule of half h (09 R450). -/
def nearChannel (h : Hbm) (half g : Nat) : Nat :=
  256 * half + ((g % 256) ^^^ (gf2Mul (h.keyA.take 8) (BitVec.ofNat 9 (foldSlices 8 6 (g / 256))) % 256) ^^^
    (h.k0.toNat % 256))

/-- Pseudo-channel of a striped granule (09 R450). -/
def stripedChannel (h : Hbm) (g : Nat) : Nat :=
  let p := (((g % 2) ^^^ (g / 256 % 2)) * 256) + g % 256
  p ^^^ gf2Mul h.keyA (BitVec.ofNat 9 (foldSlices 9 6 (g / 512))) ^^^ h.k0.toNat

/-- Pseudo-channel and sector of a module physical address: the sector number counts the sectors of the granule's
offset, those of the striped space apart from the near ones (01 R40, 09 R450). None outside HBM. -/
def sectorOf (h : Hbm) (phys : Nat) : Option (Nat × Nat) :=
  let space := phys / spaceSize
  let off := phys % spaceSize
  let g := off / 256
  match space with
  | 0 => some (nearChannel h 0 g, g / 256 * 8 + off / 32 % 8)
  | 1 => some (nearChannel h 1 g, g / 256 * 8 + off / 32 % 8)
  | 2 => some (stripedChannel h g, 2 ^ 25 + g / 512 * 8 + off / 32 % 8)
  | _ => none

/-- The key under which a poisoned sector is listed. -/
def sectorKey (pc sector : Nat) : Nat := pc * 2 ^ 40 + sector

/-- The first address of every sector that a span touches. -/
def sectorsOf (phys n : Nat) : List Nat :=
  (List.range ((phys % 32 + n + 31) / 32)).map fun i => phys / 32 * 32 + 32 * i

/-- The first poisoned sector of a span, as its pseudo-channel (09 R462). -/
def poisonIn (h : Hbm) (phys n : Nat) : Option Nat :=
  if h.poisoned = [] then none
  else (sectorsOf phys n).findSome? fun a =>
    match sectorOf h a with
    | some (pc, sec) => if h.poisoned.contains (sectorKey pc sec) then some pc else none
    | none => none

/-! ### Translation of context addresses (09 R472, 01 R53) -/

/-- Who makes an access: an engine reading, an engine writing, the optimiser writing a two-version region, or Pyvos. -/
inductive Access where
  | rd
  | wr
  | opt
  | inner
  deriving DecidableEq, Repr

/-- Where a byte lies: module memory or the bus. -/
inductive Loc where
  | mem (a : Nat)
  | host (a : Nat)
  deriving DecidableEq, Repr

def Alloc.has (a : Alloc) (va : Nat) : Bool := decide (a.base ≤ va) && decide (va < a.base + a.size)

def findAlloc (c : Context) (va : Nat) : Option Alloc := c.allocs.find? fun a => a.has va

def Region.has (r : Region) (va : Nat) : Bool := decide (r.base ≤ va) && decide (va < r.base + r.bytes)

/-- The bound two-version region that holds an address (08 R421). Regions of tables are reached by pool address only. -/
def findRegion (c : Context) (va : Nat) : Option Region := c.regions.find? fun r => r.table == 0 && r.has va

def plainLoc (c : Context) (va : Nat) : Option Loc :=
  match findAlloc c va with
  | none => none
  | some a =>
    let p := a.phys + (va - a.base)
    match a.backing with
    | .host => some (.host p)
    | b => some (.mem (b.space * spaceSize + p))

/-- Where the committed version of a granule of a region lies (08 R423). -/
def Region.committed (r : Region) (va : Nat) : Nat :=
  if r.inShadow.contains ((va - r.base) / 256) then r.shadow + (va - r.base) else va

/-- Where the inactive version of a granule of a region lies (08 R424). -/
def Region.inactive (r : Region) (va : Nat) : Nat :=
  if r.inShadow.contains ((va - r.base) / 256) then va else r.shadow + (va - r.base)

/-- The translation of one byte (01 R53; 02 R720; 08 R422, R423; 09 R481). None is a TRANSLATION fault. -/
def locate (c : Context) (acc : Access) (va : Nat) : Option Loc :=
  match findAlloc c va with
  | none => none
  | some a =>
    match acc with
    | .inner => plainLoc c va
    | .opt => plainLoc c va
    | .rd =>
      if a.rd = true ∧ a.use = .plain then
        match findRegion c va with
        | some r => plainLoc c (r.committed va)
        | none => plainLoc c va
      else none
    | .wr =>
      if a.wr = true ∧ a.use = .plain ∧ (findRegion c va).isNone then plainLoc c va else none

/-- How an access of an engine fails: TRANSLATION with the address, or an uncorrectable sector of a
pseudo-channel (09 R462). -/
inductive MemErr where
  | translation (va : Nat)
  | poison (pc : Nat)
  deriving DecidableEq, Repr

/-- A bus address that the host refuses or does not answer (01 R718). -/
def refused (s : State) (a : Nat) : Bool :=
  decide (2 ^ 64 ≤ a) || s.hostRefuse.any fun r => decide (r.1 ≤ a) && decide (a < r.2)

def findCtx (s : State) (sess : U32) : Option Context := s.contexts.find? fun c => c.sess == sess

/-- The context has decided a step (08 R431, R436). -/
def stepDecided (c : Context) (step : Nat) : Bool := step != 0 && (step == c.rim.lastDecided || c.decided.contains step)

def setCtx (s : State) (sess : U32) (f : Context → Context) : State :=
  { s with contexts := mapIf (fun c => c.sess == sess) f s.contexts }

def readByte (s : State) (c : Context) (acc : Access) (va : Nat) : Except MemErr Byte :=
  match locate c acc va with
  | none => .error (.translation va)
  | some (.host a) => if refused s a then .error (.translation va) else .ok (readCell s.hostMem a)
  | some (.mem a) =>
    match poisonIn s.hbm a 1 with
    | some pc => .error (.poison pc)
    | none => .ok (readCell s.mem a)

/-- Read n bytes of context memory; nothing of a faulting access is performed (01 R53). -/
def readVa (s : State) (c : Context) (acc : Access) : Nat → Nat → Except MemErr (List Byte)
  | _, 0 => .ok []
  | va, n + 1 =>
    match readByte s c acc va with
    | .error e => .error e
    | .ok b =>
      match readVa s c acc (va + 1) n with
      | .error e => .error e
      | .ok t => .ok (b :: t)

/-- Every byte of a span translates for the access. -/
def spanOk (s : State) (c : Context) (acc : Access) : Nat → Nat → Option Nat
  | _, 0 => none
  | va, n + 1 =>
    match locate c acc va with
    | none => some va
    | some (.host a) => if refused s a then some va else spanOk s c acc (va + 1) n
    | some (.mem _) => spanOk s c acc (va + 1) n

/-- A write of part of a poisoned sector, which faults as a demand read does (09 R462). A sector counts as written
whole when the span covers its 32 bytes. -/
def partialPoison (s : State) (c : Context) (acc : Access) (va n : Nat) : Option Nat :=
  if s.hbm.poisoned = [] then none
  else (List.range n).findSome? fun i =>
    match locate c acc (va + i) with
    | some (.mem a) =>
      if decide (a % 32 ≤ i) && decide (32 ≤ n - i + a % 32) then none else poisonIn s.hbm a 1
    | _ => none

/-- A write that reaches a sector of a read still in a merge table ends further merging with that read (06 R286). -/
def markOverwritten (a : Nat) (rs : List Request) : List Request :=
  mapIf (fun r => decide (r.phys / 32 * 32 ≤ a) && decide (a < alignUp (r.phys + r.bytes) 32)) (fun r => { r with overwritten := true }) rs

/-- Write one byte of module memory. A write of a whole poisoned sector clears it; part of one faults before (09 R462). -/
def pokeByte (s : State) (a : Nat) (b : Byte) : State :=
  let clear : Hbm :=
    if s.hbm.poisoned = [] then s.hbm
    else match sectorOf s.hbm a with
      | some (pc, sec) => { s.hbm with poisoned := s.hbm.poisoned.filter fun k => k != sectorKey pc sec }
      | none => s.hbm
  { s with mem := writeCell s.mem a b, hbm := clear, requests := if s.requests = [] then [] else markOverwritten a s.requests }

def putByte (s : State) (c : Context) (acc : Access) (va : Nat) (b : Byte) : State :=
  match locate c acc va with
  | some (.mem a) => pokeByte s a b
  | some (.host a) => { s with hostMem := writeCell s.hostMem a b }
  | none => s

def putBytes (s : State) (c : Context) (acc : Access) : Nat → List Byte → State
  | _, [] => s
  | va, b :: t => putBytes (putByte s c acc va b) c acc (va + 1) t

/-- Write bytes of context memory whole, or fault with nothing written (01 R53, 09 R462). -/
def writeVa (s : State) (c : Context) (acc : Access) (va : Nat) (bs : List Byte) : Except MemErr State :=
  match spanOk s c acc va bs.length with
  | some bad => .error (.translation bad)
  | none =>
    match partialPoison s c acc va bs.length with
    | some pc => .error (.poison pc)
    | none => .ok (putBytes s c acc va bs)

/-- The HBM sectors and bytes that an access of a context moves, by module address: counted in the context's record of
09 Table 9.4 (i is 0 for reads, 1 for writes), in the window of 09 R453, and charged to the tenant's bucket (12 R619). -/
def tallyPhys (s : State) (sess : U32) (i a n : Nat) : State :=
  match findCtx s sess, sectorOf s.hbm a with
  | some c, some _ =>
    let secs := sectorsOf a n
    let count := secs.length
    let pcs := secs.filterMap fun x => (sectorOf s.hbm x).map Prod.fst
    let hbm := { s.hbm with pcs := s.hbm.pcs.map fun p => { p with sectors := p.sectors + pcs.count p.num } }
    let tenants := mapIf (fun t => t.id == c.tenant) (fun t => { t with hbmTokens := t.hbmTokens.map fun k => k - 32 * count })
      s.tenants
    setCtx { s with hbm := hbm, tenants := tenants } sess fun c => { c with memCtr := bump c.memCtr i (32 * count) }
  | _, _ => s

/-- The same by context address. -/
def tally (s : State) (sess : U32) (i va n : Nat) : State :=
  match findCtx s sess with
  | none => s
  | some c =>
    match plainLoc c va with
    | some (.mem a) => tallyPhys s sess i a n
    | _ => s

/-! ### Host DMA of the mailboxes -/

def hostRead (s : State) (a n : Nat) : Option (List Byte) :=
  if (List.range n).any fun i => refused s (a + i) then none else some (readCells s.hostMem a n)

def hostWrite (s : State) (a : Nat) (bs : List Byte) : Option State :=
  if (List.range bs.length).any fun i => refused s (a + i) then none
  else some { s with hostMem := writeCells s.hostMem a bs }

/-! ### Free values and numbering -/

/-- Draw a value from the true random source. -/
def draw (s : State) : Nat × State := (Config.trueRandom s.draws, { s with draws := s.draws + 1 })

/-- Take a choice that the spec leaves to Pyvos. -/
def choose (s : State) : Nat × State := (Config.openChoice s.choices, { s with choices := s.choices + 1 })

/-- Counters whose events depend on what this model does not hold (hits in a Splint's cache, page-table walks, stalls of the
Weave and of sends): they advance by free amounts when they are looked at (log entry 6). -/
def unseenEvents (s : State) (sess : U32) : State :=
  let a := choose s
  let b := choose a.2
  let d := choose b.2
  let e := choose d.2
  let f := choose e.2
  setCtx f.2 sess fun c =>
    { c with splintCtr := bump c.splintCtr 3 a.1, memCtr := bump c.memCtr 4 b.1,
             weaveCtr := bump (bump c.weaveCtr 14 d.1) 15 e.1, fabricCtr := bump c.fabricCtr 13 f.1 }

def freshUid (s : State) : Nat × State := (s.nextUid, { s with nextUid := s.nextUid + 1 })

/-- Draw n bytes from the true random source. -/
def drawBytes : Nat → State → List Byte × State
  | 0, s => ([], s)
  | n + 1, s =>
    let d := draw s
    let r := drawBytes n d.2
    (BitVec.ofNat 8 d.1 :: r.1, r.2)

/-- Module time in whole µs (02 R61). -/
def nowUs (s : State) : Nat := s.now / 1000

/-! ### The error log (13 R665-R667) -/

def incarnationOf (s : State) (unit : U16) : Byte :=
  match s.faults.incarnations.find? fun p => p.1 == unit with
  | some p => p.2
  | none => 0

/-- A unit is being reset (13 R644). -/
def unitResetting (s : State) (unit : Nat) : Bool := s.faults.resetting.any fun r => r.unit.toNat == unit

/-- A unit in service: neither retired nor being reset (13 R634, R642). -/
def unitWorks (s : State) (unit : Nat) : Bool := !(s.faults.retired.contains (BitVec.ofNat 16 unit)) && !unitResetting s unit

/-- The half whose unit of a class, 4 Sampler or 0xB tier engine, does the work of half h: the other one's when h's is
retired (05 R241, 13 Table 13.3). -/
def servingHalf (s : State) (cls h : Nat) : Nat :=
  if s.faults.retired.contains (BitVec.ofNat 16 (4096 * cls + h)) then 1 - h else h

/-- The tier engine that serves half h is fenced, alone or with its half: the unit that refuses requests (13 R644). -/
def tierFenced (s : State) (h : Nat) : Option Nat :=
  let k := servingHalf s 0xB h
  if unitResetting s (0xB000 + k) then some (0xB000 + k) else if unitResetting s k then some k else none

/-- What a record names besides its kind. -/
structure LogWhat where
  unit : U16 := 0xFFFF
  code : U16 := 0
  tenant : U32 := 0
  sess : U32 := 0
  handle : Nat := 0
  arg0 : Nat := 0
  arg1 : Nat := 0
  bucket : Nat := 0
  deriving DecidableEq, Repr

/-- Append a record; the newest 16,384 are kept (13 R665). -/
def addLog (s : State) (kind severity : Nat) (w : LogWhat) : State :=
  let r : LogRecord :=
    { index := s.faults.nextIndex, time := if s.fabric.everLocked then nowUs s else (s.now - s.power.auxGoodAt) / 1000,
      kind := kind, severity := severity, unit := w.unit, code := w.code, incarn := incarnationOf s w.unit,
      auxTime := !s.fabric.everLocked, tenant := w.tenant, sess := w.sess, handle := w.handle, epoch := s.lead.epoch,
      arg0 := BitVec.ofNat 64 w.arg0, arg1 := BitVec.ofNat 64 w.arg1, bucket := w.bucket }
  let l := s.faults.log ++ [r]
  { s with faults := { s.faults with log := if l.length ≤ 16384 then l else l.drop (l.length - 16384), nextIndex := s.faults.nextIndex + 1 } }

/-! ### Mailboxes (chapter 02) -/

def findBox (s : State) (fn : Nat) : Option Mailbox := s.boxes.find? fun b => b.fn == fn

def setBox (s : State) (fn : Nat) (f : Mailbox → Mailbox) : State :=
  { s with boxes := mapIf (fun b => b.fn == fn) f s.boxes }

/-- Bits of MBX_ERR (02 Table 2.2). Bits 0 to 4 halt the mailbox. -/
def errConfigBad : Byte := 0x01
def errSqTailBad : Byte := 0x02
def errSqDma : Byte := 0x04
def errCqDma : Byte := 0x08
def errCqHeadBad : Byte := 0x10
def errEpochChanged : Byte := 0x20
def errStateChanged : Byte := 0x40
def errResetBusy : Byte := 0x80
def errHalting : Byte := 0x1F

/-- Set bits of MBX_ERR: vector 1 fires when one goes from 0 to 1 (02 R121), and a ring error halts (02 R71). -/
def raiseErr (e : Byte) (b : Mailbox) : Mailbox :=
  { b with
    err := b.err ||| e
    halted := b.halted || (e &&& errHalting) != 0
    vector1 := if (e &&& ~~~b.err) != 0 then b.vector1 + 1 else b.vector1 }

def Mailbox.sqSize (b : Mailbox) : Nat := 2 ^ b.sqLog2.toNat
def Mailbox.cqSize (b : Mailbox) : Nat := 2 ^ b.cqLog2.toNat

/-- Completions written and not yet released. cqTail and cqHead count on from RING_RESET; the registers show them
modulo the ring size (the model's own form, so that a full ring differs from an empty one). -/
def Mailbox.unreleased (b : Mailbox) : Nat := b.cqTail - b.cqHead

/-- A command is outstanding until its final completion is written (02 R69, R80). -/
def Mailbox.outstandingTags (b : Mailbox) : List U16 :=
  b.outstanding.map (fun o => o.sub.tag) ++ (b.held.filter fun c => c.final).map fun c => c.tag

/-- The bytes of a completion entry (02 Table 2.4). -/
def encodeCompletion (b : Mailbox) (epoch : U32) (c : Completion) : List Byte :=
  leBytes 2 c.tag.toNat ++ [c.reason, c.cls] ++
    leBytes 4 (b.sqHead % b.sqSize % 4096 + (if c.final then 2 ^ 30 else 0) + (if b.phase then 2 ^ 31 else 0)) ++
    leBytes 8 c.res0.toNat ++ leBytes 8 c.res1.toNat ++ leBytes 4 c.detail.toNat ++ leBytes 4 epoch.toNat

/-- Vector 0 after a completion has been written (02 R120). A TIME_US of 0 means no delay. -/
def countCompletion (now : Nat) (quiet : Bool) (b : Mailbox) : Mailbox :=
  if quiet then b
  else if b.unsignalled + 1 ≥ Nat.max b.count.toNat 1 ∨ b.timeUs = 0 then
    { b with unsignalled := 0, firstUnsignalled := none, vector0 := b.vector0 + 1 }
  else { b with unsignalled := b.unsignalled + 1, firstUnsignalled := some (b.firstUnsignalled.getD now) }

/-- Write one completion entry and advance TAIL (02 R67, R68). A failed write sets CQ_DMA and halts (02 R71).
The Bool says that the entry was written. -/
def putCompletion (s : State) (b : Mailbox) (c : Completion) : State × Mailbox × Bool :=
  if b.enable = false ∨ b.halted = true ∨ b.unreleased ≥ b.cqSize then (s, b, false)
  else
    match hostWrite s (b.cqBase.toNat + 32 * (b.cqTail % b.cqSize)) (encodeCompletion b s.lead.epoch c) with
    | none => (s, raiseErr errCqDma b, false)
    | some s' =>
      let tail := b.cqTail + 1
      (s', countCompletion s.now c.quiet
        { b with cqTail := tail, phase := if tail % b.cqSize = 0 then !b.phase else b.phase }, true)

/-- Write the held completions in the order in which they fell due (02 R71). -/
def flushHeld (s : State) (b : Mailbox) : List Completion → State × Mailbox
  | [] => (s, { b with held := [] })
  | c :: t =>
    match putCompletion s b c with
    | (s', b', true) => flushHeld s' b' t
    | (s', b', false) => (s', { b' with held := c :: t })

def flush (s : State) (fn : Nat) : State :=
  match findBox s fn with
  | none => s
  | some b =>
    let r := flushHeld s b b.held
    setBox r.1 fn fun _ => r.2

/-- A completion falls due; it is written at once unless the mailbox is halted or disabled (02 R71, R72). -/
def post (s : State) (fn : Nat) (c : Completion) : State :=
  flush (setBox s fn fun b => { b with held := b.held ++ [c] }) fn

/-- A status of 02 Table 2.5 with its results. -/
structure Status where
  cls : Byte
  reason : Byte
  res0 : Nat := 0
  res1 : Nat := 0
  detail : Nat := 0
  deriving DecidableEq, Repr

def stOk : Status := { cls := 0, reason := 0 }
def stOk0 (r0 : Nat) : Status := { cls := 0, reason := 0, res0 := r0 }
def stOk1 (r0 r1 : Nat) : Status := { cls := 0, reason := 0, res0 := r0, res1 := r1 }
def stNotReady : Status := { cls := 1, reason := 1 }
def stQuota (code : Nat) : Status := { cls := 2, reason := 1, detail := code }
def stCeiling (n : Nat) : Status := { cls := 2, reason := 2, detail := n }
def stPolicy : Status := { cls := 2, reason := 3 }
def stAuth : Status := { cls := 2, reason := 4 }
def stLockedOut (secs : Nat) : Status := { cls := 2, reason := 5, detail := secs }
def stNoSession : Status := { cls := 2, reason := 6 }
def stNotPermitted : Status := { cls := 2, reason := 7 }
def stBadOpcode : Status := { cls := 2, reason := 8 }
def stBadParam (off : Nat) : Status := { cls := 2, reason := 9, detail := off }
def stSessionLimit : Status := { cls := 2, reason := 10 }
def stVerifier (rule : Nat) : Status := { cls := 2, reason := 11, detail := rule }
def stNoMemory : Status := { cls := 3, reason := 1 }
def stTimeout : Status := { cls := 3, reason := 3 }
def stHwError (unit : Nat) : Status := { cls := 3, reason := 4, detail := unit }
def stInUse : Status := { cls := 3, reason := 5 }
def stMedia : Status := { cls := 3, reason := 6 }
def stFwFallback (version : Nat) : Status := { cls := 3, reason := 7, res0 := version }
def stInternal : Status := { cls := 3, reason := 8 }
def stCancelled : Status := { cls := 4, reason := 1 }
def stSessionClosed : Status := { cls := 4, reason := 2 }
def stTargetReset : Status := { cls := 4, reason := 3 }
def stStaleEpoch (e : Nat) : Status := { cls := 5, reason := 1, detail := e }
def stOvertaken : Status := { cls := 5, reason := 2 }

def Status.toCompletion (st : Status) (tag : U16) (final quiet : Bool) : Completion :=
  { tag := tag, cls := st.cls, reason := st.reason, final := final, res0 := BitVec.ofNat 64 st.res0,
    res1 := BitVec.ofNat 64 st.res1, detail := BitVec.ofNat 32 st.detail, quiet := quiet }

def findOut (s : State) (fn : Nat) (tag : U16) : Option Outstanding :=
  match findBox s fn with
  | none => none
  | some b => b.outstanding.find? fun o => o.sub.tag == tag

def Submission.quiet (u : Submission) : Bool := u.flags.getLsbD 0

def touchSession (s : State) (sess : U32) : State :=
  { s with sessions := mapIf (fun x => x.id == sess) (fun x => { x with lastActive := s.now }) s.sessions }

/-- The final completion of an outstanding command (02 R80); nothing when none is outstanding under the tag. -/
def complete (s : State) (fn : Nat) (tag : U16) (st : Status) : State :=
  match findOut s fn tag with
  | none => s
  | some o =>
    let s1 := setBox s fn fun b => { b with outstanding := b.outstanding.filter fun x => x.sub.tag != tag }
    touchSession (post s1 fn (st.toCompletion tag true o.sub.quiet)) o.sub.session

/-- The one interim completion a command may have, always DEFERRED (02 R80, R127). -/
def interim (s : State) (fn : Nat) (tag : U16) (reason : Byte) (detail : Nat) : State :=
  match findOut s fn tag with
  | none => s
  | some o =>
    if o.interim then s
    else
      let s1 := setBox s fn fun b => { b with outstanding := mapIf (fun x => x.sub.tag == tag) (fun x => { x with interim := true }) b.outstanding }
      post s1 fn ({ cls := 1, reason := reason, detail := detail : Status }.toCompletion tag false o.sub.quiet)

/-- Queue a notice: one of the same kind and argument is merged, and EPOCH (3) and STATE (4) notices are replaced by
the latest value (02 R118). -/
def notifyBox (kind arg : Nat) (b : Mailbox) : Mailbox :=
  let k : Byte := BitVec.ofNat 8 kind
  let n : Notice := { kind := k, arg := BitVec.ofNat 64 arg }
  if kind = 3 ∨ kind = 4 then
    if b.notices.any fun x => x.kind == k then { b with notices := mapIf (fun x => x.kind == k) (fun _ => n) b.notices }
    else { b with notices := b.notices ++ [n] }
  else if b.notices.contains n then b
  else { b with notices := b.notices ++ [n] }

def notify (s : State) (fn kind arg : Nat) : State := setBox s fn (notifyBox kind arg)

/-- A TELEMETRY_EVENT notice to PF0 with an engine fault code and a unit (02 Table 2.9). -/
def telemetryEvent (s : State) (code unit : Nat) : State := notify s 0 5 (code + 65536 * unit)

def ModState.code : ModState → Nat
  | .reset => 0
  | .upsett => 1
  | .ready => 2
  | .updating => 3
  | .recovery => 4
  | .down => 5

/-- A change of STATE sets STATE_CHANGED and queues a STATE notice in every function (02 R113, Table 2.9). -/
def setMState (s : State) (m : ModState) : State :=
  if s.mstate = m then s
  else { s with mstate := m, boxes := s.boxes.map fun b => notifyBox 4 m.code (raiseErr errStateChanged b) }

/-- A change of the epoch (02 R112). -/
def announceEpoch (s : State) : State :=
  { s with boxes := s.boxes.map fun b => notifyBox 3 s.lead.epoch.toNat (raiseErr errEpochChanged b) }

/-! ### Tenants and quotas (12 R605, R606) -/

def findTenant (s : State) (id : U32) : Tenant :=
  match s.tenants.find? fun t => t.id == id with
  | some t => t
  | none => { id := id }

def setTenant (s : State) (id : U32) (f : Tenant → Tenant) : State :=
  if s.tenants.any fun t => t.id == id then { s with tenants := mapIf (fun t => t.id == id) f s.tenants }
  else { s with tenants := s.tenants ++ [f { id := id }] }

def unlimited : Nat := 2 ^ 64 - 1

/-- The default limits of 12 Table 12.1; none for a reserved code. -/
def quotaDefault : Nat → Option Nat
  | 0x01 => some 16
  | 0x02 => some unlimited
  | 0x03 => some unlimited
  | 0x04 => some 0
  | 0x05 => some 0
  | 0x06 => some 0
  | 0x07 => some 4096
  | 0x08 => some 4
  | 0x09 => some 256
  | 0x0A => some 1024
  | 0x0B => some 256
  | 0x0C => some unlimited
  | 0x0D => some 8
  | 0x10 => some unlimited
  | 0x11 => some 1024
  | 0x12 => some unlimited
  | 0x13 => some 1024
  | _ => none

def quotaLimit (s : State) (tenant : U32) (code : Nat) : Nat :=
  match (findTenant s tenant).quotas.find? fun q => q.1 == code with
  | some q => q.2.toNat
  | none => (quotaDefault code).getD 0

def tenantContexts (s : State) (tenant : U32) : List Context := s.contexts.filter fun c => c.tenant == tenant

def sumNat (l : List Nat) : Nat := l.foldl (· + ·) 0

/-- HBM bytes held by a context (12 Table 12.1, code 0x03). -/
def hbmUse (c : Context) : Nat :=
  sumNat (c.allocs.map fun a => if isHbm a.backing then a.size else 0) + c.storeBytes

def basketUse (c : Context) (h : Half) : Nat :=
  sumNat (c.allocs.map fun a => if a.backing = (match h with | .west => Backing.basketWest | .east => .basketEast) then a.size else 0)

def hostUse (c : Context) : Nat := sumNat (c.allocs.map fun a => if a.backing = .host then a.size else 0)

/-- Width in bits of an element of a packed format (04 Table 4.1); 0 for TRI and MB8, which are packed in groups. -/
def fmtWidth : Nat → Nat
  | 0x0 => 32
  | 0x1 => 16
  | 0x2 => 16
  | 0x3 => 8
  | 0x4 => 8
  | 0x5 => 6
  | 0x6 => 6
  | 0x7 => 4
  | 0x8 => 4
  | 0x9 => 8
  | 0xA => 4
  | 0xB => 2
  | 0xD => 20
  | 0xF => 8
  | _ => 0

/-- Elements of a row of a table (09 R477). -/
def Table.elems (t : Table) : Nat := t.rowBytes * 8 / fmtWidth t.fmt

/-- Bytes of optimiser state of a row of e elements (09 R478, 08 Table 8.3). -/
def stateBytes (optimiser e : Nat) : Nat :=
  match optimiser with
  | 2 | 3 | 4 | 6 => 34 * e / 32
  | 5 => 34
  | 7 | 8 => 2 * (34 * e / 32)
  | _ => 0

/-- The record stride S (09 R478). -/
def Table.stride (t : Table) : Nat := alignUp (t.rowBytes + stateBytes t.optimiser t.elems) 32

/-- Units of a tiered table with the given stride and rows, the default row among them (10 R505). -/
def unitCount (stride rows : Nat) : Nat :=
  if stride ≤ 4096 then ceilDiv (rows + 1) (4096 / stride) else (rows + 1) * ceilDiv stride 4096

/-- Flash claimed by a table: its units of 4 KiB (10 R509). -/
def Table.flashBytes (t : Table) : Nat := if t.tier.isSome then 4096 * unitCount t.stride t.rows else 0

/-- Bytes of a log entry with its padding (10 R514). -/
def LogEntry.size (e : LogEntry) : Nat := alignUp (32 + 4 * e.grad.length) 32

def mib : Nat := 2 ^ 20
def kib : Nat := 1024
def gib : Nat := 2 ^ 30

/-- The use of a resource, in the units of 12 Table 12.1 rounded up (12 R607, R629): of the tenant, or for a
per-context resource of one context. tierBytes gives the flash claimed by a table. -/
def quotaUse (s : State) (tenant : U32) (code : Nat) (sess : Option U32) : Nat :=
  let cs := tenantContexts s tenant
  let own : List Context := match sess with
    | some x => cs.filter fun c => c.sess == x
    | none => cs
  match code with
  | 0x01 => (s.sessions.filter fun x => x.tenant == tenant).length
  | 0x02 => ceilDiv (sumNat (cs.map hbmUse)) mib
  | 0x03 => ceilDiv (sumNat (own.map hbmUse)) mib
  | 0x04 => ceilDiv (Nat.max (sumNat (own.map fun c => basketUse c .west)) (sumNat (own.map fun c => basketUse c .east))) kib
  | 0x05 => sumNat (own.map fun c => c.waysWest) + 2 ^ 32 * sumNat (own.map fun c => c.waysEast)
  | 0x06 => ceilDiv (sumNat (cs.map fun c => sumNat (c.tables.map Table.flashBytes))) (10 ^ 9)
  | 0x07 => ceilDiv (sumNat ((s.tier.log.filter fun e => own.any fun c => c.sess == e.sess).map LogEntry.size)) mib
  | 0x08 => sumNat (cs.map fun c => c.groups.length)
  | 0x09 => sumNat (cs.map fun c => c.streams.length)
  | 0x0A => sumNat (cs.map fun c => c.tables.length + c.graphs.length + c.coils.length)
  | 0x0B => (s.lists.filter fun l => l.ended.isNone && cs.any fun c => c.sess == l.sess).length
  | 0x0C => ceilDiv (sumNat (cs.map hostUse)) mib
  | 0x0D => (cs.filter fun c => c.slot.isSome).length
  | _ => 0

end Sys2Proof.Machine
end

