-- ==== Sys2Proof/Machine/Flags.lean ====
section
/-! DEFINITION. The number formats, their rounding, the arithmetic of FP32 and the sticky flags (chapter 04). A value
is an exact dyadic number, so that every result is rounded once, where the spec says. -/

namespace Sys2Proof.Machine

/-! ### Values and flags -/

/-- A decoded element: ±m·2^e, an infinity, or NaN. A zero keeps its sign (04 R190). -/
inductive Num where
  | nan
  | inf (neg : Bool)
  | fin (neg : Bool) (m : Nat) (e : Int)
  deriving DecidableEq, Repr

/-- The five sticky flags, in the order of 04 Table 4.12. -/
abbrev Fl := BitVec 5

def flOF : Fl := 1
def flUF : Fl := 2
def flNX : Fl := 4
def flNV : Fl := 8
def flNF : Fl := 16

def Num.zero : Num := .fin false 0 0

def Num.ofNat (n : Nat) : Num := .fin false n 0

def Num.ofInt (i : Int) : Num := .fin (decide (i < 0)) i.natAbs 0

def Num.isFin : Num → Bool
  | .fin _ _ _ => true
  | _ => false

def Num.neg : Num → Num
  | .nan => .nan
  | .inf b => .inf (!b)
  | .fin b m e => .fin (!b) m e

def Num.abs : Num → Num
  | .nan => .nan
  | .inf _ => .inf false
  | .fin _ m e => .fin false m e

def Num.isNeg : Num → Bool
  | .nan => false
  | .inf b => b
  | .fin b _ _ => b

def Num.isZero : Num → Bool
  | .fin _ 0 _ => true
  | _ => false

/-- NF_IN of an operand (04 Table 4.12). -/
def Num.nf (x : Num) : Fl := if x.isFin then 0 else flNF

/-- 2 to an integer power as a quotient of naturals. -/
def pow2Num (e : Int) : Nat := 2 ^ e.toNat
def pow2Den (e : Int) : Nat := 2 ^ (-e).toNat

/-- Strict order of values; NaN is below nothing. -/
def Num.lt (x y : Num) : Bool :=
  match x, y with
  | .nan, _ => false
  | _, .nan => false
  | .inf a, .inf b => a && !b
  | .inf a, .fin _ _ _ => a
  | .fin _ _ _, .inf b => !b
  | .fin a m e, .fin b n f =>
    let d := e - f
    let l := m * pow2Num d
    let r := n * pow2Den d
    let li : Int := if a then -(l : Int) else l
    let ri : Int := if b then -(r : Int) else r
    decide (li < ri)

def Num.same (x y : Num) : Bool :=
  match x, y with
  | .nan, _ => false
  | _, .nan => false
  | x, y => !x.lt y && !y.lt x

/-- The larger magnitude of two, as a running maximum keeps it (04 R210). -/
def Num.maxAbs (x y : Num) : Num := if x.abs.lt y.abs then y.abs else x.abs

/-! ### Exact arithmetic -/

/-- The exact product, with the flags of IEEE 754. -/
def Num.mul (x y : Num) : Num × Fl :=
  match x, y with
  | .nan, _ => (.nan, 0)
  | _, .nan => (.nan, 0)
  | .inf a, .inf b => (.inf (a ^^ b), 0)
  | .inf a, .fin b n _ => if n = 0 then (.nan, flNV) else (.inf (a ^^ b), 0)
  | .fin a m _, .inf b => if m = 0 then (.nan, flNV) else (.inf (a ^^ b), 0)
  | .fin a m e, .fin b n f => (.fin (a ^^ b) (m * n) (e + f), 0)

/-- The exact sum, with the flags of IEEE 754. An exact zero sum is +0 unless both are -0. -/
def Num.add (x y : Num) : Num × Fl :=
  match x, y with
  | .nan, _ => (.nan, 0)
  | _, .nan => (.nan, 0)
  | .inf a, .inf b => if a = b then (.inf a, 0) else (.nan, flNV)
  | .inf a, _ => (.inf a, 0)
  | _, .inf b => (.inf b, 0)
  | .fin a m e, .fin b n f =>
    let d := e - f
    let l := m * pow2Num d
    let r := n * pow2Den d
    let lo := if e ≤ f then e else f
    if a = b then (.fin a (l + r) lo, 0)
    else if l = r then (.fin false 0 lo, 0)
    else if r < l then (.fin a (l - r) lo, 0)
    else (.fin b (r - l) lo, 0)

/-- The integer square root of n < 4^k, by bits from the top. -/
def isqrtFrom : Nat → Nat → Nat → Nat
  | 0, r, _ => r
  | k + 1, r, n =>
    let r' := r + 2 ^ k
    if r' * r' ≤ n then isqrtFrom k r' n else isqrtFrom k r n

/-! ### The binary floats (04 Tables 4.1, 4.2) -/

/-- What the top codes of a float stand for: infinity and NaN, the one NaN of E4M3, or numbers. -/
inductive Specials where
  | ieee
  | e4m3
  | none
  deriving DecidableEq, Repr

structure FloatFmt where
  ebits : Nat
  fbits : Nat
  bias : Nat
  specials : Specials
  deriving DecidableEq, Repr

def floatFmt : Nat → Option FloatFmt
  | 0x0 => some ⟨8, 23, 127, .ieee⟩
  | 0x1 => some ⟨8, 7, 127, .ieee⟩
  | 0x2 => some ⟨5, 10, 15, .ieee⟩
  | 0x3 => some ⟨4, 3, 7, .e4m3⟩
  | 0x4 => some ⟨5, 2, 15, .ieee⟩
  | 0x5 => some ⟨3, 2, 3, .none⟩
  | 0x6 => some ⟨2, 3, 1, .none⟩
  | 0x7 => some ⟨2, 1, 1, .none⟩
  | 0xD => some ⟨8, 11, 127, .ieee⟩
  | _ => none

/-- The magnitude code of the largest finite value. -/
def FloatFmt.maxCode (f : FloatFmt) : Nat :=
  match f.specials with
  | .ieee => (2 ^ f.ebits - 1) * 2 ^ f.fbits - 1
  | .e4m3 => 2 ^ (f.ebits + f.fbits) - 2
  | .none => 2 ^ (f.ebits + f.fbits) - 1

def FloatFmt.signBit (f : FloatFmt) : Nat := 2 ^ (f.ebits + f.fbits)

def FloatFmt.infCode (f : FloatFmt) : Nat := (2 ^ f.ebits - 1) * 2 ^ f.fbits

/-- The canonical NaN (04 Table 4.2); +0 where the format has none. -/
def FloatFmt.nanCode (f : FloatFmt) : Nat :=
  match f.specials with
  | .ieee => f.infCode + 2 ^ (f.fbits - 1)
  | .e4m3 => 2 ^ (f.ebits + f.fbits) - 1
  | .none => 0

def FloatFmt.decode (f : FloatFmt) (code : Nat) : Num :=
  let neg := decide (code / f.signBit % 2 = 1)
  let mag := code % f.signBit
  let e := mag / 2 ^ f.fbits
  let fr := mag % 2 ^ f.fbits
  if mag ≤ f.maxCode then
    if e = 0 then .fin neg fr (1 - (f.bias : Int) - f.fbits)
    else .fin neg (2 ^ f.fbits + fr) ((e : Int) - f.bias - f.fbits)
  else
    match f.specials with
    | .ieee => if fr = 0 then .inf neg else .nan
    | _ => .nan

/-- The rounding modes of 04 R214. -/
inductive Round where
  | nearest
  | stochastic (r : Nat)
  | zero
  deriving DecidableEq, Repr

/-- Whether the rounding goes up, for a remainder rem of den above a lower neighbour with the given parity (04 R215). -/
def Round.up (md : Round) (rem den : Nat) (odd : Bool) : Bool :=
  match md with
  | .nearest => decide (den < 2 * rem) || (decide (2 * rem = den) && odd)
  | .zero => false
  | .stochastic r => decide (65536 ≤ rem * 65536 / den + r)

def Round.isZero : Round → Bool
  | .zero => true
  | _ => false

/-- A code written, the flags raised, and whether it counts in SAT_COUNT (04 R217). -/
structure Conv where
  code : Nat
  fl : Fl
  sat : Bool
  deriving DecidableEq, Repr

/-- Conversion of a value to a binary float (04 R213 steps 4 and 5, R215, R217, R218). -/
def FloatFmt.encode (f : FloatFmt) (md : Round) (sat : Bool) (y : Num) : Conv :=
  match y with
  | .nan =>
    match f.specials with
    | .none => ⟨0, flNV ||| flNF, false⟩
    | _ => ⟨f.nanCode, flNF, false⟩
  | .inf neg =>
    let s := if neg then f.signBit else 0
    match f.specials with
    | .ieee => ⟨s + f.infCode, flNF, false⟩
    | .e4m3 => if sat then ⟨f.nanCode, flNV ||| flNF, false⟩ else ⟨s + f.maxCode, flNV ||| flNF, false⟩
    | .none => ⟨s + f.maxCode, flNV ||| flNF, false⟩
  | .fin neg m e =>
    let s := if neg then f.signBit else 0
    if m = 0 then ⟨s, 0, false⟩
    else
      let k : Int := (Nat.log2 m : Int) + e
      let qmin : Int := 1 - (f.bias : Int) - f.fbits
      let q : Int := if k - f.fbits < qmin then qmin else k - f.fbits
      let den := 2 ^ (q - e).toNat
      let num := m * 2 ^ (e - q).toNat
      let lo := num / den
      let rem := num % den
      let n := if md.up rem den (decide (lo % 2 = 1)) then lo + 1 else lo
      let code := (q - qmin).toNat * 2 ^ f.fbits + n
      let inexact := decide (rem ≠ 0)
      if f.maxCode < code then
        if md.isZero then ⟨s + f.maxCode, flOF ||| flNX, true⟩
        else
          match f.specials with
          | .ieee => if sat then ⟨s + f.maxCode, flOF ||| flNX, true⟩ else ⟨s + f.infCode, flOF ||| flNX, true⟩
          | .e4m3 => if sat then ⟨f.nanCode, flOF ||| flNV, true⟩ else ⟨s + f.maxCode, flOF ||| flNX, true⟩
          | .none => ⟨s + f.maxCode, flOF ||| flNX, true⟩
      else
        ⟨s + code, (if inexact then flNX else 0) ||| (if inexact && decide (k < qmin + f.fbits) then flUF else 0), false⟩

/-! ### LG4, the integers, TRI and UE8M0 -/

/-- LG4 (04 Table 4.1). -/
def lg4Decode (code : Nat) : Num :=
  let c := code % 8
  let neg := decide (code / 8 % 2 = 1)
  if c = 0 then .fin neg 0 0 else .fin neg 1 ((c : Int) - 4)

def lg4Encode (md : Round) (y : Num) : Conv :=
  match y with
  | .nan => ⟨0, flNV ||| flNF, false⟩
  | .inf neg => ⟨(if neg then 15 else 7), flNV ||| flNF, false⟩
  | .fin neg m e =>
    let s := if neg then 8 else 0
    if m = 0 then ⟨s, 0, false⟩
    else
      let k : Int := (Nat.log2 m : Int) + e
      let small := decide (k < -3)
      let lo := if small then 0 else (k + 4).toNat
      let rem := if small then m else m - 2 ^ Nat.log2 m
      let den := if small then 2 ^ (-3 - e).toNat else 2 ^ Nat.log2 m
      let n := if md.up rem den (decide (lo % 2 = 1)) then lo + 1 else lo
      if 7 < n then ⟨s + 7, flOF ||| flNX, true⟩
      else ⟨s + n, (if rem ≠ 0 then flNX else 0) ||| (if small && decide (rem ≠ 0) then flUF else 0), false⟩

def intDecode (w code : Nat) : Num :=
  if 2 ^ (w - 1) ≤ code % 2 ^ w then .fin true (2 ^ w - code % 2 ^ w) 0 else .fin false (code % 2 ^ w) 0

/-- Integer targets with the given largest negative and positive magnitudes; the result is the integer (04 R217). -/
def intRound (md : Round) (maxNeg maxPos : Nat) (y : Num) : Int × Fl × Bool :=
  match y with
  | .nan => (0, flNV ||| flNF, false)
  | .inf neg => ((if neg then -(maxNeg : Int) else maxPos), flNV ||| flNF, false)
  | .fin neg m e =>
    let den := 2 ^ (-e).toNat
    let num := m * 2 ^ e.toNat
    let lo := num / den
    let rem := num % den
    let n := if md.up rem den (decide (lo % 2 = 1)) then lo + 1 else lo
    let bound := if neg then maxNeg else maxPos
    let v : Int := if bound < n then bound else n
    ((if neg then -v else v), (if bound < n then flOF ||| flNX else if rem ≠ 0 then flNX else 0), decide (bound < n))

def intCode (w : Nat) (i : Int) : Nat := (i % (2 ^ w : Nat)).toNat

def intEncode (w : Nat) (md : Round) (y : Num) : Conv :=
  let r := intRound md (2 ^ (w - 1)) (2 ^ (w - 1) - 1) y
  ⟨intCode w r.1, r.2.1, r.2.2⟩

/-- A trit is coded here as its value plus 1 (04 Table 4.1). -/
def triEncode (md : Round) (y : Num) : Conv :=
  let r := intRound md 1 1 y
  ⟨(r.1 + 1).toNat, r.2.1, r.2.2⟩

/-- The UE8M0 scale (04 R199, R200). -/
def ue8Decode (code : Nat) : Num := if code % 256 = 255 then .nan else .fin false 1 (((code % 256 : Nat) : Int) - 127)

/-! ### Elements by format code -/

/-- The value of one element (04 R188); TRI by trit code, MB8 not by element. -/
def decodeElem (fmt code : Nat) : Num :=
  match floatFmt fmt with
  | some f => f.decode code
  | none =>
    match fmt with
    | 0x8 => lg4Decode code
    | 0x9 => intDecode 8 code
    | 0xA => intDecode 4 code
    | 0xB => intDecode 2 code
    | 0xC => Num.ofInt ((code : Int) - 1)
    | 0xF => ue8Decode code
    | _ => .zero

/-- Conversion to one element of a format (04 R213 steps 4 and 5). UE8M0 is written only as a scale (04 R201). -/
def encodeElem (fmt : Nat) (md : Round) (sat : Bool) (y : Num) : Conv :=
  match floatFmt fmt with
  | some f => f.encode md sat y
  | none =>
    match fmt with
    | 0x8 => lg4Encode md y
    | 0x9 => intEncode 8 md y
    | 0xA => intEncode 4 md y
    | 0xB => intEncode 2 md y
    | 0xC => triEncode md y
    | _ => ⟨0, 0, false⟩

/-- Conversion of x with QMUL (04 R213): the product is exact, and an operand that is not finite sets NF_IN. -/
def convert (fmt : Nat) (md : Round) (sat : Bool) (qmul x : Num) : Conv :=
  let p := x.mul qmul
  let c := encodeElem fmt md sat p.1
  { c with fl := c.fl ||| p.2 ||| x.nf ||| qmul.nf }

/-! ### FP32 arithmetic (to nearest, ties to even) -/

def fmtFp32 : FloatFmt := ⟨8, 23, 127, .ieee⟩
def fmtFp20 : FloatFmt := ⟨8, 11, 127, .ieee⟩
def fmtBf16 : FloatFmt := ⟨8, 7, 127, .ieee⟩

def fp32 (x : U32) : Num := fmtFp32.decode x.toNat

def toFp32 (y : Num) : U32 × Fl :=
  let c := fmtFp32.encode .nearest false y
  (BitVec.ofNat 32 c.code, c.fl &&& ~~~flNF)

/-- An FP32 result with the operands' NF_IN. -/
def fpOf (p : Num × Fl) (nf : Fl) : U32 × Fl :=
  let r := toFp32 p.1
  (r.1, r.2 ||| p.2 ||| nf)

def fadd (a b : U32) : U32 × Fl := fpOf ((fp32 a).add (fp32 b)) ((fp32 a).nf ||| (fp32 b).nf)
def fsub (a b : U32) : U32 × Fl := fpOf ((fp32 a).add (fp32 b).neg) ((fp32 a).nf ||| (fp32 b).nf)
def fmul (a b : U32) : U32 × Fl := fpOf ((fp32 a).mul (fp32 b)) ((fp32 a).nf ||| (fp32 b).nf)

/-- Flags of an operation on intermediate results: only an operand or scale that the engine reads raises NF_IN (04 Table 4.12). -/
def arrayFl (f : Fl) : Fl := f &&& ~~~flNF

/-- A sum of intermediate results. -/
def midAdd (a b : U32) : U32 × Fl := let r := fadd a b; (r.1, arrayFl r.2)

/-- A quotient of naturals as a value whose last bit is sticky, exact enough for rounding to nearest. -/
def stickyQuot (neg : Bool) (num den : Nat) (e : Int) : Num :=
  let sh := 40 + Nat.log2 den
  let q := num * 2 ^ sh / den
  let r := num * 2 ^ sh % den
  .fin neg (2 * q + (if r = 0 then 0 else 1)) (e - sh - 1)

def fdiv (a b : U32) : U32 × Fl :=
  let x := fp32 a
  let y := fp32 b
  let nf := x.nf ||| y.nf
  match x, y with
  | .nan, _ => fpOf (.nan, 0) nf
  | _, .nan => fpOf (.nan, 0) nf
  | .inf _, .inf _ => fpOf (.nan, flNV) nf
  | .inf s, .fin t _ _ => fpOf (.inf (s ^^ t), 0) nf
  | .fin s _ _, .inf t => fpOf (.fin (s ^^ t) 0 0, 0) nf
  | .fin s m e, .fin t n f =>
    if n = 0 then (if m = 0 then fpOf (.nan, flNV) nf else fpOf (.inf (s ^^ t), 0) nf)
    else fpOf (stickyQuot (s ^^ t) m n (e - f), 0) nf

def fsqrt (a : U32) : U32 × Fl :=
  match fp32 a with
  | .nan => fpOf (.nan, 0) flNF
  | .inf neg => if neg then fpOf (.nan, flNV) flNF else fpOf (.inf false, 0) flNF
  | .fin neg m e =>
    if m = 0 then (a, 0)
    else if neg then fpOf (.nan, flNV) 0
    else
      let odd := decide (e % 2 ≠ 0)
      let m2 := (if odd then 2 * m else m) * 2 ^ 60
      let e2 := ((if odd then e - 1 else e) - 60) / 2
      let r := isqrtFrom 45 0 m2
      fpOf (.fin false (2 * r + (if r * r = m2 then 0 else 1)) (e2 - 1), 0) 0

/-- FP32 of a natural number, to nearest (fl32 of 04). -/
def fofNat (n : Nat) : U32 := (toFp32 (Num.ofNat n)).1

def fofInt (i : Int) : U32 × Fl := toFp32 (Num.ofInt i)

def fneg (a : U32) : U32 := a ^^^ 0x80000000

/-- Sum in list order from an initial value, gathering flags. -/
def fsumFrom (a : U32) (l : List U32) : U32 × Fl :=
  l.foldl (fun acc x => let r := midAdd acc.1 x; (r.1, acc.2 ||| r.2)) (a, 0)

/-- FP32 to FP20 (04 R194), as the 32-bit word with the low twelve fraction bits zero. -/
def toFp20 (y : Num) : U32 × Fl :=
  let c := fmtFp20.encode .nearest false y
  (BitVec.ofNat 32 (c.code * 4096), c.fl &&& ~~~flNF)

/-! ### MB8 (04 R195-R197) -/

/-- The decoded value of code k (04 Table 4.5), and NV for the invalid code. -/
def mb8Decode (scale code : Nat) : U32 × Fl :=
  let s := fmtBf16.decode scale
  if s.isFin = false then (0x7FC00000, flNF)
  else
    let a := (toFp32 s.abs).1
    if decide (scale / 32768 % 2 = 1) then
      let q := (fpOf (stickyQuot false (code * code) 65025 0, 0) 0).1
      ((fmul a q).1, 0)
    else if code = 128 then (0x7FC00000, flNV)
    else
      let neg := decide (128 < code)
      let k := if neg then 256 - code else code
      let l := (fpOf (stickyQuot neg k 127 0, 0) 0).1
      ((fmul a l).1, 0)

/-- The smallest BF16 value not less than x, clipped to the largest finite one with OF (04 R195). -/
def mb8Scale (x : Num) : Nat × Fl :=
  let c := fmtBf16.encode .zero false x
  if (fmtBf16.decode c.code).lt x then
    if c.code = fmtBf16.maxCode then (c.code, flOF) else (c.code + 1, 0)
  else (c.code, 0)

/-- |x| ÷ |s| as a quotient of naturals, for finite values and s not zero. -/
def ratio (x s : Num) : Nat × Nat :=
  match x, s with
  | .fin _ m e, .fin _ n f => (m * pow2Num (e - f), n * pow2Den (e - f))
  | _, _ => (0, 1)

/-- One code: the magnitude below, and whether rounding goes up, capped at the largest code. -/
def mb8Code (sqrtMode : Bool) (md : Round) (s x : Num) : Nat × Fl :=
  if sqrtMode && x.isNeg && !x.isZero then (0, flNV)
  else
    let r := ratio x s
    let k := if sqrtMode then isqrtFrom 9 0 (r.1 * 65025 / r.2) else r.1 * 127 / r.2
    let top := if sqrtMode then 255 else 127
    let lo := if top < k then top else k
    let rem := if sqrtMode then r.1 * 65025 - lo * lo * r.2 else r.1 * 127 - lo * r.2
    let den := if sqrtMode then (2 * lo + 1) * r.2 else r.2
    let n := if lo < top && md.up rem den (decide (lo % 2 = 1)) then lo + 1 else lo
    ((if !sqrtMode && x.isNeg then (256 - n) % 256 else n), (if rem = 0 then 0 else flNX))

/-- The 34 bytes of a block of 32 elements; modes gives each element's rounding (04 R195, R196). -/
def mb8Encode (sqrtMode : Bool) (xs : List (Num × Round)) : List Byte × Fl :=
  let sign := if sqrtMode then 0x8000 else 0
  if xs.any fun x => !x.1.isFin then
    (List.replicate 32 0 ++ leBytes 2 (sign + 0x7FC0), flNV)
  else
    let mx := xs.foldl (fun a x => a.maxAbs x.1) Num.zero
    if mx.isZero then (List.replicate 32 0 ++ leBytes 2 sign, 0)
    else
      let sc := mb8Scale mx
      let s := fmtBf16.decode sc.1
      let cs := xs.map fun x => mb8Code sqrtMode x.2 s x.1
      (cs.map (fun c => BitVec.ofNat 8 c.1) ++ leBytes 2 (sign + sc.1), cs.foldl (fun a c => a ||| c.2) sc.2)

/-! ### Packing along dimension 0 (04 R192) -/

/-- Element i of a little-endian bit string of width w. -/
def bitElem (w : Nat) (n i : Nat) : Nat := (n >>> (w * i)) % 2 ^ w

/-- Trit codes of a TRI byte; an invalid byte decodes as five zeros with NV (04 R191). -/
def triByte (b : Byte) : List Nat × Fl :=
  let v := b.toNat
  if 243 ≤ v then ([1, 1, 1, 1, 1], flNV)
  else ([v % 3, v / 3 % 3, v / 9 % 3, v / 27 % 3, v / 81], 0)

/-- Bytes of n packed elements of a format; n meets the condition of 04 Table 4.4. -/
def packedBytes (fmt n : Nat) : Nat :=
  match fmt with
  | 0xC => n / 32 * 7
  | 0xE => n / 32 * 34
  | _ => n * fmtWidth fmt / 8

/-- Decode 7-byte TRI groups, k of them. -/
def triGroups : Nat → List Byte → List Num × Fl
  | 0, _ => ([], 0)
  | k + 1, bs =>
    let ts := (bs.take 7).map triByte
    let codes := ((ts.map Prod.fst).flatten).take 32
    let rest := triGroups k (bs.drop 7)
    (codes.map (decodeElem 0xC) ++ rest.1, ts.foldl (fun a t => a ||| t.2) rest.2)

/-- Decode 34-byte MB8 blocks, k of them. -/
def mb8Blocks : Nat → List Byte → List Num × Fl
  | 0, _ => ([], 0)
  | k + 1, bs =>
    let s := leNat ((bs.drop 32).take 2)
    let ds := (bs.take 32).map fun c => mb8Decode s c.toNat
    let rest := mb8Blocks k (bs.drop 34)
    (ds.map (fun d => fp32 d.1) ++ rest.1, ds.foldl (fun a d => a ||| d.2) rest.2)

/-- The values of n packed elements, with the flags of reading them. -/
def unpack (fmt n : Nat) (bs : List Byte) : List Num × Fl :=
  match fmt with
  | 0xC => triGroups (n / 32) bs
  | 0xE => mb8Blocks (n / 32) bs
  | _ =>
    let v := leNat bs
    let w := fmtWidth fmt
    let xs := (List.range n).map fun i => decodeElem fmt (bitElem w v i)
    (xs, xs.foldl (fun a x => a ||| x.nf) 0)

/-- A little-endian bit string of codes of width w, in whole bytes. -/
def packBits (w : Nat) (codes : List Nat) : List Byte :=
  leBytes ((w * codes.length + 7) / 8) (codes.foldr (fun c acc => c % 2 ^ w + acc * 2 ^ w) 0)

/-- One TRI group of 32 trit codes; the padding trits have value 0 (04 R193). -/
def triPack : Nat → List Nat → List Byte
  | 0, _ => []
  | k + 1, codes =>
    let g := codes.take 32 ++ [1, 1, 1]
    let byteAt := fun j => nthD 1 g (5 * j) + 3 * nthD 1 g (5 * j + 1) + 9 * nthD 1 g (5 * j + 2) +
      27 * nthD 1 g (5 * j + 3) + 81 * nthD 1 g (5 * j + 4)
    (List.range 7).map (fun j => BitVec.ofNat 8 (byteAt j)) ++ triPack k (codes.drop 32)

/-- Packed bytes of codes of a format other than MB8. -/
def packCodes (fmt : Nat) (codes : List Nat) : List Byte :=
  if fmt = 0xC then triPack (codes.length / 32) codes else packBits (fmtWidth fmt) codes

/-! ### MX blocks (04 R198-R201) -/

/-- Formats of an MX stream (04 R198). -/
def mxFormat (fmt : Nat) : Bool := fmt == 3 || fmt == 4 || fmt == 5 || fmt == 6 || fmt == 7 || fmt == 9

/-- emax of 04 Table 4.6. -/
def mxEmax : Nat → Int
  | 3 => 8
  | 4 => 15
  | 5 => 4
  | 6 => 2
  | 7 => 2
  | _ => 0

/-- The value of an element of an MX stream (04 R199, R200). -/
def mxValue (fmt scale : Nat) (v : Num) : Num × Fl :=
  match ue8Decode scale with
  | .fin _ _ e =>
    match v with
    | .fin b m f => (.fin b m (f + e - (if fmt = 9 then 6 else 0)), 0)
    | x => (x, 0)
  | _ => (.nan, flNF)

/-- One written MX block: the scale byte, the codes, the flags and how many saturated (04 R201). ys are x × QMUL. -/
def mxEncode (fmt : Nat) (ys : List (Num × Round)) : Nat × List Nat × Fl × Nat :=
  if ys.any fun y => !y.1.isFin then
    (255, ys.map (fun _ => match floatFmt fmt with | some f => f.nanCode | none => 0), flNV ||| flNF, 0)
  else
    let m := ys.foldl (fun a y => a.maxAbs y.1) Num.zero
    let e : Int :=
      match m with
      | .fin _ 0 _ => 0
      | .fin _ k x =>
        let l := (Nat.log2 k : Int) + x - mxEmax fmt
        if l < -127 then -127 else if 127 < l then 127 else l
      | _ => 0
    let cs := ys.map fun y =>
      match y.1 with
      | .fin b k x =>
        let f := floatFmt fmt
        let c := encodeElem fmt y.2 (decide (f.isSome ∧ fmt ≠ 3)) (.fin b k (x - e + (if fmt = 9 then 6 else 0)))
        c
      | _ => ⟨0, 0, false⟩
    ((e + 127).toNat, cs.map fun c => c.code, cs.foldl (fun a c => a ||| c.fl) 0, (cs.filter fun c => c.sat).length)

/-! ### Sticky flags (04 R225-R228) -/

/-- The engine numbers of 02 READ_FLAGS. -/
def engWeave : Nat := 0
def engSplints : Nat := 1
def engSampler : Nat := 2
def engRim : Nat := 3
def engFabric : Nat := 4
def engTier : Nat := 5

/-- Set flags of an engine for a context. -/
def setFlags (s : State) (sess : U32) (engine : Nat) (f : Fl) : State :=
  setCtx s sess fun c => { c with flags := c.flags ||| BitVec.ofNat 30 (f.toNat * 2 ^ (5 * engine)) }

/-! ### CRC-8 and CRC-32 -/

/-- One bit of a CRC-8 with polynomial 0x07 (04 R223). -/
def crc8Bits : Nat → Nat → Nat
  | 0, c => c
  | n + 1, c => crc8Bits n (if 128 ≤ c then (2 * c ^^^ 7) % 256 else 2 * c)

def crc8 (bs : List Byte) : Nat := bs.foldl (fun c b => crc8Bits 8 (c ^^^ b.toNat)) 0

/-- One bit of the reflected CRC-32 of IEEE 802.3. -/
def crc32Bits : Nat → Nat → Nat
  | 0, c => c
  | n + 1, c => crc32Bits n (if c % 2 = 1 then (c / 2) ^^^ 0xEDB88320 else c / 2)

def crc32 (bs : List Byte) : Nat :=
  (bs.foldl (fun c b => crc32Bits 8 (c ^^^ b.toNat)) 0xFFFFFFFF) ^^^ 0xFFFFFFFF

end Sys2Proof.Machine
end

