-- ==== Sys2Proof/Machine/Operands.lean ====
section
/-! DEFINITION. The operand forms of engine commands: fields of the command word, stream descriptors, and the elements
they address (chapter 03). -/

namespace Sys2Proof.Machine

/-- Bits [hi:lo] of the field at a byte offset of a command word or descriptor (03 R133). -/
def fld (w : BitVec 512) (off hi lo : Nat) : Nat := bits (w.toNat >>> (8 * off)) hi lo

def wordOf (bs : List Byte) : BitVec 512 := BitVec.ofNat 512 (leNat bs)

/-! ### The common header (03 Table 3.3) -/

def cmdOpcode (w : BitVec 512) : Nat := fld w 0 7 0
def cmdAfter (w : BitVec 512) : Bool := fld w 1 0 0 == 1
def cmdChain (w : BitVec 512) : Bool := fld w 1 1 1 == 1
def cmdHalves (w : BitVec 512) : Nat := fld w 2 1 0

/-- The signal of a command: semaphore and increment (03 Table 3.3). -/
def cmdSignal (w : BitVec 512) : Option (Nat × Nat) :=
  if fld w 6 7 7 = 1 then some (fld w 6 5 0, if fld w 7 7 0 = 0 then 1 else fld w 7 7 0) else none

/-- The enabled wait conditions of the header, and for SY_WAIT those of its payload: semaphore and target (03 R157). -/
def cmdWaits (w : BitVec 512) : List (Nat × Nat) :=
  let one := fun off toff => if fld w off 7 7 = 1 then [(fld w off 5 0, fld w toff 31 0)] else []
  one 4 8 ++ one 5 12 ++
    (if cmdOpcode w = 1 then one 0x10 0x14 ++ one 0x11 0x18 ++ one 0x12 0x1C ++ one 0x13 0x20 else [])

/-- sem ≥ target, modulo 2^32 (03 R151). -/
def semReached (value target : Nat) : Bool := decide ((value + 2 ^ 32 - target) % 2 ^ 32 < 2 ^ 31)

/-- SIG_EVERY of a command (03 Table 3.4); 0 for the commands that have none. -/
def cmdSigEvery (w : BitVec 512) : Nat :=
  match cmdOpcode w with
  | 0x10 | 0x11 | 0x20 | 0x22 | 0x40 | 0x51 => fld w 0x38 15 0
  | 0x21 => fld w 0x38 47 32
  | _ => 0

/-- Semaphore numbers above 47 break 03 R135, in an enabled field or not. -/
def semsOk (w : BitVec 512) : Bool :=
  let ok := fun off => fld w off 7 7 == 0 || decide (fld w off 5 0 < 48)
  ok 4 && ok 5 && ok 6 &&
    (if cmdOpcode w = 1 then ok 0x10 && ok 0x11 && ok 0x12 && ok 0x13 else true) &&
    (if cmdOpcode w = 2 then decide (fld w 0x10 5 0 < 48) else true)

/-- The engine of an opcode (03 Table 3.4, 01 Table 1.3); 6 for the synchronisation commands of every queue. -/
def opcodeEngine : Nat → Option Nat
  | 0x01 | 0x02 | 0x03 => some 6
  | 0x10 | 0x11 => some 0
  | 0x20 | 0x21 | 0x22 => some 1
  | 0x30 => some 2
  | 0x40 | 0x41 | 0x42 | 0x43 | 0x44 => some 3
  | 0x50 | 0x51 => some 4
  | 0x60 | 0x61 => some 5
  | _ => none

/-! ### Stream descriptors (03 Table 3.7) -/

structure Desc where
  base : Nat
  fmt : Nat
  ndim : Nat
  mx : Bool
  prefetch : Nat
  counts : List Nat
  strides : List Int
  tile0 : Nat
  tile1 : Nat
  scaleBase : Nat
  deriving DecidableEq, Repr

/-- A signed field of 40 bits. -/
def signed40 (n : Nat) : Int := if 2 ^ 39 ≤ n then (n : Int) - 2 ^ 40 else n

/-- Counts at or beyond NDIM are taken as 1 and their strides as 0 (03 R170, 04 R199); TILE1 of a stream of one
dimension as 1. -/
def decodeDesc (w : BitVec 512) : Desc :=
  let nd := fld w 0 54 52
  let dim := fun k (v : Nat) => if k < nd then v else 1
  let str := fun k (v : Int) => if k < nd then v else 0
  { base := fld w 0 47 0, fmt := fld w 0 51 48, ndim := nd, mx := fld w 0 55 55 == 1, prefetch := fld w 0 59 56,
    counts := [dim 0 (fld w 8 23 0), dim 1 (fld w 0x0B 23 0), dim 2 (fld w 0x0E 23 0), dim 3 (fld w 0x11 23 0), dim 4 (fld w 0x14 23 0)],
    strides := [signed40 (fld w 0x18 39 0), str 1 (signed40 (fld w 0x1D 39 0)), str 2 (signed40 (fld w 0x22 39 0)),
      str 3 (signed40 (fld w 0x27 39 0)), str 4 (signed40 (fld w 0x2C 39 0))],
    tile0 := fld w 0x31 7 0 + 1, tile1 := if nd < 2 then 1 else fld w 0x32 7 0 + 1, scaleBase := fld w 0x34 47 0 }

def Desc.count (d : Desc) (k : Nat) : Nat := nthD 1 d.counts k
def Desc.stride (d : Desc) (k : Nat) : Int := nthD 0 d.strides k

/-- Formats that must be packed along dimension 0 (03 R170). -/
def mustPack (fmt : Nat) : Bool := fmt == 0xC || fmt == 0xD || fmt == 0xE || decide (fmtWidth fmt < 8)

/-- The COUNT0 condition of 04 Table 4.4. -/
def count0Ok (fmt n : Nat) : Bool :=
  if fmt = 0xC ∨ fmt = 0xE then n % 32 == 0
  else if mustPack fmt then n * fmtWidth fmt % 8 == 0 else true

/-- The rules of "Stream descriptors" (03 R173, 04 R198). -/
def Desc.ok (d : Desc) : Bool :=
  decide (1 ≤ d.ndim ∧ d.ndim ≤ 5) && decide (d.prefetch ≤ 8) && (d.stride 0 == 0 || !mustPack d.fmt) &&
    count0Ok d.fmt (d.count 0) && (!d.mx || (d.scaleBase != 0 && mxFormat d.fmt))

/-- An empty stream (03 R172). -/
def Desc.empty (d : Desc) : Bool := d.counts.contains 0

/-- Number of elements. -/
def Desc.size (d : Desc) : Nat := d.counts.foldl (· * ·) 1

/-- The outer indices (i1, i2, i3, i4) of the rows, dimension 1 fastest (03 R171). -/
def Desc.rows (d : Desc) : List (List Nat) :=
  (List.range (d.count 4)).flatMap fun i4 => (List.range (d.count 3)).flatMap fun i3 =>
    (List.range (d.count 2)).flatMap fun i2 => (List.range (d.count 1)).map fun i1 => [i1, i2, i3, i4]

/-- The tiles in visiting order: first indices along dimensions 0 and 1, and the outer indices (03 R171). -/
def Desc.tiles (d : Desc) : List (Nat × Nat × List Nat) :=
  (List.range (d.count 4)).flatMap fun i4 => (List.range (d.count 3)).flatMap fun i3 =>
    (List.range (d.count 2)).flatMap fun i2 =>
      (List.range (ceilDiv (d.count 1) d.tile1)).flatMap fun t1 =>
        (List.range (ceilDiv (d.count 0) d.tile0)).map fun t0 => (t0 * d.tile0, t1 * d.tile1, [i2, i3, i4])

def Desc.tileCount (d : Desc) : Nat :=
  ceilDiv (d.count 0) d.tile0 * ceilDiv (d.count 1) d.tile1 * d.count 2 * d.count 3 * d.count 4

/-- The elements of a tile within the counts, dimension 0 fastest (03 R171): i0 and the outer indices. -/
def Desc.tileElems (d : Desc) (t : Nat × Nat × List Nat) : List (Nat × List Nat) :=
  (List.range d.tile1).flatMap fun j =>
    if t.2.1 + j < d.count 1 then
      (List.range d.tile0).filterMap fun i => if t.1 + i < d.count 0 then some (t.1 + i, (t.2.1 + j) :: t.2.2) else none
    else []

/-- All elements in visiting order. -/
def Desc.elems (d : Desc) : List (Nat × List Nat) := d.tiles.flatMap d.tileElems

/-- A byte address computed with signed strides; a negative one names no memory. -/
def toAddr (i : Int) : Nat := if i < 0 then 2 ^ 63 else i.toNat

/-- Address of a row (03 R170). -/
def Desc.rowBase (d : Desc) (idx : List Nat) : Int :=
  (d.base : Int) + nthD 0 idx 0 * d.stride 1 + nthD 0 idx 1 * d.stride 2 + nthD 0 idx 2 * d.stride 3 + nthD 0 idx 3 * d.stride 4

/-- Address of the scale byte of an element (04 R199). -/
def Desc.scaleAddr (d : Desc) (i0 : Nat) (idx : List Nat) : Nat :=
  let r0 := ceilDiv (d.count 0) 32
  d.scaleBase + i0 / 32 + r0 * (nthD 0 idx 0 + d.count 1 * (nthD 0 idx 1 + d.count 2 * (nthD 0 idx 2 + d.count 3 * nthD 0 idx 3)))

/-- The first byte of an element, the bytes that hold it and the bit in them at which it starts. -/
def Desc.place (d : Desc) (i0 : Nat) (idx : List Nat) : Nat × Nat × Nat :=
  let rb := d.rowBase idx
  let w := fmtWidth d.fmt
  if d.stride 0 = 0 then (toAddr (rb + (w * i0 / 8 : Nat)), (w * i0 % 8 + w + 7) / 8, w * i0 % 8)
  else (toAddr (rb + i0 * d.stride 0), w / 8, 0)

/-- The code of an element, as stored (TRI by trit code, MB8 by code). -/
def readCode (s : State) (c : Context) (acc : Access) (d : Desc) (i0 : Nat) (idx : List Nat) : Except MemErr (Nat × Fl) :=
  match d.fmt with
  | 0xC =>
    match readByte s c acc (toAddr (d.rowBase idx + (i0 / 32 * 7 + i0 % 32 / 5 : Nat))) with
    | .error e => .error e
    | .ok b => let t := triByte b; .ok (nthD 1 t.1 (i0 % 32 % 5), t.2)
  | 0xE =>
    match readByte s c acc (toAddr (d.rowBase idx + (i0 / 32 * 34 + i0 % 32 : Nat))) with
    | .error e => .error e
    | .ok b => .ok (b.toNat, 0)
  | _ =>
    let p := d.place i0 idx
    match readVa s c acc p.1 p.2.1 with
    | .error e => .error e
    | .ok bs => .ok ((leNat bs >>> p.2.2) % 2 ^ fmtWidth d.fmt, 0)

/-- The value of an element with the flags of reading it (04 R188-R200). -/
def readElem (s : State) (c : Context) (acc : Access) (d : Desc) (i0 : Nat) (idx : List Nat) : Except MemErr (Num × Fl) := do
  let k ← readCode s c acc d i0 idx
  if d.fmt = 0xE then
    let sc ← readVa s c acc (toAddr (d.rowBase idx + (i0 / 32 * 34 + 32 : Nat))) 2
    let v := mb8Decode (leNat sc) k.1
    pure (fp32 v.1, v.2)
  else
    let v := decodeElem d.fmt k.1
    if d.mx then
      let x ← readByte s c acc (d.scaleAddr i0 idx)
      let m := mxValue d.fmt x.toNat v
      pure (m.1, m.2 ||| v.nf ||| k.2)
    else pure (v, v.nf ||| k.2)

/-- An element at indices that may lie outside the counts, where it reads as zero (03 R171). -/
def readElemAt (s : State) (c : Context) (d : Desc) (i0 : Nat) (idx : List Nat) : Except MemErr (Num × Fl) :=
  if i0 < d.count 0 ∧ nthD 0 idx 0 < d.count 1 then readElem s c .rd d i0 idx else .ok (Num.zero, 0)

/-- Read elements in order, gathering the flags. -/
def readElems (s : State) (c : Context) (d : Desc) : List (Nat × List Nat) → Except MemErr (List Num × Fl)
  | [] => .ok ([], 0)
  | e :: t =>
    match readElem s c .rd d e.1 e.2 with
    | .error x => .error x
    | .ok v =>
      match readElems s c d t with
      | .error x => .error x
      | .ok r => .ok (v.1 :: r.1, v.2 ||| r.2)

/-- Write the stored code of one element; neighbouring elements of the same bytes stay. -/
def writeCode (s : State) (c : Context) (acc : Access) (d : Desc) (i0 : Nat) (idx : List Nat) (code : Nat) : Except MemErr State :=
  match d.fmt with
  | 0xC => do
    let a := toAddr (d.rowBase idx + (i0 / 32 * 7 + i0 % 32 / 5 : Nat))
    let b ← readByte s c .inner a
    let ts := (triByte b).1
    let ts' := if i0 % 32 / 5 = 6 ∧ i0 % 32 % 5 = 0 then [1, 1, 1, 1, 1] else ts
    let u := modifyAt (fun _ => code % 3) (i0 % 32 % 5) ts'
    writeVa s c acc a [BitVec.ofNat 8 (u.foldr (fun x y => x + 3 * y) 0)]
  | _ => do
    let p := d.place i0 idx
    let w := fmtWidth d.fmt
    if p.2.2 = 0 ∧ w % 8 = 0 then writeVa s c acc p.1 (leBytes p.2.1 code)
    else
      let bs ← readVa s c .inner p.1 p.2.1
      let v := leNat bs
      let old := (v >>> p.2.2) % 2 ^ w
      writeVa s c acc p.1 (leBytes p.2.1 (v - old * 2 ^ p.2.2 + (code % 2 ^ w) * 2 ^ p.2.2))

/-- What a store adds up: the state, the flags raised and the elements counted in SAT_COUNT. -/
structure Stored where
  st : State
  fl : Fl
  sat : Nat

/-- Store a run of values along dimension 0 from index i0, converted to the stream's format (04 R213, R195, R201).
Each value comes with its rounding. In MB8 and MX streams i0 is a multiple of 32. sat is the SAT field. -/
def storeRun (s : State) (c : Context) (acc : Access) (d : Desc) (sat : Bool) (qmul : Num) (idx : List Nat) :
    Nat → Nat → List (Num × Round) → Except MemErr Stored
  | 0, _, _ => .ok ⟨s, 0, 0⟩
  | fuel + 1, i0, vs =>
    if vs = [] then .ok ⟨s, 0, 0⟩
    else if d.fmt = 0xE then do
      let blk := vs.take 32
      let ys := blk.map fun v => ((v.1.mul qmul).1, v.2)
      let b := mb8Encode sat ys
      let s1 ← writeVa s c acc (toAddr (d.rowBase idx + (i0 / 32 * 34 : Nat))) b.1
      let r ← storeRun s1 c acc d sat qmul idx fuel (i0 + 32) (vs.drop 32)
      pure ⟨r.st, r.fl ||| b.2, r.sat⟩
    else if d.mx then do
      let blk := vs.take 32
      let ys := blk.map fun v => ((v.1.mul qmul).1, v.2)
      let m := mxEncode d.fmt ys
      let nf : Fl := blk.foldl (fun a v => a ||| v.1.nf) 0
      let s1 ← writeVa s c acc (d.scaleAddr i0 idx) [BitVec.ofNat 8 m.1]
      let s2 ← (List.range blk.length).foldlM (fun st k => writeCode st c acc d (i0 + k) idx (nthD 0 m.2.1 k)) s1
      let r ← storeRun s2 c acc d sat qmul idx fuel (i0 + 32) (vs.drop 32)
      pure ⟨r.st, r.fl ||| m.2.2.1 ||| nf, r.sat + m.2.2.2⟩
    else
      match vs with
      | [] => .ok ⟨s, 0, 0⟩
      | v :: t => do
        let k := convert d.fmt v.2 sat qmul v.1
        let s1 ← writeCode s c acc d i0 idx k.code
        let r ← storeRun s1 c acc d sat qmul idx fuel (i0 + 1) t
        pure ⟨r.st, r.fl ||| k.fl, r.sat + (if k.sat then 1 else 0)⟩

/-- The values of one row of a stream. -/
def readRow (s : State) (c : Context) (d : Desc) (idx : List Nat) : Except MemErr (List Num × Fl) :=
  readElems s c d ((List.range (d.count 0)).map fun i => (i, idx))

/-- Whether every byte of a stream translates for an access; the address that does not. -/
def footprintOk (s : State) (c : Context) (acc : Access) (d : Desc) : Option Nat :=
  d.elems.findSome? fun e => let p := d.place e.1 e.2; spanOk s c acc p.1 p.2.1

/-! ### The bytes of a stream (03 R171, R173; 11 R579) -/

/-- The addresses that hold an element: in MB8 the last element of a block brings the block's scale, in TRI a byte holds five
elements. -/
def Desc.byteAddrs (d : Desc) (i0 : Nat) (idx : List Nat) : List Nat :=
  match d.fmt with
  | 0xC => [toAddr (d.rowBase idx + (i0 / 32 * 7 + i0 % 32 / 5 : Nat))]
  | 0xE =>
    let b := d.rowBase idx + (i0 / 32 * 34 : Nat)
    toAddr (b + (i0 % 32 : Nat)) :: (if i0 % 32 = 31 then [toAddr (b + 32), toAddr (b + 33)] else [])
  | _ => let p := d.place i0 idx; (List.range p.2.1).map fun k => p.1 + k

/-- The footprint in visiting order, each byte once; MX scales follow the elements. -/
def Desc.footprint (d : Desc) : List Nat :=
  let es := d.elems
  (es.flatMap (fun e => d.byteAddrs e.1 e.2) ++ (if d.mx then es.map fun e => d.scaleAddr e.1 e.2 else [])).eraseDups

/-- Read bytes at addresses in order. -/
def readBytesAt (s : State) (c : Context) (acc : Access) : List Nat → Except MemErr (List Byte)
  | [] => .ok []
  | a :: t =>
    match readByte s c acc a with
    | .error e => .error e
    | .ok b => (readBytesAt s c acc t).map fun r => b :: r

/-- Runs of consecutive addresses. -/
def runsOf : List Nat → List (Nat × Nat)
  | [] => []
  | a :: t =>
    match runsOf t with
    | [] => [(a, 1)]
    | (b, n) :: r => if a + 1 = b then (a, n + 1) :: r else (a, 1) :: (b, n) :: r

/-- Count the HBM reads or writes of a set of bytes (09 Table 9.4). -/
def tallyRuns (s : State) (sess : U32) (i : Nat) (as : List Nat) : State :=
  (runsOf as).foldl (fun st p => tally st sess i p.1 p.2) s

/-- The same for a list of elements of a stream. -/
def tallyElems (s : State) (sess : U32) (i : Nat) (d : Desc) (es : List (Nat × List Nat)) : State :=
  let as := es.flatMap (fun e => d.byteAddrs e.1 e.2) ++ (if d.mx then es.map fun e => d.scaleAddr e.1 e.2 else [])
  tallyRuns s sess i as.eraseDups

/-- Store values at elements of a stream, converted to its format: MB8 and MX blocks whole, other elements one by one (04
R195, R201, R213). -/
def storeElems (s : State) (c : Context) (acc : Access) (d : Desc) (sat : Bool) (qmul : Num) (xs : List ((Nat × List Nat) × (Num × Round))) :
    Except MemErr Stored :=
  if d.fmt = 0xE ∨ d.mx = true then
    let keys := (xs.map fun x => (x.1.1 / 32, x.1.2)).eraseDups
    keys.foldlM (fun (r : Stored) k => do
      let vs := (sortBy (fun (a b : (Nat × List Nat) × (Num × Round)) => decide (a.1.1 < b.1.1)) (xs.filter fun x => (x.1.1 / 32, x.1.2) == k)).map fun x => x.2
      let q ← storeRun r.st c acc d sat qmul k.2 2 (32 * k.1) vs
      pure ⟨q.st, r.fl ||| q.fl, r.sat + q.sat⟩) ⟨s, 0, 0⟩
  else
    xs.foldlM (fun (r : Stored) x => do
      let q ← storeRun r.st c acc d sat qmul x.1.2 2 x.1.1 [x.2]
      pure ⟨q.st, r.fl ||| q.fl, r.sat + q.sat⟩) ⟨s, 0, 0⟩

/-- The linear index of an element, dimension 0 fastest, independent of tiling (05 R270). -/
def Desc.linear (d : Desc) (i0 : Nat) (idx : List Nat) : Nat :=
  i0 + d.count 0 * (nthD 0 idx 0 + d.count 1 * (nthD 0 idx 1 + d.count 2 * (nthD 0 idx 2 + d.count 3 * nthD 0 idx 3)))

/-- AUX_DESC of RM_OP holds a stream descriptor only for these operations (08 R721). -/
def auxIsDesc (op : Nat) : Bool := (decide (0x10 ≤ op) && decide (op ≤ 0x15)) || op == 0x20

end Sys2Proof.Machine
end

