-- ==== Sys2Proof/Machine/Tasks.lean ====
section
/-! DEFINITION. Lists, tasks and commands as the dispatcher handles them: what can fire, units and signals, pipes,
faults, the end of a list, and residency (chapters 03 and 12). -/

namespace Sys2Proof

/-! ### Instances -/

/-- ENGINE of 03 Table 3.2. -/
def EngineInst.engine : EngineInst → Nat
  | .weave => 0
  | .splints _ => 1
  | .sampler _ => 2
  | .rim _ => 3
  | .fabric => 4
  | .tier => 5

def EngineInst.half : EngineInst → Option Half
  | .splints h => some h
  | .sampler h => some h
  | .rim h => some h
  | _ => none

/-- The bit of a HALVES field (03 Table 3.2). -/
def Half.bit : Half → Nat
  | .west => 1
  | .east => 2

def namesHalf (halves : Nat) (h : Half) : Bool := halves / h.bit % 2 == 1

/-- Whether a HALVES field concerns an instance; an instance that spans the module is concerned by every command. -/
def EngineInst.named (inst : EngineInst) (halves : Nat) : Bool :=
  match inst.half with
  | some h => namesHalf halves h
  | none => true

/-- The unit number that names an engine instance as a whole (03 R138). -/
def EngineInst.unit (inst : EngineInst) : Nat :=
  match inst.half with
  | some h => h.num
  | none => 0xFFFF

/-- How many commands of a task an instance may have in progress (03 R148). -/
def EngineInst.depth : EngineInst → Nat
  | .splints _ => 4
  | .fabric => 4
  | _ => 1

end Sys2Proof

namespace Sys2Proof.Machine

/-- The half whose delay list a synchronisation command of an instance uses: its own, or the leading half's for the
instances that span the module (03 R165, R168; log entry 13). -/
def delayHalf (s : State) (inst : EngineInst) : Half := inst.half.getD s.lead.leader

def findEngine (s : State) (inst : EngineInst) : Engine :=
  match s.engines.find? fun e => e.inst == inst with
  | some e => e
  | none => { inst := inst }

def setEngine (s : State) (inst : EngineInst) (f : Engine → Engine) : State :=
  { s with engines := mapIf (fun e => e.inst == inst) f s.engines }

/-! ### Lists -/

def findList (s : State) (uid : Nat) : Option CmdList := s.lists.find? fun l => l.uid == uid

def setList (s : State) (uid : Nat) (f : CmdList → CmdList) : State :=
  { s with lists := mapIf (fun l => l.uid == uid) f s.lists }

def setTask (s : State) (uid ti : Nat) (f : Task → Task) : State :=
  setList s uid fun l => { l with tasks := modifyAt f ti l.tasks }

/-- The byte offset of a command in its list (03 Table 3.2). -/
def cmdOffset (l : CmdList) (ref : CmdRef) : Nat :=
  match l.tasks[ref.task]? with
  | some t => t.offset + 64 * ref.cmd
  | none => 0

/-- Read command k of a task (03 R131). -/
def cmdWord (s : State) (c : Context) (l : CmdList) (t : Task) (k : Nat) : Except MemErr (BitVec 512) :=
  match readVa s c .rd (l.base + t.offset + 64 * k) 64 with
  | .ok bs => .ok (wordOf bs)
  | .error e => .error e

def Task.next (t : Task) (inst : EngineInst) : Nat :=
  match inst.half with
  | some .east => t.nextEast
  | _ => t.nextWest

/-- The next command of a task on an instance: those whose HALVES names the other half only are skipped (03 R132). A
command that cannot be read, or whose HALVES lies outside the task's, is next and faults when it fires. -/
def nextCommand (s : State) (c : Context) (l : CmdList) (t : Task) (inst : EngineInst) :
    Nat → Nat → Option (Nat × Except MemErr (BitVec 512))
  | 0, _ => none
  | fuel + 1, k =>
    if t.count ≤ k then none
    else
      match cmdWord s c l t k with
      | .error e => some (k, .error e)
      | .ok w =>
        let h := cmdHalves w
        if h = 0 ∨ h &&& t.halves ≠ h ∨ inst.named h = true then some (k, .ok w)
        else nextCommand s c l t inst fuel (k + 1)

def nextOf (s : State) (c : Context) (l : CmdList) (t : Task) (inst : EngineInst) : Option (Nat × Except MemErr (BitVec 512)) :=
  nextCommand s c l t inst (t.count + 1) (t.next inst)

/-- SY_DELAY in progress does not occupy the engine (03 R167). -/
def Running.isDelay (r : Running) : Bool := cmdOpcode r.word == 3

/-- The commands of a task in progress that concern an instance, on it or on the other half (03 R132). -/
def inProgress (s : State) (uid ti : Nat) (inst : EngineInst) : List Progress :=
  s.progress.filter fun p => p.ref.list == uid && p.ref.task == ti && inst.named p.halves

/-- Commands of a task that an instance itself has in progress. -/
def runningOf (e : Engine) (uid ti : Nat) : List Running :=
  e.running.filter fun r => r.ref.list == uid && r.ref.task == ti

/-- The wait conditions of a command hold (03 R151). -/
def waitsHold (c : Context) (w : BitVec 512) : Bool := (cmdWaits w).all fun x => semReached (nthD 0 c.sems x.1).toNat x.2

/-- AFTER is satisfied: every earlier command of the task on the instance has completed (03 Table 3.3). -/
def afterHolds (s : State) (uid ti : Nat) (inst : EngineInst) (w : BitVec 512) : Bool :=
  !cmdAfter w || (inProgress s uid ti inst).isEmpty

/-- A suspended command of a task waits to resume on an instance (03 R144). -/
def suspendedOf (e : Engine) (uid : Nat) : List Running :=
  match e.suspended.find? fun p => p.1 == uid with
  | some p => p.2
  | none => []

/-- STEP_APPLY fires once the decision for its STEP is known (08 R435); one whose record cannot be read, or whose step is
decided already, fires and faults. -/
def decisionKnown (s : State) (c : Context) (w : BitVec 512) : Bool :=
  if cmdOpcode w = 0x40 ∧ fld w 0x20 15 0 = 0x0E03 then
    match readVa s c .rd (fld w 0x28 47 0) 64 with
    | .error _ => true
    | .ok b =>
      let step := fieldAt b 4 4
      match c.vote with
      | some v => if v.step = step then v.decision != .none else step == 0 || stepDecided c step
      | none => step == 0 || stepDecided c step
  else true

/-- An instance does no work: its half is being reset, either half's for the Weave, or the Sampler that serves it is (13 R639,
R644, R646). -/
def instFenced (s : State) (inst : EngineInst) : Bool :=
  match inst with
  | .weave => unitResetting s 0 || unitResetting s 1
  | .splints h => unitResetting s h.num
  | .rim h => unitResetting s h.num
  | .sampler h =>
    let k := servingHalf s 4 h.num
    unitResetting s h.num || unitResetting s k || unitResetting s (0x4000 + k)
  | .fabric => false
  | .tier => false

/-- Lists not yet started wait for the end of a half reset (13 R639). -/
def startHeld (s : State) (l : CmdList) : Bool := !l.started && (unitResetting s 0 || unitResetting s 1)

/-- The next command of a task can fire on an instance (03 R142): the context resident, the waits held, a decision known, AFTER satisfied
and the instance's depth for the task not reached. A command that cannot be read fires and faults. A pre-empted task can
resume. -/
def canFire (s : State) (inst : EngineInst) (l : CmdList) (ti : Nat) : Bool :=
  match l.tasks[ti]?, findCtx s l.sess with
  | some t, some c =>
    l.admitted && l.ended.isNone && !instFenced s inst && !startHeld s l && c.slot.isSome && t.engine == inst.engine && inst.named t.halves &&
    (((suspendedOf (findEngine s inst) l.uid).any fun r => r.ref.task == ti) ||
      (match nextOf s c l t inst with
       | none => false
       | some (_, .error _) => (runningOf (findEngine s inst) l.uid ti).length < inst.depth
       | some (_, .ok w) =>
         waitsHold c w && decisionKnown s c w && afterHolds s l.uid ti inst w && decide ((runningOf (findEngine s inst) l.uid ti).length < inst.depth)))
  | _, _ => false

/-- The tasks of an instance in the order of choice: level, then admission, then place in the list (03 R140, R142). -/
def readyTasks (s : State) (inst : EngineInst) : List (CmdList × Nat) :=
  let all := s.lists.flatMap fun l => (List.range l.tasks.length).map fun i => (l, i)
  sortBy (fun a b => decide (b.1.prio < a.1.prio) || (a.1.prio == b.1.prio && (decide (a.1.order < b.1.order) ||
    (a.1.order == b.1.order && decide (a.2 < b.2))))) (all.filter fun p =>
      match p.1.tasks[p.2]? with
      | some t => t.engine == inst.engine && inst.named t.halves && p.1.ended.isNone && p.1.admitted
      | none => false)

/-- A chain of the Weave holds it for the chain's task while a command follows (03 R149). -/
def chainHolder (s : State) : Option (Nat × Nat) :=
  (s.weave.chains.find? fun ch =>
    match findList s ch.ref.list with
    | some l => l.ended.isNone && (match l.tasks[ch.ref.task]? with | some t => decide (t.nextWest < t.count) | none => false)
    | none => false).map fun ch => (ch.ref.list, ch.ref.task)

/-- A task may be chosen in the face of a held chain: the holder's own, or an urgent one (03 R149). -/
def chainAllows (s : State) (inst : EngineInst) (p : CmdList × Nat) : Bool :=
  if inst = .weave then
    match chainHolder s with
    | some (u, ti) => (p.1.uid == u && p.2 == ti) || decide (6 ≤ p.1.prio)
    | none => true
  else true

/-- The choice of 03 R142. -/
def chooseTask (s : State) (inst : EngineInst) : Option (CmdList × Nat) :=
  (readyTasks s inst).find? fun p => chainAllows s inst p && canFire s inst p.1 p.2

/-! ### Semaphores, units and signals (03 R150-R155) -/

/-- Add to a semaphore, modulo 2^32 (03 R150). -/
def addSem (s : State) (sess : U32) (sem inc : Nat) : State :=
  setCtx s sess fun c => { c with sems := modifyAt (fun v => v + BitVec.ofNat 32 inc) sem c.sems }

def findProgress (s : State) (ref : CmdRef) : Option Progress := s.progress.find? fun p => p.ref == ref

def setProgress (s : State) (ref : CmdRef) (f : Progress → Progress) : State :=
  { s with progress := mapIf (fun p => p.ref == ref) f s.progress }

/-- How many units are complete from unit 0 on without a gap (03 R154 signals in unit order). -/
def unitPrefix (units : List Nat) : Nat → Nat → Nat
  | 0, k => k
  | fuel + 1, k => if units.contains k then unitPrefix units fuel (k + 1) else k

/-- Signals due after units complete, before the command's end (03 R154). -/
def signalsDue (every done : Nat) : Nat := if every = 0 then 0 else done / every

/-- Signals of a whole command (03 R154). -/
def signalsTotal (every units : Nat) : Nat := if every = 0 then 1 else Nat.max 1 (ceilDiv units every)

/-- Apply n signals of a command (03 R154). -/
def signalTimes (s : State) (sess : U32) (w : BitVec 512) (n : Nat) : State :=
  match cmdSignal w with
  | some (sem, inc) => addSem s sess sem (inc * n)
  | none => s

/-- A unit of a command completes (03 R154). A stopped command is no longer in progress and signals nothing (R155). -/
def unitDone (s : State) (ref : CmdRef) (unit : Nat) : State :=
  match findProgress s ref with
  | none => s
  | some p =>
    let units := if p.units.contains unit then p.units else unit :: p.units
    let due := signalsDue (cmdSigEvery p.word) (unitPrefix units units.length 0)
    let s1 := setProgress s ref fun q => { q with units := units, signalled := Nat.max p.signalled due }
    signalTimes s1 p.sess p.word (due - p.signalled)

def unitsDone (s : State) (ref : CmdRef) (units : List Nat) : State := units.foldl (fun s u => unitDone s ref u) s

/-! ### Pipes (03 R136, R137, R717) -/

/-- Output and input pipe of a command (03 Table 3.4); 0 for none. -/
def outPipe (w : BitVec 512) : Nat :=
  match cmdOpcode w with
  | 0x10 => fld w 0x20 50 48
  | 0x11 => fld w 0x10 6 4
  | 0x20 => fld w 0x18 50 48
  | 0x22 => fld w 0x20 50 48
  | 0x40 => fld w 0x18 50 48
  | _ => 0

def inPipe (w : BitVec 512) : Nat :=
  match cmdOpcode w with
  | 0x10 => fld w 0x10 50 48
  | 0x11 => fld w 0x10 2 0
  | 0x21 => fld w 0x10 50 48
  | 0x40 => fld w 0x10 50 48
  | _ => 0

def findPipe (c : Context) (n : Nat) : Option Pipe := c.pipes.find? fun p => p.n == n

def setPipe (s : State) (sess : U32) (n : Nat) (f : Pipe → Pipe) : State :=
  setCtx s sess fun c => { c with pipes := mapIf (fun p => p.n == n) f c.pipes }

/-- A pipe both of whose ends have completed or stopped is free again (03 R137). A producer that completes before its consumer
fires leaves the pipe in use for it. -/
def Pipe.ended (p : Pipe) : Bool := p.producer.isSome && p.producerDone && p.consumer.isSome && p.consumerDone

/-- Join a command to its pipe at one end; none when the end is taken while the pipe is in use (03 R137). Both halves of
one command share its end. -/
def joinPipe (c : Context) (n : Nat) (asProducer : Bool) (ref : CmdRef) : Option Context :=
  if n = 0 then some c
  else
    let fresh : Pipe := { n := n, producer := if asProducer then some ref else none, consumer := if asProducer then none else some ref,
                          producerDone := false, consumerDone := false, tiles := [] }
    match findPipe c n with
    | none => some { c with pipes := c.pipes ++ [fresh] }
    | some p =>
      if p.ended then some { c with pipes := mapIf (fun q => q.n == n) (fun _ => fresh) c.pipes }
      else
        match asProducer, p.producer, p.consumer with
        | true, none, _ => some { c with pipes := mapIf (fun q => q.n == n) (fun q => { q with producer := some ref }) c.pipes }
        | true, some r, _ => if r = ref then some c else none
        | false, _, none => some { c with pipes := mapIf (fun q => q.n == n) (fun q => { q with consumer := some ref }) c.pipes }
        | false, _, some r => if r = ref then some c else none

/-- The producer may send: its consumer has fired (03 R136). The number of buffers of a consumer is not given, so a
fired consumer always has room (log entry 14). -/
def pipeReady (c : Context) (n : Nat) : Bool :=
  match findPipe c n with
  | some p => p.consumer.isSome && !p.consumerDone
  | none => false

/-- Piped input has ended: the producer completed and every tile taken (03 R717). -/
def pipeEnded (c : Context) (n : Nat) : Bool :=
  match findPipe c n with
  | some p => p.producerDone && p.tiles.isEmpty
  | none => false

/-- Mark the ends of a command done (03 R137). -/
def closePipes (s : State) (sess : U32) (ref : CmdRef) : State :=
  setCtx s sess fun c => { c with pipes := c.pipes.map fun p =>
    { p with producerDone := p.producerDone || p.producer == some ref, consumerDone := p.consumerDone || p.consumer == some ref } }

/-- An end that stops before the other has fired frees the pipe (03 R137, R717). -/
def freePipes (s : State) (sess : U32) (ref : CmdRef) : State :=
  setCtx s sess fun c => { c with pipes := c.pipes.filter fun p =>
    !((p.producer == some ref || p.consumer == some ref) &&
      (p.producer.isNone || p.producerDone) && (p.consumer.isNone || p.consumerDone)) }

/-! ### Completion of a command -/

/-- Remove a command from the instance that has finished its share. -/
def dropRunning (s : State) (inst : EngineInst) (ref : CmdRef) : State :=
  setEngine s inst fun e => { e with running := e.running.filter fun r => r.ref != ref, lastIssue := s.now }

/-- The command has completed in every half it names: the remaining signals are applied and its pipes end (03 R132,
R154, R717). -/
def completeCommand (s : State) (p : Progress) : State :=
  let total := signalsTotal (cmdSigEvery p.word) p.units.length
  let s1 := closePipes (signalTimes s p.sess p.word (total - p.signalled)) p.sess p.ref
  let s2 := { s1 with progress := s1.progress.filter fun q => q.ref != p.ref, jobs := s1.jobs.filter (fun j => j.ref != p.ref),
                       weave := { s1.weave with runs := s1.weave.runs.filter fun x => x.ref != p.ref } }
  setCtx (setTask s2 p.ref.list p.ref.task fun t => { t with doneWest := p.ref.cmd :: t.doneWest }) p.sess
    fun c => { c with activeAt := s.now }

/-- An instance has finished its share of a command (03 R132). -/
def shareDone (s : State) (inst : EngineInst) (ref : CmdRef) : State :=
  match findProgress s ref with
  | none => dropRunning s inst ref
  | some p =>
    let q := { p with westDone := p.westDone || inst.half != some .east, eastDone := p.eastDone || inst.half != some .west }
    let s1 := setProgress (dropRunning s inst ref) ref fun _ => q
    if (q.westDone || !namesHalf q.halves .west) && (q.eastDone || !namesHalf q.halves .east) then completeCommand s1 q else s1

/-! ### How a list ends early (03 R138, R179-R182) -/

/-- Why a command stops its list. -/
inductive CmdErr where
  /-- An engine fault code with its unit and FAULT_INFO. -/
  | code (c : Nat) (unit : Nat) (info : Nat)
  /-- FAILED HW_ERROR naming a unit. -/
  | hw (unit : Nat)
  /-- ABORTED GROUP_ABORT with the common error, the module that originated it and the unit. -/
  | group (c : Nat) (origin : Nat) (unit : Nat)
  deriving DecidableEq, Repr

def faultBadCommand : Nat := 0x000B
def faultTranslation : Nat := 0x0002
def faultTargetReset : Nat := 0x0003
def faultTargetFenced : Nat := 0x0004

def errBad (inst : EngineInst) : CmdErr := .code faultBadCommand inst.unit 0

/-- The fault of a failed access (01 R53, 09 R462). -/
def errMem (unit : Nat) : MemErr → CmdErr
  | .translation va => .code faultTranslation unit va
  | .poison pc => .hw (0x7000 + pc)

/-- How the list completes for an error of a command at an offset (03 Table 3.5). -/
def CmdErr.toEnd (now offset : Nat) : CmdErr → ListEnd
  | .code 0x0003 unit info =>
    { cls := 4, reason := 3, detail := BitVec.ofNat 32 (3 + 65536 * unit), res0 := none, fault := BitVec.ofNat 32 (3 + 65536 * unit),
      faultOffset := BitVec.ofNat 32 offset, faultInfo := BitVec.ofNat 64 info, endedAt := now }
  | .code c unit info =>
    { cls := 3, reason := 2, detail := BitVec.ofNat 32 (c + 65536 * unit), res0 := some (BitVec.ofNat 64 offset),
      fault := BitVec.ofNat 32 (c + 65536 * unit), faultOffset := BitVec.ofNat 32 offset, faultInfo := BitVec.ofNat 64 info, endedAt := now }
  | .hw unit =>
    { cls := 3, reason := 4, detail := BitVec.ofNat 32 unit, res0 := none, fault := 0, faultOffset := BitVec.ofNat 32 offset,
      faultInfo := 0, endedAt := now }
  | .group c origin unit =>
    { cls := 4, reason := 4, detail := BitVec.ofNat 32 origin, res0 := some (BitVec.ofNat 64 c), fault := BitVec.ofNat 32 (c + 65536 * unit),
      faultOffset := BitVec.ofNat 32 offset, faultInfo := 0, endedAt := now }

/-- The end of a list that is aborted with a reason of class ABORTED (02 Table 2.5). -/
def abortEnd (now reason detail : Nat) (res0 : Option U64) : ListEnd :=
  { cls := 4, reason := BitVec.ofNat 8 reason, detail := BitVec.ofNat 32 detail, res0 := res0, fault := 0, faultOffset := 0,
    faultInfo := 0, endedAt := now }

/-- A running FB_COLL runs to its completion or abort (03 R179). -/
def keepsRunning (w : BitVec 512) : Bool := cmdOpcode w == 0x51

/-- Stop the commands of a list and take back what they hold: engine slots, chunks not applied, requests, delay entries,
chains and pipe ends (03 R179, R180; R155: no further signal). -/
def stopCommands (s : State) (uid : Nat) : State :=
  let gone := s.progress.filter fun p => p.ref.list == uid && !keepsRunning p.word
  let refs := gone.map fun p => p.ref
  let s1 := { s with
    engines := s.engines.map fun e =>
      { e with running := e.running.filter fun r => !refs.contains r.ref,
               suspended := e.suspended.filter fun p => p.1 != uid }
    progress := s.progress.filter fun p => !refs.contains p.ref
    jobs := s.jobs.filter fun j => !refs.contains j.ref
    cores := s.cores.filter fun k => !refs.contains k.job
    requests := mapIf (fun q => refs.contains q.ref) (fun q => { q with stopped := true }) s.requests
    remoteReqs := mapIf (fun q => refs.contains q.ref) (fun q => { q with stopped := true }) s.remoteReqs
    remotePicks := s.remotePicks.filter fun q => !refs.contains q.ref
    contexts := s.contexts.map fun c => { c with
      waiting := c.waiting.filter fun w => match w.ref with | some r => !refs.contains r | none => true
      logWait := c.logWait.filter fun w => !refs.contains w.ref }
    delays := s.delays.filter fun d => match d.kind with | .delay r => r.list != uid | .timeout r => r.list != uid
    delayWaits := s.delayWaits.filter fun d => d.ref.list != uid
    weave := { s.weave with chains := s.weave.chains.filter (fun ch => ch.ref.list != uid),
                              runs := s.weave.runs.filter fun x => !refs.contains x.ref } }
  gone.foldl (fun st p => freePipes (closePipes st p.sess p.ref) p.sess p.ref) s1

/-- The lists whose commands consume from a pipe that a command of the list produces, and have not ended: they stop with
it (03 R717). -/
def consumersOf (s : State) (uid : Nat) : List Nat :=
  s.contexts.flatMap fun c => c.pipes.filterMap fun p =>
    match p.producer, p.consumer with
    | some a, some b => if a.list == uid && b.list != uid && !p.producerDone && !p.consumerDone then some b.list else none
    | _, _ => none

/-- End a list; a later event of an ended list goes to the error log (03 R182). A list whose command consumed what a
stopped command produced ends in the same way (log entry 15). -/
def endListFrom : Nat → State → Nat → ListEnd → State
  | 0, s, _, _ => s
  | fuel + 1, s, uid, e =>
    match findList s uid with
    | none => s
    | some l =>
      match l.ended with
      | some _ =>
        if e.cls = 3 ∨ e.fault ≠ 0 then
          addLog s 0x0D 0 { unit := if e.fault = 0 then e.detail.setWidth 16 else (e.fault >>> 16).setWidth 16, code := e.fault.setWidth 16,
                            tenant := match findCtx s l.sess with | some c => c.tenant | none => 0,
                            sess := l.sess, arg0 := l.tag.toNat, arg1 := e.faultOffset.toNat }
        else s
      | none =>
        let next := consumersOf s uid
        let s1 := stopCommands (setList s uid fun l => { l with ended := some e }) uid
        next.foldl (fun st u => endListFrom fuel st u e) s1

def endList (s : State) (uid : Nat) (e : ListEnd) : State := endListFrom (s.lists.length + 1) s uid e

/-- A command faults (03 R179); a demand access to a poisoned sector is counted (09 Table 9.4). -/
def faultCommand (s : State) (ref : CmdRef) (err : CmdErr) : State :=
  match findList s ref.list with
  | none => s
  | some l =>
    let s1 := match err with
      | .hw u => if u / 4096 = 7 then setCtx s l.sess fun c => { c with memCtr := bump c.memCtr 15 1 } else s
      | _ => s
    endList s1 ref.list (err.toEnd s.now (cmdOffset l ref))

/-! ### Delay lists (03 R165-R168) -/

/-- Entries of a half's list in tenants' use; 960 of the 1,024 serve them (03 R165). -/
def delayUsed (s : State) (h : Half) : Nat := (s.delays.filter fun d => d.half == h).length

/-- Insert an entry, sorted by deadline and then by insertion, or wait for one to be freed (03 R165, R168). -/
def addDelay (s : State) (h : Half) (deadline : Nat) (ref : CmdRef) (isTimeout : Bool) : State :=
  let kind : DelayKind := if isTimeout then .timeout ref else .delay ref
  if delayUsed s h < 960 then
    { s with delays := insertBy (fun a b => decide (a.deadline < b.deadline)) { half := h, deadline := deadline, kind := kind } s.delays }
  else { s with delayWaits := s.delayWaits ++ [{ half := h, ref := ref, deadline := deadline, isTimeout := isTimeout }] }

/-- Free the entries of a command, and the places of those that wait. -/
def dropDelay (s : State) (ref : CmdRef) : State :=
  { s with delays := s.delays.filter (fun d => match d.kind with | .delay r => r != ref | .timeout r => r != ref),
           delayWaits := s.delayWaits.filter fun d => d.ref != ref }

/-- Time of the first tick at or after a deadline (03 R166, R167). -/
def tickAt (s : State) (deadline : Nat) : Nat := alignUp deadline s.power.config.tickNs

/-- Start the timeout of an SY_WAIT that has become the next command of its task with AFTER satisfied (03 R157). -/
def armTask (s : State) (l : CmdList) (ti : Nat) (inst : EngineInst) : State :=
  match l.tasks[ti]?, findCtx s l.sess with
  | some t, some c =>
    if t.waitSince.isSome || t.engine != inst.engine || !inst.named t.halves || l.ended.isSome || !l.admitted then s
    else
      match nextOf s c l t inst with
      | some (k, .ok w) =>
        if cmdOpcode w = 1 ∧ fld w 0x24 31 0 ≠ 0 ∧ afterHolds s l.uid ti inst w = true then
          addDelay (setTask s l.uid ti fun t => { t with waitSince := some s.now, timedOut := false }) (delayHalf s inst)
            (s.now + 1000 * fld w 0x24 31 0) { list := l.uid, task := ti, cmd := k } true
        else s
      | _ => s
  | _, _ => s

/-- Start every timeout that is due to start. -/
def armWaits (s : State) : State :=
  s.lists.foldl (fun st l => (List.range l.tasks.length).foldl (fun st ti =>
    (st.engines.map fun e => e.inst).foldl (fun st inst => armTask st l ti inst) st) st) s

/-! ### Residency (12 R610-R617) -/

/-- A resident context is idle (12 R611). -/
def ctxIdle (s : State) (c : Context) : Bool :=
  !(s.lists.any fun l => l.sess == c.sess && l.ended.isNone) &&
  !(s.boxes.any fun b => b.outstanding.any fun o => o.sub.session == c.sess && (o.held || o.started)) &&
  !(s.heldLookups.any fun h => h.sess == c.sess) && c.waiting.isEmpty &&
  c.rim.pending == 0 && c.settles.isEmpty && !(c.groups.any fun g => g.current.isSome)

/-- Ways of a half not granted to any context; 16 in all (09 R469). -/
def freeWays (s : State) (h : Half) : Nat :=
  16 - sumNat (s.contexts.map fun c => match h with | .west => c.waysWest | .east => c.waysEast)

/-- Offer the free ways of both halves to resident contexts below their quota, by residency time (12 R617). -/
def grantWaysTo (s : State) (sess : U32) : State :=
  match findCtx s sess with
  | none => s
  | some c =>
    if c.slot.isNone then s
    else
      let q := quotaLimit s c.tenant 0x05
      let gw := Nat.min (q - c.waysWest) (freeWays s .west)
      let ge := Nat.min (q - c.waysEast) (freeWays s .east)
      setCtx s sess fun c => { c with waysWest := c.waysWest + gw, waysEast := c.waysEast + ge }

def offerWays (s : State) : State :=
  ((sortBy (fun a b => decide (a.residentAt < b.residentAt)) s.contexts).map fun c => c.sess).foldl grantWaysTo s

/-- Park a context: its state is kept, its ways and its slot are freed (12 R614, 09 R471). -/
def park (s : State) (sess : U32) : State :=
  setCtx s sess fun c => { c with slot := none, waysWest := 0, waysEast := 0, parks := c.parks + 1 }

/-- The least free slot of ctx 1-63 (01 R2). -/
def freeSlot (s : State) : Option Nat :=
  ((List.range 63).map fun i => i + 1).find? fun n => !s.contexts.any fun c => c.slot == some n

/-- Take a slot: the context is resident, its ways are granted (12 R612, R617). Its lists enter the ready lists. -/
def makeResident (s : State) (sess : U32) (slot : Nat) : State :=
  let s1 := setCtx s sess fun c => { c with slot := some slot, residentAt := s.now, activeAt := s.now }
  let s2 := { s1 with lists := mapIf (fun l => l.sess == sess) (fun l => { l with admitted := true }) s1.lists,
                      waitQueue := s1.waitQueue.filter fun w => w.1 != sess }
  armWaits (offerWays (grantWaysTo s2 sess))

/-- Contexts from the least recently active on. -/
def byActivity (cs : List Context) : List Context := sortBy (fun a b => decide (a.activeAt < b.activeAt)) cs

/-- Whether and how a context can be made resident now (12 R612): none when it must wait. A tenant at its RESIDENT quota parks its own
idle contexts, after a lowered quota as many as bring it within the quota again; otherwise any tenant's idle context is parked. -/
def tryResident (s : State) (c : Context) : Option State :=
  let ten := (tenantContexts s c.tenant).filter fun d => d.slot.isSome
  let quota := quotaLimit s c.tenant 0x0D
  let atQuota := decide (quota ≤ ten.length)
  match atQuota, freeSlot s with
  | false, some n => some (makeResident s c.sess n)
  | _, _ =>
    let cands := (if atQuota then ten else s.contexts.filter fun d => d.slot.isSome).filter fun d => ctxIdle s d
    let out := (byActivity cands).take (if atQuota then ten.length + 1 - quota else 1)
    match out.head?.bind fun d => d.slot with
    | none => none
    | some n => some (makeResident (out.foldl (fun st d => park st d.sess) s) c.sess n)

/-- Order of the context wait queue: level, then the time at which the context became active (12 R615). -/
def queueBefore (a b : U32 × Nat × Nat) : Bool := decide (b.2.1 < a.2.1) || (a.2.1 == b.2.1 && decide (a.2.2 < b.2.2))

/-- A parked context becomes active (12 R610, R612). The Bool says that it entered the wait queue, or was in it. -/
def activate (s : State) (sess : U32) (level : Nat) : State × Bool :=
  match findCtx s sess with
  | none => (s, false)
  | some c =>
    if c.slot.isSome then (setCtx s sess fun c => { c with activeAt := s.now }, false)
    else
      match tryResident s c with
      | some s' => (s', false)
      | none =>
        if s.waitQueue.any fun w => w.1 == sess then
          ({ s with waitQueue := sortBy queueBefore (mapIf (fun w => w.1 == sess) (fun w => (w.1, Nat.max w.2.1 level, w.2.2)) s.waitQueue) }, true)
        else
          (setCtx { s with waitQueue := insertBy queueBefore (sess, level, s.now) s.waitQueue } sess
            fun c => { c with queuedEntries := c.queuedEntries + 1 }, true)

/-- The 1-based position of a context in the wait queue (12 R616). -/
def queuePosition (s : State) (sess : U32) : Nat := (s.waitQueue.findIdx fun w => w.1 == sess) + 1

/-- A packet for a context of a group activates it at its tenant's ceiling (12 R615). True when it is resident. -/
def activateByPacket (s : State) (sess : U32) : State × Bool :=
  match findCtx s sess with
  | none => (s, false)
  | some c => let r := activate s sess (findTenant s c.tenant).ceiling.toNat; (r.1, !r.2)

/-! ### The running command of an instance -/

/-- A command of the tier while a tier engine is fenced is refused with TARGET_FENCED (13 R644, 03 Table 3.5). -/
def fencedOr (s : State) (inst : EngineInst) (x : Except CmdErr State) : Except CmdErr State :=
  match inst, (tierFenced s 0).or (tierFenced s 1) with
  | .tier, some u => .error (.code faultTargetFenced u 0)
  | _, _ => x

/-- Run f on the first command of an instance that an opcode test selects and whose row has not run; an error stops the
list (03 R179). With none, nothing happens (log entry 2). -/
def withRunning (s : State) (inst : EngineInst) (sel : BitVec 512 → Bool) (f : State → Context → Running → Except CmdErr State) : State :=
  match (findEngine s inst).running.find? fun r => sel r.word && !r.started && !instFenced s inst with
  | none => s
  | some r =>
    match findCtx s r.sess with
    | none => s
    | some c =>
      match fencedOr s inst (f s c r) with
      | .error e => faultCommand s r.ref e
      | .ok s' => armWaits s'

/-- The row of a command has run but the command has not completed. -/
def markStarted (s : State) (inst : EngineInst) (ref : CmdRef) : State :=
  setEngine s inst fun e => { e with running := mapIf (fun r => r.ref == ref) (fun r => { r with started := true }) e.running }

/-- The descriptor that a field of a command names, as read at the fetch (03 R169). -/
def Running.desc (r : Running) (off : Nat) : Option Desc :=
  (r.descs.find? fun p => p.1 == off).map fun p => decodeDesc p.2

/-- Turn an access error of a command into its fault. -/
def memTry {α : Type} (unit : Nat) (x : Except MemErr α) : Except CmdErr α :=
  match x with
  | .ok v => .ok v
  | .error e => .error (errMem unit e)

/-- A check that a command must pass, or fault with BAD_COMMAND (03 R135). -/
def mustBe (inst : EngineInst) (b : Bool) : Except CmdErr Unit := if b then .ok () else .error (errBad inst)

end Sys2Proof.Machine
end

