-- ==== Sys2Proof/Machine/Lease.lean ====
section
/-! DEFINITION. What units being reset, the lease and a module that goes down share (chapter 13). -/

namespace Sys2Proof.Machine

/-! ### Units out of service (13 R643, R644) -/

/-- An incarnation rises by 1, modulo 256 (13 R643). -/
def raiseIncarn (s : State) (u : U16) : State :=
  { s with faults := { s.faults with
      incarnations := (s.faults.incarnations.filter fun p => p.1 != u) ++ [(u, incarnationOf s u + 1)] } }

/-- Fence a unit for a reset, with the record of 13 R666: kind of Table 13.5, cause, when its bound ends and the command that
waits for it (13 R638, R644). -/
def fenceUnit (s : State) (u : U16) (kind cause bound : Nat) (command : Option (Nat × U16)) : State :=
  let s1 := raiseIncarn s u
  let s2 := addLog s1 0x05 (if cause = 0 ∨ cause = 4 then 0 else 2) { unit := u, arg0 := kind, arg1 := cause }
  { s2 with faults := { s2.faults with resetting := s2.faults.resetting ++ [{ unit := u, endsAt := s.now + bound, command := command }] } }

def cpUnit (h : Half) : U16 := BitVec.ofNat 16 (0x1000 + h.num)

/-- The bound of a control-processor reset (13 Table 13.5). -/
def cpBound : Nat := 300 * 10 ^ 6

/-- A control processor is in service: not retired, held, being reset, or in a half being reset. -/
def cpWorks (s : State) (h : Half) : Bool :=
  unitWorks s (cpUnit h).toNat && s.lead.heldProcessor != some h && !unitResetting s h.num && (s.lead.leader == h || s.lead.followerUp)

/-! ### The module going down (01 R23; 13 Table 13.3, R667) -/

/-- The running job ends: every list ends with HW_ERROR, and STATE becomes DOWN (13 Table 13.3). -/
def goDown (s : State) (unit : Nat) : State :=
  setMState (((s.lists.filter fun l => l.ended.isNone).map fun l => l.uid).foldl
    (fun st u => endList st u (CmdErr.toEnd st.now 0 (.hw unit))) s) .down

/-- A compute die, or what counts as one, is lost: recorded, and the module is down. -/
def moduleDown (s : State) (unit : Nat) : State := goDown (addLog s 0x03 4 { unit := BitVec.ofNat 16 unit }) unit

/-! ### The lease (13 R648, R652, R664) -/

/-- The previous image stands again: FW_UPDATE completes in FW_FALLBACK with the version now running (02 R116, 13 R662). -/
def fallback (s : State) (u : Update) : State :=
  let s1 := { s with fw := { s.fw with bootSlot := u.oldSlot, running := u.oldSlot, runningVersion := u.oldVersion, update := none } }
  complete (addLog s1 0x07 2 { arg0 := u.oldVersion.toNat, arg1 := 1 }) u.fn u.tag (stFwFallback u.oldVersion.toNat)

/-- A grant during any phase abandons the update (13 R664). -/
def abandonUpdate (s : State) : State :=
  match s.fw.update with
  | some u => fallback s u
  | none => s

/-- The epoch rises by 1 and never takes the value 0 (13 R648). -/
def nextEpoch (e : U32) : U32 := if e + 1 = 0 then 1 else e + 1

/-- A processor takes the lease under a new epoch and dispatches; the change is recorded and announced (13 R648, R652; 02
R112). followerUp says whether the old leader stays in service. -/
def takeLease (s : State) (h : Half) (severity : Nat) (followerUp : Bool) : State :=
  let s1 := { s with lead := { s.lead with epoch := nextEpoch s.lead.epoch, leader := h, dispatching := true, followerUp := followerUp,
                                           granting := false, lastRenewal := s.now } }
  announceEpoch (addLog s1 0x06 severity { unit := cpUnit h, arg0 := 0, arg1 := h.num })

/-- The leader releases the lease to the other processor, before a reset or in an update (13 R641, R661). -/
def passLease (s : State) : State :=
  let h := s.lead.leader
  takeLease (addLog s 0x06 0 { unit := cpUnit h, arg0 := 3, arg1 := h.other.num }) h.other 0 true

/-- A processor is reset until it rejoins as follower (13 Table 13.5, R654). A leader with no other to take over stops
dispatching. -/
def resetProcessor (s : State) (h : Half) (cause : Nat) (command : Option (Nat × U16)) : State :=
  let s1 := fenceUnit s (cpUnit h) 2 cause cpBound command
  if h = s1.lead.leader then { s1 with lead := { s1.lead with dispatching := false } }
  else { s1 with lead := { s1.lead with followerUp := false } }

/-- A processor is back: as follower, or as the leader that nobody replaced; DEGRADED_HALF returns to 0 when none is held (13
R654, R656). -/
def processorBack (s : State) (h : Half) : State :=
  let degraded := s.lead.heldProcessor.isSome
  if h = s.lead.leader then { s with lead := { s.lead with dispatching := true, degraded := degraded, lastRenewal := s.now } }
  else { s with lead := { s.lead with followerUp := true, degraded := degraded } }

/-- A processor is out of service for good: the other takes the lease and drives both halves (01 R32, 13 Table 13.3). -/
def loseProcessor (s : State) (h : Half) : State :=
  if h = s.lead.leader then
    if cpWorks s h.other then takeLease (abandonUpdate s) h.other 2 false
    else { s with lead := { s.lead with dispatching := false } }
  else { s with lead := { s.lead with followerUp := false } }

end Sys2Proof.Machine
end

