-- ==== Sys2Proof/Machine/Plait.lean ====
section
/-! DEFINITION. The Plait generator, the conversions of its bits to numbers, and the streams and positions of its
consumers (chapter 05). -/

namespace Sys2Proof.Machine

/-- The four words x or k of the generator. -/
structure Quad where
  w0 : U32
  w1 : U32
  w2 : U32
  w3 : U32
  deriving DecidableEq, Repr

def Quad.add (x k : Quad) : Quad := ⟨x.w0 + k.w0, x.w1 + k.w1, x.w2 + k.w2, x.w3 + k.w3⟩

/-- The key schedule of a round (05 R266). -/
def Quad.next (k : Quad) : Quad := ⟨k.w0 + 0x9E3779B9, k.w1 + 0x9E3779B9, k.w2 + 0x9E3779B9, k.w3 + 0x9E3779B9⟩

/-- The mixing of a round with rotations a, b, c, d (05 R266). -/
def Quad.mix (a b c d : Nat) (x : Quad) : Quad :=
  let x0 := x.w0 + x.w1
  let x3 := (x.w3 ^^^ x0).rotateLeft a
  let x2 := x.w2 + x3
  let x1 := (x.w1 ^^^ x2).rotateLeft b
  let y0 := x0 + x1
  let y3 := (x3 ^^^ y0).rotateLeft c
  let y2 := x2 + y3
  let y1 := (x1 ^^^ y2).rotateLeft d
  ⟨y0, y1, y2, y3⟩

/-- n pairs of an even and an odd round (05 R266). -/
def plaitRounds : Nat → Quad → Quad → Quad
  | 0, x, k => x.add k
  | n + 1, x, k =>
    let x1 := (x.add k).mix 13 19 7 24
    let k1 := k.next
    plaitRounds n ((x1.add k1).mix 17 9 21 5) k1.next

/-- The 128 output bits for a key, a stream and a position (05 R266). -/
def plait (key : BitVec 128) (stream position : U64) : BitVec 128 :=
  let x : Quad := ⟨position.setWidth 32, (position >>> 32).setWidth 32, stream.setWidth 32, (stream >>> 32).setWidth 32⟩
  let k : Quad := ⟨key.setWidth 32, (key >>> 32).setWidth 32, (key >>> 64).setWidth 32, (key >>> 96).setWidth 32⟩
  let o := plaitRounds 5 x k
  o.w3 ++ o.w2 ++ o.w1 ++ o.w0

/-- Lane n of an output (05 R266). -/
def lane (out : BitVec 128) (n : Nat) : U32 := (out >>> (32 * n)).setWidth 32

/-- The 16-bit value m of an output (05 R266). -/
def value16 (out : BitVec 128) (m : Nat) : U16 := (out >>> (16 * m)).setWidth 16

/-! ### From bits to numbers (05 R268, R269) -/

/-- u = (w >> 8) × 2⁻²⁴ as a value. -/
def uniform (w : U32) : Num := .fin false (w.toNat / 256) (-24)

/-- u = (w >> 8) × 2⁻²⁴ in FP32; exact. -/
def uniform32 (w : U32) : U32 := (toFp32 (uniform w)).1

/-- A uniform on [a, b): fl32(a + fl32((b − a) × u)), rounded at each fl32 (05 R268). -/
def uniformOn (a b : U32) (w : U32) : U32 × Fl :=
  let d := (fp32 b).add (fp32 a).neg
  let p := d.1.mul (uniform w)
  let t := fpOf (p.1, d.2 ||| p.2) 0
  let r := fpOf ((fp32 a).add (fp32 t.1)) 0
  (r.1, t.2 ||| r.2)

/-- The Box-Muller normal of an evaluation (05 R269). -/
def normalBoxMuller (out : BitVec 128) : U32 := Config.boxMuller (lane out 0) (lane out 1)

/-- One attempt of the ziggurat with two words (05 R269): the normal when it is accepted. -/
def zigAttempt (w v : U32) : Option U32 :=
  let i := w.toNat % 1024
  let neg := w.getLsbD 10
  let x := (toFp32 ((Num.fin false (w.toNat / 2048) (-21)).mul (fp32 (Config.zigX i))).1).1
  let signed := if neg then fneg x else x
  if (fp32 x).lt (fp32 (Config.zigX (i + 1))) then some signed
  else if i = 0 then none
  else
    let dy := ((fp32 (Config.zigY (i + 1))).add (fp32 (Config.zigY i)).neg).1
    let y := (toFp32 ((fp32 (Config.zigY i)).add ((uniform v).mul dy).1).1).1
    let half := (toFp32 (((fp32 x).mul (fp32 x)).1.mul (.fin true 1 (-1))).1).1
    if (fp32 y).lt (fp32 (Config.expUnit half)) then some signed else none

/-- The ziggurat normal, its fallback at the stream with bit 63 inverted (05 R269). -/
def normalZiggurat (key : BitVec 128) (stream position : U64) : U32 :=
  let o := plait key stream position
  match zigAttempt (lane o 0) (lane o 1) with
  | some z => z
  | none =>
    match zigAttempt (lane o 2) (lane o 3) with
    | some z => z
    | none => normalBoxMuller (plait key (stream ^^^ 0x8000000000000000) position)

/-! ### Streams and positions (05 R270, Table 5.8) -/

/-- The generator state a command uses: that which stands when it starts (05 R274). -/
structure PlaitState where
  key : BitVec 128
  bases : List U64
  deriving DecidableEq, Repr

def Context.plaitState (c : Context) : PlaitState := { key := c.plaitKey, bases := c.bases }

/-- The stream of a slot and an identity. -/
def PlaitState.stream (g : PlaitState) (slot ident : Nat) : U64 := nthD 0 g.bases slot ^^^ BitVec.ofNat 64 ident

/-- The position of a step and a word index, the index modulo 2^32. -/
def plaitPosition (step word : Nat) : U64 := BitVec.ofNat 64 (step * 2 ^ 32 + word % 2 ^ 32)

/-- The evaluation of a consumer. -/
def PlaitState.eval (g : PlaitState) (slot ident step word : Nat) : BitVec 128 :=
  plait g.key (g.stream slot ident) (plaitPosition step word)

/-- Sampling: word(i) of a node at a hop (05 R242-R244, Table 5.8). -/
def PlaitState.sampleWord (g : PlaitState) (salt hop node step i : Nat) : U32 :=
  lane (g.eval 0 (salt * 2 ^ 48 + (hop - 1) * 2 ^ 40 + node) step (i / 4)) (i % 4)

/-- Drop-out: 16 bits of element e. -/
def PlaitState.dropout (g : PlaitState) (site step e : Nat) : U16 :=
  value16 (g.eval 1 (site * 2 ^ 48 + e / 2 ^ 35) step (e / 8)) (e % 8)

/-- Stochastic rounding of element e of a dense destination with a BASE. -/
def PlaitState.dense (g : PlaitState) (base step e : Nat) : U16 :=
  value16 (g.eval 2 ((e / 2 ^ 35) * 2 ^ 48 + base) step (e / 8)) (e % 8)

/-- Stochastic rounding of element e of a pool row, named by its pool address (05 R271). -/
def PlaitState.row (g : PlaitState) (pool step e : Nat) : U16 :=
  value16 (g.eval 5 pool step (e / 8)) (e % 8)

/-- Uniform initialisation: 32 bits of element e. -/
def PlaitState.uniformWord (g : PlaitState) (base step e : Nat) : U32 :=
  lane (g.eval 3 ((e / 2 ^ 34) * 2 ^ 48 + base) step (e / 4)) (e % 4)

/-- Normal initialisation: the stream of element e. -/
def PlaitState.normalStream (g : PlaitState) (base e : Nat) : U64 := g.stream 4 ((e / 2 ^ 32) * 2 ^ 48 + base)

/-- The default base of a slot (05 R272). -/
def defaultBase (slot : Nat) : U64 := BitVec.ofNat 64 (slot * 0x9E3779B97F4A7C15)

end Sys2Proof.Machine
end

