-- ==== Sys2Proof/Machine/Coil.lean ====
section
/-! DEFINITION. The coil instruction set: decoding, the effect of an instruction on the registers of a core, and the
verifier of images (chapter 06). -/

namespace Sys2Proof.Machine

/-- The instructions of 06 Table 6.10. imm, ld and branch hold the opcode. -/
inductive CoilInstr where
  | alu (f : Nat) (d a b : Reg)
  | imm (op : Nat) (d a : Reg) (v : U16)
  | ld (op : Nat) (d a : Reg) (v : U16)
  | branch (op : Nat) (a b : Reg) (ofs : U16)
  | rnd (d a b : Reg) (f : BitVec 11)
  | etile (d a b : Reg) (f : BitVec 11)
  | grow (a b : Reg) (f : BitVec 11)
  | eclose
  | fin
  deriving DecidableEq, Repr

/-- The fields of 06 Table 6.9. -/
def ciOp (w : U32) : Nat := bits w.toNat 31 26
def ciD (w : U32) : Reg := w.extractLsb' 21 5
def ciA (w : U32) : Reg := w.extractLsb' 16 5
def ciB (w : U32) : Reg := w.extractLsb' 11 5
def ciF (w : U32) : BitVec 11 := w.extractLsb' 0 11
def ciImm (w : U32) : U16 := w.extractLsb' 0 16

/-- The instruction of a word; none for a reserved opcode (06 R336). -/
def decodeCoil (w : U32) : Option CoilInstr :=
  let op := ciOp w
  if op = 0x01 then some (.alu (bits w.toNat 3 0) (ciD w) (ciA w) (ciB w))
  else if 0x02 ≤ op ∧ op ≤ 0x09 then some (.imm op (ciD w) (ciA w) (ciImm w))
  else if 0x10 ≤ op ∧ op ≤ 0x13 then some (.ld op (ciD w) (ciA w) (ciImm w))
  else if 0x18 ≤ op ∧ op ≤ 0x1E then some (.branch op (ciD w) (ciA w) (ciImm w))
  else if op = 0x20 then some (.rnd (ciD w) (ciA w) (ciB w) (ciF w))
  else if op = 0x28 then some (.etile (ciD w) (ciA w) (ciB w) (ciF w))
  else if op = 0x29 then some (.grow (ciA w) (ciB w) (ciF w))
  else if op = 0x2A then some .eclose
  else if op = 0x3F then some .fin
  else none

/-! ### Registers (06 R335) -/

def getReg (regs : List U64) (r : Reg) : U64 := if r = 0 then 0 else nthD 0 regs r.toNat

def setReg (regs : List U64) (r : Reg) (v : U64) : List U64 := if r = 0 then regs else modifyAt (fun _ => v) r.toNat regs

/-- The ALU functions of 06 Table 6.10. -/
def coilAlu (f : Nat) (x y : U64) : U64 :=
  let sh := y.toNat % 64
  match f with
  | 0 => x + y
  | 1 => x - y
  | 2 => x &&& y
  | 3 => x ||| y
  | 4 => x ^^^ y
  | 5 => x <<< sh
  | 6 => x >>> sh
  | 7 => x.sshiftRight sh
  | 8 => x * y
  | 9 => BitVec.ofNat 64 (x.toNat * y.toNat / 2 ^ 64)
  | 10 => if x ≤ y then x else y
  | 11 => if x ≤ y then y else x
  | 12 => if x.sle y then x else y
  | 13 => if x.sle y then y else x
  | 14 => if x < y then 1 else 0
  | _ => if x.slt y then 1 else 0

/-- The immediate operations of 06 Table 6.10. -/
def coilImm (op : Nat) (x : U64) (v : U16) : U64 :=
  let z : U64 := v.setWidth 64
  let sh := v.toNat % 64
  match op with
  | 0x02 => x + v.signExtend 64
  | 0x03 => x &&& z
  | 0x04 => x ||| z
  | 0x05 => x ^^^ z
  | 0x06 => x <<< sh
  | 0x07 => x >>> sh
  | 0x08 => x.sshiftRight sh
  | _ => (x <<< 16) ||| z

/-- Whether a branch is taken (06 Table 6.10). -/
def coilTaken (op : Nat) (x y : U64) : Bool :=
  match op with
  | 0x18 => x == y
  | 0x19 => x != y
  | 0x1A => x.slt y
  | 0x1B => !x.slt y
  | 0x1C => decide (x < y)
  | 0x1D => !decide (x < y)
  | _ => true

/-- The target of a branch at instruction i (06 R334). -/
def coilTarget (i : Nat) (ofs : U16) : Nat := ((i : Int) + 1 + ofs.toInt).toNat

/-- RND (06 Table 6.10): 64 bits of a Plait output of a software slot. -/
def coilRnd (g : PlaitState) (x y : U64) (f : BitVec 11) : U64 :=
  let out := plait g.key (nthD 0 g.bases (f.toNat % 32) ^^^ x) y
  if f.getLsbD 5 then (out >>> 64).setWidth 64 else out.setWidth 64

/-- Bytes of a load (06 Table 6.10). -/
def ldWidth (op : Nat) : Nat := 2 ^ (op - 0x10)

/-- Address of a load. -/
def ldAddr (regs : List U64) (a : Reg) (v : U16) : Nat := (getReg regs a + v.signExtend 64).toNat

/-- A load (06 R337): zero-extended, or the error of an address that is not aligned or does not translate. An address
of 2^48 or more has no translation. -/
def coilLoad (s : State) (c : Context) (op : Nat) (regs : List U64) (a : Reg) (v : U16) : Except MemErr U64 :=
  let va := ldAddr regs a v
  let n := ldWidth op
  if va % n = 0 ∧ va < 2 ^ 48 then
    match readVa s c .rd va n with
    | .ok bs => .ok (BitVec.ofNat 64 (leNat bs))
    | .error e => .error e
  else .error (.translation va)

/-- The registers and the next instruction after an instruction that emits nothing; none for one that emits. -/
def coilEffect (s : State) (c : Context) (g : PlaitState) (i : CoilInstr) (regs : List U64) (pc : Nat) :
    Except MemErr (Option (List U64 × Nat)) :=
  match i with
  | .alu f d a b => .ok (some (setReg regs d (coilAlu f (getReg regs a) (getReg regs b)), pc + 1))
  | .imm op d a v => .ok (some (setReg regs d (coilImm op (getReg regs a) v), pc + 1))
  | .ld op d a v =>
    match coilLoad s c op regs a v with
    | .ok x => .ok (some (setReg regs d x, pc + 1))
    | .error e => .error e
  | .branch op a b ofs => .ok (some (regs, if coilTaken op (getReg regs a) (getReg regs b) then coilTarget pc ofs else pc + 1))
  | .rnd d a b f => .ok (some (setReg regs d (coilRnd g (getReg regs a) (getReg regs b) f), pc + 1))
  | .etile _ _ _ _ => .ok none
  | .grow _ _ _ => .ok none
  | .eclose => .ok none
  | .fin => .ok none

def Coil.at (k : Coil) (pc : Nat) : Option CoilInstr :=
  match k.code[pc]? with
  | some w => decodeCoil w
  | none => none

/-- Run a Sampler image for at most n instructions (05 R246): the registers at END, or none when it does not end or an
address faults (06 R337). -/
def runWindow (s : State) (c : Context) (g : PlaitState) (k : Coil) : Nat → List U64 → Nat → Option (List U64)
  | 0, _, _ => none
  | n + 1, regs, pc =>
    match k.at pc with
    | none => none
    | some i =>
      if i = .fin then some regs
      else
        match coilEffect s c g i regs pc with
        | .ok (some (regs', pc')) => runWindow s c g k n regs' pc'
        | _ => none

/-! ### The verifier (06 R339, Table 6.11) -/

/-- The operations 0x01, 0x02-0x09, 0x10-0x13, 0x18-0x1E and 0x20 of every class, and those of the Splints. -/
def opKnown (op : Nat) : Bool :=
  op == 1 || (decide (2 ≤ op) && decide (op ≤ 9)) || (decide (0x10 ≤ op) && decide (op ≤ 0x13)) ||
    (decide (0x18 ≤ op) && decide (op ≤ 0x1E)) || op == 0x20 || (decide (0x28 ≤ op) && decide (op ≤ 0x2A)) || op == 0x3F

/-- Fields that must be 0 are 0 (code 0x0B). -/
def zerosOk (w : U32) : Bool :=
  match ciOp w with
  | 0x06 | 0x07 | 0x08 => (ciImm w).toNat / 64 == 0
  | 0x1E => ciD w == 0 && ciA w == 0
  | 0x29 => ciD w == 0
  | 0x2A | 0x3F => w.toNat % 2 ^ 26 == 0
  | _ => true

def isBranch (w : U32) : Bool := decide (0x18 ≤ ciOp w) && decide (ciOp w ≤ 0x1E)

/-- The first instruction that breaks a rule. -/
def firstBad (ok : Nat → U32 → Bool) (code : List U32) : Option Nat :=
  let i := ((List.range code.length).zip code).findIdx fun p => !ok p.1 p.2
  if i < code.length then some i else none

/-- The rules about instructions, 0x09 to 0x0F: the code and the instruction of the first that is broken. -/
def verifyCode (cls : Nat) (code : List U32) : Option (Nat × Nat) :=
  let n := code.length
  let rule := fun (c : Nat) (ok : Nat → U32 → Bool) => (firstBad ok code).map fun i => (c, i)
  (rule 0x09 fun _ w => opKnown (ciOp w)).or <|
  (rule 0x0A fun _ w => cls == 0 || !(decide (0x28 ≤ ciOp w) && decide (ciOp w ≤ 0x2A))).or <|
  (rule 0x0B fun _ w => zerosOk w).or <|
  (rule 0x0C fun i w =>
    !isBranch w || (decide (0 ≤ (i : Int) + 1 + (ciImm w).toInt) && decide ((i : Int) + 1 + (ciImm w).toInt < n))).or <|
  (rule 0x0D fun _ w => isBranch w || [0x29, 0x2A, 0x3F].contains (ciOp w) || ciD w != 0).or <|
  (rule 0x0E fun i w => i + 1 != n || ciOp w == 0x3F || ciOp w == 0x1E).or <|
  rule 0x0F fun _ w => ciOp w != 0x20 || decide (16 ≤ w.toNat % 32)

/-- The reserved fields of the image's header are 0 (code 0x08). -/
def coilReservedOk (bs : List Byte) : Bool :=
  fieldAt bs 5 1 / 16 == 0 && fieldAt bs 6 2 == 0 && fieldAt bs 0xA 2 == 0 && fieldAt bs 0x14 0x2C == 0

/-- The code of an image. -/
def coilCode (bs : List Byte) : List U32 :=
  (List.range (fieldAt bs 8 2)).map fun i => BitVec.ofNat 32 (fieldAt bs (0x40 + 4 * i) 4)

/-- The lowest rule that an image of p1 bytes breaks, as DETAIL (06 R339). keyOk says that KEY_ID is installed, sigOk that
the signature verifies. -/
def verifyImage (bs : List Byte) (tenant : Nat) (keyOk sigOk : Bool) : Option Nat :=
  let count := fieldAt bs 8 2
  let cls := fieldAt bs 5 1 % 16
  if bs.length ≠ 64 + 4 * count + 96 then some 0x01
  else if fieldAt bs 0 4 ≠ 0x4C494F43 ∨ fieldAt bs 4 1 ≠ 3 then some 0x02
  else if 1 < cls then some 0x03
  else if count = 0 ∨ 4096 < count then some 0x04
  else if keyOk = false then some 0x05
  else if sigOk = false then some 0x06
  else if fieldAt bs 0x10 4 ≠ 0 ∧ fieldAt bs 0x10 4 ≠ tenant then some 0x07
  else if coilReservedOk bs = false then some 0x08
  else (verifyCode cls (coilCode bs)).map fun p => p.1 + 256 * p.2

end Sys2Proof.Machine
end

