-- ==== Sys2Proof/Machine/Fabric.lean ====
section
/-! DEFINITION. Sending on the fabric: packets and flits as bytes, routing, virtual channels and credits, and the tokens
of a tenant (chapter 11, 12 R620). -/

namespace Sys2Proof.Machine

/-! ### Numbers and groups -/

/-- x + 16y + 256z (11 R551). -/
def moduleOf (c : List Nat) : Nat := nthD 0 c 0 + 16 * nthD 0 c 1 + 256 * nthD 0 c 2

def coordsOf (m : Nat) : List Nat := [m % 16, m / 16 % 16, m / 256 % 16]

def myNumber (s : State) : Nat := moduleOf s.fabric.coords

/-- The incarnation of a module as known here: its own, or a peer's as last learned, 0 when none was. -/
def incarnOfModule (s : State) (m : Nat) : Byte :=
  if m = myNumber s then s.faults.moduleIncarnation
  else match s.fabric.peers.find? fun p => p.1 == m with | some p => p.2 | none => 0

/-- Offset of a module in a group along an axis, and the group's extent there (11 R572, R576). -/
def Group.extentOn (g : Group) (axis : Nat) : Nat := if g.axes / 2 ^ axis % 2 = 1 then bits g.extent (4 * axis + 3) (4 * axis) + 1 else 1

def Group.offsetOn (dims : List Nat) (g : Group) (m axis : Nat) : Nat :=
  if g.axes / 2 ^ axis % 2 = 1 then
    let d := Nat.max 1 (nthD 1 dims axis)
    (nthD 0 (coordsOf m) axis + d - bits g.origin (4 * axis + 3) (4 * axis) % d) % d
  else 0

/-- Ring position of a module, in snake order (11 R576). -/
def Group.position (dims : List Nat) (g : Group) (m : Nat) : Nat :=
  let o := fun a => g.offsetOn dims m a
  let e := fun a => g.extentOn a
  let q1 := if o 2 % 2 = 0 then o 1 else e 1 - 1 - o 1
  let line := o 2 * e 1 + q1
  let q0 := if line % 2 = 0 then o 0 else e 0 - 1 - o 0
  line * e 0 + q0

/-- The members of a group as the joining module sees them (11 R572), in ascending module number. -/
def groupMembers (dims : List Nat) (coords : List Nat) (g : Group) : List Nat :=
  (List.range 4096).filter fun m =>
    let c := coordsOf m
    (List.range 3).all fun a =>
      decide (nthD 0 c a < nthD 1 dims a) &&
        (if g.axes / 2 ^ a % 2 = 1 then decide (g.offsetOn dims m a < g.extentOn a) else nthD 0 c a == nthD 0 coords a)

def Group.size (g : Group) : Nat := g.extentOn 0 * g.extentOn 1 * g.extentOn 2

/-- The module at a ring position. -/
def Group.memberAt (dims : List Nat) (g : Group) (p : Nat) : Option Nat := g.members.find? fun m => g.position dims m == p

def findGroup (c : Context) (handle : Nat) : Option Group := c.groups.find? fun g => g.handle == handle

def setGroup (s : State) (sess : U32) (handle : Nat) (f : Group → Group) : State :=
  setCtx s sess fun c => { c with groups := mapIf (fun g => g.handle == handle) f c.groups }

/-- The group and context to which a packet belongs (11 R565). -/
def groupOfPacket (s : State) (p : Packet) : Option (Context × Group) :=
  s.contexts.findSome? fun c => (c.groups.find? fun g => g.gid == p.groupId.toNat && g.jobTag == p.jobTag).map fun g => (c, g)

/-! ### Bytes of packets and flits -/

/-- The 48-B header and the data (11 Table 11.5). -/
def packetBytes (p : Packet) : List Byte :=
  [p.type, BitVec.ofNat 8 ((if p.last then 1 else 0) + (if p.sig then 2 else 0))] ++ leBytes 2 p.data.length ++
    leBytes 4 (p.srcMod.toNat + 4096 * p.dstMod.toNat + 2 ^ 24 * p.incarn.toNat) ++ leBytes 4 p.jobTag.toNat ++
    leBytes 2 p.groupId.toNat ++ leBytes 2 p.stream.toNat ++ leBytes 4 p.msg.toNat ++ leBytes 4 p.index.toNat ++
    leBytes 4 p.packets.toNat ++ leBytes 4 p.step.toNat ++ leBytes 8 p.a.toNat ++ leBytes 8 p.b.toNat ++ p.data

def decodePacket (bs : List Byte) : Packet :=
  let f := fieldAt bs
  { type := BitVec.ofNat 8 (f 0 1), last := f 1 1 % 2 == 1, sig := f 1 1 / 2 % 2 == 1, srcMod := BitVec.ofNat 12 (f 4 4),
    dstMod := BitVec.ofNat 12 (f 4 4 / 4096), incarn := BitVec.ofNat 8 (f 7 1), jobTag := BitVec.ofNat 32 (f 8 4),
    groupId := BitVec.ofNat 16 (f 0xC 2), stream := BitVec.ofNat 16 (f 0xE 2), msg := BitVec.ofNat 32 (f 0x10 4),
    index := BitVec.ofNat 32 (f 0x14 4), packets := BitVec.ofNat 32 (f 0x18 4), step := BitVec.ofNat 32 (f 0x1C 4),
    a := BitVec.ofNat 64 (f 0x20 8), b := BitVec.ofNat 64 (f 0x28 8), data := (bs.drop 48).take (f 2 2) }

/-- Class of a packet type (11 Table 11.6): 0 CONTROL, 1 REQUEST, 2 REPLY, 3 BULK; none when reserved. -/
def classOf : Nat → Option Nat
  | 0x01 | 0x02 | 0x0A | 0x0B | 0x0C => some 3
  | 0x04 | 0x06 | 0x08 => some 1
  | 0x05 | 0x07 | 0x09 | 0x0F | 0x10 => some 2
  | 0x03 | 0x0D | 0x0E | 0x11 | 0x12 | 0x13 | 0x14 => some 0
  | _ => none

/-- A flit (11 Table 11.3). -/
def flitBytes (seq ack vc kind : Nat) (start fin : Bool) (crVc crCount : Nat) (body : List Byte) : List Byte :=
  let h := seq + 2 ^ 12 * ack + 2 ^ 24 * vc + 2 ^ 27 * kind + (if start then 2 ^ 29 else 0) + (if fin then 2 ^ 30 else 0) +
    2 ^ 32 * crVc + 2 ^ 35 * crCount
  let b := leBytes 8 h ++ (body ++ List.replicate (244 - body.length) 0).take 244
  b ++ leBytes 4 (crc32 b)

/-- Cut a packet into bodies with their START and END marks (11 R563). -/
def bodiesFrom : Nat → Bool → List Byte → List (List Byte × Bool × Bool)
  | 0, _, _ => []
  | n + 1, start, bs =>
    if bs.length ≤ 244 then [(bs, start, true)] else (bs.take 244, start, false) :: bodiesFrom n false (bs.drop 244)

/-- Receive slots of each virtual channel (11 Table 11.4). -/
def vcSlots (vc : Nat) : Nat := nthD 0 [32, 32, 96, 96, 128, 128, 256, 256] vc

def fullCredits : List Nat := [32, 32, 96, 96, 128, 128, 256, 256]

/-! ### Ports -/

def findPort (s : State) (n : Nat) : Option Port := s.fabric.ports.find? fun p => p.num == n

def setPort (s : State) (n : Nat) (f : Port → Port) : State :=
  { s with fabric := { s.fabric with ports := mapIf (fun p => p.num == n) f s.fabric.ports } }

/-- Port number of an axis, a direction and a plane, in the order of 11 R602. -/
def portNo (axis : Nat) (neg : Bool) (plane : Nat) : Nat := 4 * axis + (if neg then 2 else 0) + plane

def pairPort (n : Nat) : Nat := if n % 2 = 0 then n + 1 else n - 1

def portUp (s : State) (n : Nat) : Bool :=
  match findPort s n with
  | some p => decide (p.state = .up ∨ p.state = .held)
  | none => false

/-- The link of a module along an axis and direction is live in either plane under the link-state map (11 R567). -/
def linkLive (s : State) (m axis : Nat) (neg : Bool) : Bool :=
  if m = myNumber s then portUp s (portNo axis neg 0) || portUp s (portNo axis neg 1)
  else match s.fabric.links.find? fun l => l.1 == m with
    | some l => l.2.getLsbD (portNo axis neg 0) || l.2.getLsbD (portNo axis neg 1)
    | none => true

def moveOn (dims : List Nat) (m axis : Nat) (neg : Bool) : Nat :=
  let d := Nat.max 1 (nthD 1 dims axis)
  let c := coordsOf m
  moduleOf (modifyAt (fun x => if neg then (x + d - 1) % d else (x + 1) % d) axis c)

/-- Every link of n hops from a module is live. -/
def pathLive (s : State) (axis : Nat) (neg : Bool) : Nat → Nat → Bool
  | 0, _ => true
  | n + 1, m => linkLive s m axis neg && pathLive s axis neg n (moveOn s.fabric.dims m axis neg)

/-- Axis and direction of the next hop from a module to another (11 R567); none when unreachable. -/
def nextHop (s : State) (src dst : Nat) : Option (Nat × Bool) :=
  let one := fun (axis : Nat) =>
    let d := Nat.max 1 (nthD 1 s.fabric.dims axis)
    let a := nthD 0 (coordsOf src) axis % d
    let b := nthD 0 (coordsOf dst) axis % d
    (a, b, (b + d - a) % d, (a + d - b) % d)
  match (List.range 3).find? fun axis => (one axis).2.2.1 != 0 with
  | none => none
  | some axis =>
    let o := one axis
    let p := o.2.2.1
    let n := o.2.2.2
    if p < n then (if pathLive s axis false p src then some (axis, false) else none)
    else if n < p then (if pathLive s axis true n src then some (axis, true) else none)
    else if pathLive s axis false p src then some (axis, false)
    else if pathLive s axis true n src then some (axis, true)
    else none

/-- The plane a source chooses (11 R568): the first-hop port with more free credits, the sending half's on a tie; a port
that is not up gives way to its pair. -/
def choosePort (s : State) (axis : Nat) (neg : Bool) (h : Half) : Option Nat :=
  let free := fun (n : Nat) => match findPort s n with
    | some p => if p.state = PortState.up ∨ p.state = PortState.held then some (sumNat p.credits) else none
    | none => none
  match free (portNo axis neg 0), free (portNo axis neg 1) with
  | some a, some b => if b < a then some (portNo axis neg 0) else if a < b then some (portNo axis neg 1) else some (portNo axis neg h.num)
  | some _, none => some (portNo axis neg 0)
  | none, some _ => some (portNo axis neg 1)
  | none, none => none

/-- The classes in the weighted round of 11 R562: REQUEST, REPLY four times, BULK three times. -/
def roundOf (turn : Nat) : Nat := nthD 1 [1, 2, 2, 2, 2, 3, 3, 3] (turn % 8)

/-- The first waiting flit of a class whose channel has a credit; flits of one channel keep their order. -/
def nextOfClass (p : Port) (cls : Nat) : Option (Nat × List Byte × Bool × Bool) :=
  ([2 * cls, 2 * cls + 1].filterMap fun vc => p.waiting.find? fun w => w.1 == vc).find? fun w => decide (0 < nthD 0 p.credits w.1)

/-- The flit to send next and the turn after it. -/
def pickFlit (p : Port) : Option ((Nat × List Byte × Bool × Bool) × Nat) :=
  match nextOfClass p 0 with
  | some w => some (w, p.turn)
  | none =>
    (List.range 8).findSome? fun k => (nextOfClass p (roundOf (p.turn + k))).map fun w => (w, (p.turn + k + 1) % 8)

/-- Credits to be returned with a flit: those of the first channel that has any. -/
def takeFreed (p : Port) : Nat × Nat × List (Nat × Nat) :=
  match p.freed with
  | [] => (0, 0, [])
  | (vc, n) :: t => if n ≤ 255 then (vc, n, t) else (vc, 255, (vc, n - 255) :: t)

/-- Send one flit (11 R554, R555, R561): sequenced, kept for retry, one credit used. -/
def sendFlit (w : Nat × List Byte × Bool × Bool) (turn : Nat) (p : Port) : Port :=
  let fr := takeFreed p
  let f := flitBytes p.nextSeq.toNat p.expected.toNat w.1 1 w.2.2.1 w.2.2.2 fr.1 fr.2.1 w.2.1
  { p with nextSeq := p.nextSeq + 1, retry := p.retry ++ [(p.nextSeq, f)], out := p.out ++ [f], turn := turn, freed := fr.2.2,
           credits := modifyAt (fun c => c - 1) w.1 p.credits, waiting := p.waiting.erase w }

/-- Send waiting flits while credits and the retry buffer allow; none while the port is held (11 R555, R558). -/
def pumpPort : Nat → Port → Port
  | 0, p => p
  | n + 1, p =>
    if p.state = .up ∧ p.retry.length < 4095 then
      match pickFlit p with
      | some (w, t) => pumpPort n (sendFlit w t p)
      | none => p
    else p

def pump (s : State) (n : Nat) : State := setPort s n fun p => pumpPort p.waiting.length p

/-- An IDLE flit carries the acknowledgement and credits when no data flows (11 R554). -/
def idleOut (p : Port) : Port :=
  let fr := takeFreed p
  if fr.2.1 = 0 ∨ (p.state ≠ .up ∧ p.state ≠ .held) then p
  else { p with freed := fr.2.2, out := p.out ++ [flitBytes p.nextSeq.toNat p.expected.toNat 0 0 false false fr.1 fr.2.1 []] }

/-- Put a packet on a port's channel. odd says that the packet has crossed the wrap link of the axis (11 R569). -/
def enqueue (s : State) (port : Nat) (odd : Bool) (p : Packet) : State :=
  match classOf p.type.toNat with
  | none => s
  | some cls =>
    let vc := 2 * cls + (if odd then 1 else 0)
    let fl := (bodiesFrom 17 true (packetBytes p)).map fun b => (vc, b.1, b.2.1, b.2.2)
    pump (setPort s port fun q => { q with waiting := q.waiting ++ fl }) port

/-! ### Sending -/

/-- Bytes charged to the fabric bucket (12 R620). -/
def packetCost (p : Packet) : Nat := if classOf p.type.toNat = some 0 then 0 else 48 + p.data.length

/-- The packet leaves by its route; one for this module is received here; false says that there is no route. -/
def dispatchPacket (s : State) (h : Half) (p : Packet) : State × Bool :=
  if p.dstMod.toNat = myNumber s then ({ s with fabric := { s.fabric with received := s.fabric.received ++ [p] } }, true)
  else
    match nextHop s (myNumber s) p.dstMod.toNat with
    | none => (s, false)
    | some (axis, neg) =>
      match choosePort s axis neg h with
      | none => (s, false)
      | some n => (enqueue s n false p, true)

/-- The tenant of a packet of this module, by its group. -/
def packetTenant (s : State) (p : Packet) : Option U32 :=
  (s.contexts.find? fun c => c.groups.any fun g => g.jobTag == p.jobTag && BitVec.ofNat 16 g.gid == p.groupId).map fun c => c.tenant

/-- Earlier packets of the tenant wait for tokens; what follows keeps its order. -/
def packetsWait (s : State) (tenant : U32) : Bool := s.fabric.sent.any fun p => packetTenant s p == some tenant

/-- Send a packet of a tenant, charged to its bucket; without tokens it waits (12 R620, R621). -/
def sendPacket (s : State) (tenant : U32) (h : Half) (p : Packet) : State × Bool :=
  let t := findTenant s tenant
  match t.fabricTokens with
  | none => dispatchPacket s h p
  | some k =>
    if (packetCost p ≤ k ∧ packetsWait s tenant = false) ∨ packetCost p = 0 then
      dispatchPacket (setTenant s tenant fun t => { t with fabricTokens := some (k - packetCost p) }) h p
    else ({ s with fabric := { s.fabric with sent := s.fabric.sent ++ [p] } }, true)

/-- Packets that waited for tokens are sent, in order, while their tenants have them (12 R621). -/
def sendWaiting : List Packet → State → State
  | [], s => s
  | p :: t, s =>
    match packetTenant s p with
    | none => sendWaiting t (dispatchPacket s .west p).1
    | some x => sendWaiting t (sendPacket s x .west p).1

def drainWaiting (s : State) : State := sendWaiting s.fabric.sent { s with fabric := { s.fabric with sent := [] } }

/-- The header the module stamps for a group (12 R624). -/
def newPacket (s : State) (g : Group) (type dst : Nat) : Packet :=
  { type := BitVec.ofNat 8 type, last := true, sig := false, srcMod := BitVec.ofNat 12 (myNumber s), dstMod := BitVec.ofNat 12 dst,
    incarn := incarnOfModule s dst, jobTag := g.jobTag, groupId := BitVec.ofNat 16 g.gid, stream := 0, msg := 0, index := 0,
    packets := 1, step := 0, a := 0, b := 0, data := [] }

/-- Send one packet of a context's group; a missing route is left to the caller. -/
def sendFrom (s : State) (c : Context) (h : Half) (p : Packet) : State × Bool := sendPacket s c.tenant h p

/-- Send data as the packets of one message, 4,096 B each (11 R563, R564). -/
def sendMessage (s : State) (c : Context) (h : Half) (p : Packet) (data : List Byte) : State × Bool :=
  let n := Nat.max 1 (ceilDiv data.length 4096)
  (List.range n).foldl (fun r i =>
    let d := (data.drop (4096 * i)).take 4096
    let q := { p with index := BitVec.ofNat 32 i, packets := BitVec.ofNat 32 n, last := i + 1 == n, data := d }
    let t := sendFrom r.1 c h q
    (t.1, r.2 && t.2)) (s, true)

/-- A refusal of a received message (11 Table 11.6). -/
def refusePacket (s : State) (tenant : U32) (p : Packet) (code : Nat) : State :=
  (sendPacket s tenant .west
    { p with type := 0x0F, last := true, sig := false, srcMod := BitVec.ofNat 12 (myNumber s), dstMod := p.srcMod,
             incarn := incarnOfModule s p.srcMod.toNat, index := 0, packets := 1,
             a := BitVec.ofNat 64 (code + 65536 * p.type.toNat), b := 0, data := [] }).1

/-- Take a packet out of those received. -/
def takePacket (s : State) (p : Packet) : State := { s with fabric := { s.fabric with received := s.fabric.received.erase p } }

/-- Put a packet back, first, to be taken again later. -/
def keepPacket (s : State) (p : Packet) : State := { s with fabric := { s.fabric with received := s.fabric.received ++ [p] } }

/-- The port cut from a destination, for HW_ERROR (11 R570): the first hop's, in plane 0. -/
def cutPort (s : State) (dst : Nat) : Nat :=
  let axis := ((List.range 3).find? fun a => nthD 0 (coordsOf dst) a != nthD 0 s.fabric.coords a).getD 0
  let d := Nat.max 1 (nthD 1 s.fabric.dims axis)
  let p := (nthD 0 (coordsOf dst) axis + d - nthD 0 s.fabric.coords axis) % d
  0xC000 + portNo axis (decide (d < 2 * p)) 0

/-- The data of a message of which p is a packet, put together with the packets of it that wait here, and the state without
those; none while some are missing (11 R564). -/
def wholeMessage (s : State) (p : Packet) : Option (List Byte × State) :=
  if p.packets.toNat ≤ 1 then some (p.data, s)
  else
    let same := fun (q : Packet) => q.type == p.type && q.srcMod == p.srcMod && q.jobTag == p.jobTag && q.groupId == p.groupId &&
      q.stream == p.stream && q.msg == p.msg && q.step == p.step && q.packets == p.packets
    let others := (s.fabric.received.filter fun q => same q && q.index != p.index)
    let parts := (List.range p.packets.toNat).map fun i => (p :: others).find? fun q => q.index.toNat == i
    if parts.all fun x => x.isSome then
      some (parts.flatMap fun x => match x with | some q => q.data | none => [],
        { s with fabric := { s.fabric with received := s.fabric.received.filter fun q => !same q } })
    else none

/-- What becomes of a packet before its own row's effect (11 R565, R566): dropped without a group; answered or dropped
for an older incarnation; else handed on. -/
def withPacket (s : State) (p : Packet) (type : Nat) (f : State → Context → Group → State) : State :=
  if p.type.toNat ≠ type ∨ p.dstMod.toNat ≠ myNumber s then s
  else
    let s1 := takePacket s p
    match groupOfPacket s1 p with
    | none => { s1 with fabric := { s1.fabric with tagDrops := s1.fabric.tagDrops + 1 } }
    | some (c, g) =>
      if p.incarn ≠ s1.faults.moduleIncarnation then
        (if classOf type = some 1 ∨ classOf type = some 3 then refusePacket s1 c.tenant p 0x0003
         else if classOf type = some 2 then setCtx s1 c.sess fun c => { c with fabricCtr := bump c.fabricCtr 15 1 }
         else s1)
      else f s1 c g

/-- Work that a packet asks of a context makes it resident first; while it waits for a slot the packet is kept (12 R610,
R615). -/
def withResident (s : State) (p : Packet) (c : Context) (f : State → Context → State) : State :=
  let a := activateByPacket s c.sess
  if a.2 then (match findCtx a.1 c.sess with | some c' => f a.1 c' | none => a.1) else keepPacket a.1 p

end Sys2Proof.Machine
end

