-- ==== Sys2Proof/Machine/Optim.lean ====
section
/-! DEFINITION. The optimiser: the update of one element, of a row with its MB8 moments, and the hyperparameter record
(chapter 08). -/

namespace Sys2Proof.Machine

/-- An FP32 value with the flags raised on the way to it: NF_IN by the operands read, the rest by the operations (04 R225). -/
abbrev FV := U32 × Fl

def FV.of (x : U32) : FV := (x, (fp32 x).nf)
def FV.add (a b : FV) : FV := let r := fadd a.1 b.1; (r.1, a.2 ||| b.2 ||| arrayFl r.2)
def FV.sub (a b : FV) : FV := let r := fsub a.1 b.1; (r.1, a.2 ||| b.2 ||| arrayFl r.2)
def FV.mul (a b : FV) : FV := let r := fmul a.1 b.1; (r.1, a.2 ||| b.2 ||| arrayFl r.2)
def FV.div (a b : FV) : FV := let r := fdiv a.1 b.1; (r.1, a.2 ||| b.2 ||| arrayFl r.2)
def FV.sqrt (a : FV) : FV := let r := fsqrt a.1; (r.1, a.2 ||| arrayFl r.2)

/-- The values of a hyperparameter record that the update uses, and inv_scale (08 Table 8.4, R411). -/
structure Hyper where
  lr : U32
  b1 : U32
  b2 : U32
  eps : U32
  wd : U32
  bc1 : U32
  bc2 : U32
  inv : U32
  deriving DecidableEq, Repr

def Hyper.ofBytes (bs : List Byte) (inv : U32) : Hyper :=
  let f := fun off => BitVec.ofNat 32 (fieldAt bs off 4)
  { lr := f 0, b1 := f 4, b2 := f 8, eps := f 0xC, wd := f 0x10, bc1 := f 0x14, bc2 := f 0x18, inv := inv }

def RingEntry.hyper (e : RingEntry) : Hyper :=
  { lr := e.lr, b1 := e.beta1, b2 := e.beta2, eps := e.eps, wd := e.wd, bc1 := e.bc1, bc2 := e.bc2, inv := e.invScale }

/-- The ring entry that table mode writes (08 R417). -/
def Hyper.ring (h : Hyper) (step pgroup : Nat) : RingEntry :=
  { step := step, pgroup := pgroup, lr := h.lr, beta1 := h.b1, beta2 := h.b2, eps := h.eps, wd := h.wd, bc1 := h.bc1,
    bc2 := h.bc2, invScale := h.inv }

/-- inv_scale of a loss scale (08 R411). -/
def invScale (ls : U32) : U32 := (fdiv 0x3F800000 ls).1

/-- The optimisers with a first moment m and with a second moment v (08 Table 8.3). -/
def hasM (code : Nat) : Bool := code == 2 || code == 3 || code == 7 || code == 8
def hasV (code : Nat) : Bool := code == 4 || code == 5 || code == 6 || code == 7 || code == 8

/-- The gradient without the loss scale, decayed (08 R411). -/
def optGrad (code : Nat) (h : Hyper) (w g : U32) : FV :=
  let g1 := FV.mul (FV.of g) (FV.of h.inv)
  if code ≠ 8 ∧ (fp32 h.wd).isZero = false then FV.add g1 (FV.mul (FV.of h.wd) (FV.of w)) else g1

/-- v_row of row-wise Adagrad after a row (08 R412). -/
def optRowV (vrow : U32) (gs : List U32) : FV :=
  let sq := gs.map fun g => FV.mul (g, 0) (g, 0)
  let s : FV := match sq with
    | [] => FV.of 0
    | x :: t => t.foldl FV.add x
  FV.add (FV.of vrow) (FV.div s (fofNat gs.length, 0))

/-- The new w, m and v of one element (08 R411); g comes from optGrad, and for row-wise Adagrad v is the row's new v_row. -/
def optElem (code : Nat) (h : Hyper) (w m v : U32) (g : FV) : U32 × U32 × U32 × Fl :=
  let c := FV.of
  let g2 := FV.mul g g
  let mom := FV.add (FV.mul (c h.b1) (c m)) g
  let vRms := FV.add (FV.mul (c h.b2) (c v)) (FV.mul (FV.sub (c 0x3F800000) (c h.b2)) g2)
  let mAdam := FV.add (FV.mul (c h.b1) (c m)) (FV.mul (FV.sub (c 0x3F800000) (c h.b1)) g)
  let byRoot := fun (v : FV) => FV.div g (FV.add (FV.sqrt v) (c h.eps))
  let r : FV × FV × FV := match code with
    | 2 => (mom, mom, c v)
    | 3 => (FV.add g (FV.mul (c h.b1) mom), mom, c v)
    | 4 => let v1 := FV.add (c v) g2; (byRoot v1, c m, v1)
    | 5 => (byRoot (v, 0), c m, (v, 0))
    | 6 => (byRoot vRms, c m, vRms)
    | 7 | 8 =>
      let u := FV.div (FV.div mAdam (c h.bc1)) (FV.add (FV.sqrt (FV.div vRms (c h.bc2))) (c h.eps))
      let u' := if code = 8 ∧ (fp32 h.wd).isZero = false then FV.add u (FV.mul (c h.wd) (c w)) else u
      (u', mAdam, vRms)
    | _ => (g, c m, c v)
  let w1 := FV.sub (c w) (FV.mul (c h.lr) r.1)
  (w1.1, r.2.1.1, r.2.2.1, w1.2 ||| r.2.1.2 ||| r.2.2.2)

/-- The FP32 values of k MB8 blocks, and the flags of reading them. -/
def mb8Values (bs : List Byte) (k : Nat) : List U32 × Fl :=
  let r := mb8Blocks k bs
  (r.1.map fun x => (toFp32 x).1, r.2)

/-- Encode values as MB8 blocks of 32, element i rounded stochastically with bits i (08 R413, 04 R195). -/
def mb8Store (sqrtMode : Bool) (bits : Nat → U16) : Nat → Nat → List U32 → List Byte × Fl
  | 0, _, _ => ([], 0)
  | fuel + 1, i, vs =>
    if vs = [] then ([], 0)
    else
      let blk := (vs.take 32).zip ((List.range 32).map fun k => bits (i + k))
      let b := mb8Encode sqrtMode (blk.map fun p => (fp32 p.1, Round.stochastic p.2.toNat))
      let t := mb8Store sqrtMode bits fuel (i + 32) (vs.drop 32)
      (b.1 ++ t.1, b.2 ||| t.2)

/-- Encode weights in a format, element i rounded stochastically with bits i (08 R413). -/
def storeWeights (fmt : Nat) (bits : Nat → U16) (ws : List U32) : List Nat × Fl :=
  let cs := ((List.range ws.length).zip ws).map fun p => encodeElem fmt (.stochastic (bits p.1).toNat) false (fp32 p.2)
  (cs.map fun k => k.code, cs.foldl (fun a k => a ||| k.fl) 0)

/-- A run of elements updated: weights, m, v, and the flags. -/
def optRun (code : Nat) (h : Hyper) (ws ms vs gs : List U32) : List U32 × List U32 × List U32 × Fl :=
  let gfs := (ws.zip gs).map fun p => optGrad code h p.1 p.2
  let fl0 : Fl := (ws ++ gs ++ ms).foldl (fun a x => a ||| (fp32 x).nf) 0
  let rs := (List.range ws.length).map fun i =>
    optElem code h (nthD 0 ws i) (nthD 0 ms i) (nthD 0 vs i) (nthD (0, 0) gfs i)
  (rs.map fun r => r.1, rs.map fun r => r.2.1, rs.map fun r => r.2.2.1, rs.foldl (fun a r => a ||| r.2.2.2) fl0)

/-- A pool record updated for a gradient of a step (08 R411-R413, 09 R478, 05 R271): the new record and the flags. The
rounding bits of v_row are those of element 0 of a second moment. -/
def optRecord (t : Table) (h : Hyper) (g : PlaitState) (pool step : Nat) (rec : List Byte) (grad : List U32) : List Byte × Fl :=
  let e := t.elems
  let code := t.optimiser
  let w := unpack t.fmt e (rec.take t.rowBytes)
  let ws := w.1.map fun x => (toFp32 x).1
  let st := rec.drop t.rowBytes
  let k := e / 32
  let bits := fun i => g.row pool step i
  let m := if hasM code then mb8Values st k else ([], 0)
  let vOff := if hasM code then 34 * k else 0
  if code = 5 then
    let v := mb8Values st 1
    let gfs := (ws.zip grad).map fun p => optGrad code h p.1 p.2
    let vr := optRowV (nthD 0 v.1 0) (gfs.map fun x => x.1)
    let r := optRun code h ws [] (List.replicate e vr.1) grad
    let wc := storeWeights t.fmt bits r.1
    let sv := mb8Store true (fun i => bits (2 ^ 16 + i)) 1 0 (vr.1 :: List.replicate 31 0)
    (packCodes t.fmt wc.1 ++ sv.1 ++ rec.drop (t.rowBytes + 34), w.2 ||| v.2 ||| vr.2 ||| r.2.2.2 ||| wc.2 ||| sv.2)
  else
    let v := if hasV code then mb8Values (st.drop vOff) k else ([], 0)
    let r := optRun code h ws m.1 v.1 grad
    let wc := storeWeights t.fmt bits r.1
    let sm := if hasM code then mb8Store false (fun i => bits (2 ^ 15 + i)) k 0 r.2.1 else ([], 0)
    let sv := if hasV code then mb8Store true (fun i => bits (2 ^ 16 + i)) k 0 r.2.2.1 else ([], 0)
    (packCodes t.fmt wc.1 ++ sm.1 ++ sv.1 ++ rec.drop (t.rowBytes + stateBytes code e),
      w.2 ||| m.2 ||| v.2 ||| r.2.2.2 ||| wc.2 ||| sm.2 ||| sv.2)

/-- The sum of a row's contributions of a step (09 R495): ascending sender, and within a sender in its order. -/
def contribSum (cs : List Contribution) : List U32 × Fl :=
  match sortBy (fun a b => decide (a.sender < b.sender) || (a.sender == b.sender && decide (a.seq < b.seq))) cs with
  | [] => ([], 0)
  | x :: t => t.foldl (fun acc c =>
      let s := (acc.1.zip c.grad).map fun p => midAdd p.1 p.2
      (s.map fun p => p.1, s.foldl (fun a p => a ||| p.2) acc.2)) (x.grad, 0)

end Sys2Proof.Machine
end

