-- ==== Sys2Proof/Machine/Steps.lean ====
section
/-! DEFINITION. Two-version regions and the state of a training step: provisional writes, commit, skip, revert and
settle (chapter 08). -/

namespace Sys2Proof.Machine

/-! ### Regions -/

def setRegion (s : State) (sess : U32) (base : Nat) (f : Region → Region) : State :=
  setCtx s sess fun c => { c with regions := mapIf (fun r => r.base == base) f c.regions }

/-- Elements of l that occur an odd number of times over both lists. -/
def symDiff (a b : List Nat) : List Nat := (a.filter fun x => !b.contains x) ++ b.filter fun x => !a.contains x

/-- A commit makes the provisional granules committed (08 R435, R437); the previous versions are kept until the settle
(R438). -/
def Region.commit (step : Nat) (r : Region) : Region :=
  { r with inShadow := symDiff r.inShadow r.provisional, unsettled := r.unsettled ++ r.provisional.map (fun g => (g, step)),
           provisional := [] }

/-- A skip discards the provisional granules (08 R435). -/
def Region.skip (r : Region) : Region := { r with provisional := [] }

/-- A revert restores the previous versions of the granules that a step flipped (08 R441). -/
def Region.revert (step : Nat) (r : Region) : Region :=
  let gs := (r.unsettled.filter fun u => u.2 == step).map fun u => u.1
  { r with inShadow := symDiff r.inShadow gs, unsettled := r.unsettled.filter fun u => u.2 != step }

/-- The settle of a step drops its previous versions (08 R438). -/
def Region.settle (step : Nat) (r : Region) : Region := { r with unsettled := r.unsettled.filter fun u => u.2 != step }

/-- The granules of a span of a region. -/
def Region.granules (r : Region) (va n : Nat) : List Nat :=
  if n = 0 then [] else (List.range ((va + n - 1 - r.base) / 256 - (va - r.base) / 256 + 1)).map fun i => (va - r.base) / 256 + i

/-- A write to a granule whose flip is not settled must wait (08 R439). -/
def Region.unsettledIn (r : Region) (va n : Nat) : Bool := (r.granules va n).any fun g => r.unsettled.any fun u => u.1 == g

/-- Copy the committed version of a granule into its inactive version (08 R424). -/
def copyGranule (s : State) (sess : U32) (r : Region) (g : Nat) : State :=
  match findCtx s sess with
  | none => s
  | some c =>
    let va := r.base + 256 * g
    match readVa s c .inner (r.committed va) (Nat.min 256 (r.bytes - 256 * g)) with
    | .error _ => s
    | .ok bs => putBytes s c .inner (r.inactive va) bs

/-- Before a write of part of a granule that is not yet provisional, the committed version is copied; the granule becomes
provisional either way (08 R424). -/
def touchGranule (s : State) (sess : U32) (base va n g : Nat) : State :=
  match findCtx s sess with
  | none => s
  | some c =>
    match c.regions.find? fun r => r.base == base with
    | none => s
    | some r =>
      if r.provisional.contains g then s
      else
        let gva := base + 256 * g
        let whole := decide (va ≤ gva ∧ gva + 256 ≤ va + n)
        let s1 := if whole then s else
          setCtx (copyGranule s sess r g) sess fun c => { c with rimCtr := bump c.rimCtr 11 1 }
        setRegion s1 sess base fun r => { r with provisional := g :: r.provisional }

/-- A provisional write of the optimiser into a region (08 R424). The caller has seen that no granule waits (R439). -/
def optWrite (s : State) (sess : U32) (r : Region) (va : Nat) (bs : List Byte) : State :=
  let s1 := (r.granules va bs.length).foldl (fun st g => touchGranule st sess r.base va bs.length g) s
  match findCtx s1 sess with
  | none => s1
  | some c =>
    ((List.range bs.length).zip bs).foldl (fun st p =>
      putByte st c .inner (r.inactive (va + p.1)) p.2) s1

/-! ### Row-cache ways (09 R483) -/

def CacheWay.commit (step : Nat) (w : CacheWay) : CacheWay :=
  match w.provisional with
  | none => w
  | some p => { w with committed := p, provisional := none, previous := some (step, w.committed), dirty := true }

def CacheWay.skip (w : CacheWay) : CacheWay := { w with provisional := none }

def CacheWay.revert (step : Nat) (w : CacheWay) : CacheWay :=
  match w.previous with
  | some (t, old) => if t = step then { w with committed := old, previous := none } else w
  | none => w

def CacheWay.settle (step : Nat) (w : CacheWay) : CacheWay :=
  match w.previous with
  | some (t, _) => if t = step then { w with previous := none } else w
  | none => w

def mapWays (f : CacheWay → CacheWay) (c : Context) : Context :=
  { c with tables := c.tables.map fun t => { t with tier := t.tier.map fun x => { x with ways := x.ways.map f } } }

/-! ### A step of a context -/

/-- The granules that a decision of the pending step would flip or discard. -/
def pendingGranules (c : Context) : Nat :=
  sumNat (c.regions.map fun r => r.provisional.length) +
    sumNat (c.tables.map fun t => match t.tier with
      | none => 0
      | some x => sumNat (x.ways.map fun w => if w.provisional.isSome then ceilDiv t.stride 256 else 0))

/-- Discard the step's contributions that came after the optimiser had passed their rows (09 R497). -/
def dropLate (step : Nat) (c : Context) : Context :=
  let late := c.contributions.filter fun x => x.step == step
  { c with contributions := c.contributions.filter (fun x => x.step != step), memCtr := bump c.memCtr 12 late.length }

/-- Commit the pending step (08 R435): granules, ways and the ring entry. -/
def commitCtx (step : Nat) (c : Context) : Context :=
  let n := pendingGranules c
  let c1 := mapWays (CacheWay.commit step) { c with regions := c.regions.map (Region.commit step) }
  let ring := match c.ringProvisional with
    | none => c1.ring
    | some e => e :: c1.ring.filter fun x => x.step % 64 != e.step % 64
  let valid := match c.ringProvisional with
    | none => c1.rim.ringValid
    | some e => c1.rim.ringValid ||| BitVec.ofNat 64 (2 ^ (e.step % 64))
  dropLate step { c1 with ring := ring, ringProvisional := none, decided := step :: c1.decided,
                          rimCtr := bump (bump c1.rimCtr 6 1) 10 n,
                          rim := { c1.rim with pending := 0, lastDecided := step, ringValid := valid } }

/-- Skip the pending step (08 R435): provisional versions and the ring entry are discarded. -/
def skipCtx (step : Nat) (c : Context) : Context :=
  let c1 := mapWays CacheWay.skip { c with regions := c.regions.map Region.skip }
  dropLate step { c1 with ringProvisional := none, decided := step :: c1.decided, rim := { c1.rim with pending := 0, lastDecided := step } }

/-- Revert a committed step that has not settled (08 R441). -/
def revertCtx (step : Nat) (c : Context) : Context :=
  let c1 := mapWays (CacheWay.revert step) { c with regions := c.regions.map (Region.revert step) }
  { c1 with ring := c1.ring.filter fun e => e.step != step, settles := c1.settles.filter fun x => x.step != step,
            rim := { c1.rim with ringValid := c1.rim.ringValid &&& ~~~(BitVec.ofNat 64 (2 ^ (step % 64))) },
            rimCtr := bump (bump c1.rimCtr 8 1) 9 1 }

/-- The settle of a step completes, or the step becomes final: the previous versions are dropped (08 R438, 10 R516). -/
def settleCtx (step : Nat) (c : Context) : Context :=
  let c1 := mapWays (CacheWay.settle step) { c with regions := c.regions.map (Region.settle step) }
  { c1 with settles := c1.settles.filter fun x => x.step != step }

/-- Drop the deferred-update log entries of a step of a context, counted (08 R435, 10 R520). -/
def dropLogStep (s : State) (sess : U32) (step : Nat) : State :=
  let gone := s.tier.log.filter fun e => e.sess == sess && e.step == step
  setCtx { s with tier := { s.tier with log := s.tier.log.filter fun e => !(e.sess == sess && e.step == step) } } sess
    fun c => { c with tierCtr := bump c.tierCtr 5 gone.length }

/-- Skip a context's pending step, log entries included (08 R435). -/
def skipStep (s : State) (sess : U32) (step : Nat) : State := dropLogStep (setCtx s sess (skipCtx step)) sess step

def revertStep (s : State) (sess : U32) (step : Nat) : State := dropLogStep (setCtx s sess (revertCtx step)) sess step

/-- A step of the context below s is pending, or committed and not settled (08 R428). -/
def stepOpenBelow (c : Context) (step : Nat) : Bool :=
  (c.rim.pending != 0 && decide (c.rim.pending < step)) || c.settles.any fun x => decide (x.step < step)

/-- The loss-scale policy on a decision (08 R444). -/
def lossScale (committed : Bool) (r : RimState) : RimState :=
  if r.lsMode = false then r
  else if committed then
    let k := r.lsClean + 1
    if r.lsInterval.toNat ≤ k.toNat then
      let v := (fmul r.lsScale r.lsGrowth).1
      { r with lsScale := if (fp32 r.lsMax).lt (fp32 v) then r.lsMax else v, lsClean := 0 }
    else { r with lsClean := k }
  else
    let v := (fmul r.lsScale r.lsBackoff).1
    { r with lsScale := if (fp32 v).lt (fp32 r.lsMin) then r.lsMin else v, lsClean := 0 }

/-- The 256 bytes of the Rim state (08 Table 8.7). -/
def encodeRim (r : RimState) : List Byte :=
  leBytes 4 r.lsScale.toNat ++ leBytes 4 r.lsGrowth.toNat ++ leBytes 4 r.lsBackoff.toNat ++ leBytes 4 r.lsMin.toNat ++
    leBytes 4 r.lsMax.toNat ++ leBytes 4 r.lsInterval.toNat ++ leBytes 4 r.lsClean.toNat ++
    leBytes 4 (if r.lsMode then 1 else 0) ++ leBytes 4 r.pending ++ leBytes 4 r.lastDecided ++ leBytes 8 r.ringValid.toNat ++
    [if r.latch then 1 else 0] ++ List.replicate 207 0

/-- The policy and LAST_DECIDED as RESTORE_CONTEXT takes them (08 R445). -/
def restoreRim (bs : List Byte) (r : RimState) : RimState :=
  let f := fun off => BitVec.ofNat 32 (fieldAt bs off 4)
  { r with lsScale := f 0, lsGrowth := f 4, lsBackoff := f 8, lsMin := f 0xC, lsMax := f 0x10, lsInterval := f 0x14,
           lsClean := f 0x18, lsMode := fieldAt bs 0x1C 1 % 2 == 1, lastDecided := fieldAt bs 0x24 4 }

/-- The policy that SCALE_SET loads from a 32-byte record (08 R444). -/
def loadPolicy (bs : List Byte) (r : RimState) : RimState := { restoreRim (bs ++ leBytes 4 0 ++ leBytes 4 r.lastDecided) r with lastDecided := r.lastDecided }

end Sys2Proof.Machine
end

