-- ==== Sys2Proof/Machine/Pool.lean ====
section
/-! DEFINITION. Pool tables: addresses and ownership, records and their versions, the row cache, staging and folds
(chapters 09 and 10). -/

namespace Sys2Proof.Machine

/-! ### Addresses and ownership -/

def poolTable (a : Nat) : Nat := a / 2 ^ 40 % 2 ^ 24
def poolRow (a : Nat) : Nat := a % 2 ^ 40
def missingRow : Nat := 0xFFFFFFFFFF

def findTable (c : Context) (h : Nat) : Option Table := c.tables.find? fun t => t.handle == h

def setTable (s : State) (sess : U32) (h : Nat) (f : Table → Table) : State :=
  setCtx s sess fun c => { c with tables := mapIf (fun t => t.handle == h) f c.tables }

def setTier (s : State) (sess : U32) (h : Nat) (f : TierTable → TierTable) : State :=
  setTable s sess h fun t => { t with tier := t.tier.map f }

/-- The range of a map that holds n: the last entry whose FIRST is not above it (09 R487). -/
def mapEntry (m : List RangeEntry) (n : Nat) : Option RangeEntry :=
  m.foldl (fun best e => if e.first ≤ n then some e else best) none

/-- Where a row or node is held (09 R489, R492; 01 R54). -/
inductive Owner where
  | none
  | here (idx : Nat)
  | there (module : Nat)
  deriving DecidableEq, Repr

/-- Resolve n under a map; n is its own index without one. rows bounds the local index. -/
def ownerOf (me : Nat) (m : Option (List RangeEntry)) (rows n : Nat) : Owner :=
  match m with
  | none => if n < rows then .here n else .none
  | some l =>
    match mapEntry l n with
    | none => .none
    | some e =>
      let idx := e.localBase + (n - e.first)
      if e.unowned then .none
      else if e.replicated ∨ e.owner = me then (if idx < rows then .here idx else .none)
      else if idx < rows then .there e.owner else .none

/-- What a pool address resolves to in a context (06 R282, 09 R489). -/
inductive RowAt where
  | noTable
  | missing
  | range
  | here (t : Table) (idx : Nat)
  | there (t : Table) (module : Nat) (group : Group)
  deriving DecidableEq, Repr

def resolvePool (s : State) (c : Context) (a : Nat) : RowAt :=
  match findTable c (poolTable a) with
  | none => .noTable
  | some t =>
    if poolRow a = missingRow then .missing
    else
      match ownerOf (myNumber s) t.ownership t.rows (poolRow a) with
      | .none => .range
      | .here i => .here t i
      | .there m =>
        match t.poolGroup with
        | none => .range
        | some h =>
          match findGroup c h with
          | none => .range
          | some g => if g.members.contains m then .there t m g else .range

/-- The row of the table that a local index holds: the inverse of the map for the ranges that this module holds. -/
def globalRow (me : Nat) (t : Table) (idx : Nat) : Nat :=
  match t.ownership with
  | none => idx
  | some l =>
    let ranges := l.zip ((l.drop 1).map (fun e => e.first) ++ [2 ^ 40])
    match ranges.find? fun p => !p.1.unowned && (p.1.owner == me || p.1.replicated) && decide (p.1.localBase ≤ idx) &&
        decide (idx < p.1.localBase + (p.2 - p.1.first)) with
    | some p => p.1.first + (idx - p.1.localBase)
    | none => idx

/-- The pool address of a local row, as the rounding of 05 R270 uses it. -/
def poolOf (me : Nat) (t : Table) (idx : Nat) : Nat := t.handle * 2 ^ 40 + globalRow me t idx

/-! ### Records of tables that are not tiered (09 R478, R479) -/

def Table.recordVa (t : Table) (idx : Nat) : Nat := t.storage + idx * t.stride

/-- Read without regard to poison: what lies in memory. -/
def peekVa (s : State) (c : Context) (loc : Nat → Option Loc) : Nat → Nat → Except Nat (List Byte)
  | _, 0 => .ok []
  | va, n + 1 =>
    match loc va with
    | none => .error va
    | some (.host a) => if refused s a then .error va else (peekVa s c loc (va + 1) n).map fun t => readCell s.hostMem a :: t
    | some (.mem a) => (peekVa s c loc (va + 1) n).map fun t => readCell s.mem a :: t

def tableRegion (c : Context) (h : Nat) : Option Region := c.regions.find? fun r => r.table == h

/-- The committed bytes of a span of a table's first version (08 R423). -/
def committedLoc (c : Context) (t : Table) (va : Nat) : Option Loc :=
  match tableRegion c t.handle with
  | some r => plainLoc c (r.committed va)
  | none => plainLoc c va

def Except.getD {α β : Type} (d : β) : Except α β → β
  | .ok x => x
  | .error _ => d

/-- The committed record of a local row of a table that is not tiered. -/
def plainRecord (s : State) (c : Context) (t : Table) (idx : Nat) : List Byte :=
  Except.getD (List.replicate t.stride 0) (peekVa s c (committedLoc c t) (t.recordVa idx) t.stride)

/-- A demand read of a record meets an uncorrectable sector (09 R462). -/
def plainPoison (s : State) (c : Context) (t : Table) (idx : Nat) : Option Nat :=
  if s.hbm.poisoned = [] then none
  else (List.range t.stride).findSome? fun i =>
    match committedLoc c t (t.recordVa idx + i) with
    | some (.mem a) => poisonIn s.hbm a 1
    | _ => none

/-! ### The row cache (09 R483-R486) -/

def tierOf (t : Table) : TierTable :=
  match t.tier with
  | some x => x
  | none => { sets := 4096, setKey := 0, channelKey := 0, ways := [], promoting := [], units := [], everSynced := false, isProtected := true }

def findWay (t : Table) (row : Nat) : Option CacheWay := (tierOf t).ways.find? fun w => w.row == row

def promotingRow (t : Table) (row : Nat) : Bool := (tierOf t).promoting.any fun p => p.1 == row

def setOf (t : Table) (row : Nat) : Nat := Config.rowSetHash (tierOf t).setKey row % Nat.max 1 (tierOf t).sets

/-- Make a way the most recently used of its set (09 R484): ranks below its own rise by one. -/
def touchWays (row : Nat) (ws : List CacheWay) : List CacheWay :=
  match ws.find? fun w => w.row == row with
  | none => ws
  | some w => ws.map fun x =>
      if x.row = row then { x with lru := 0 } else if x.set = w.set ∧ x.lru < w.lru then { x with lru := x.lru + 1 } else x

/-- The entry of a replicated range that holds a local row (09 R498). -/
def replicatedAt (t : Table) (idx : Nat) : Option RangeEntry :=
  match t.ownership with
  | none => none
  | some l => ((l.zip ((l.drop 1).map (fun e => e.first) ++ [2 ^ 40])).find? fun p => p.1.replicated && !p.1.unowned &&
      decide (p.1.localBase ≤ idx) && decide (idx < p.1.localBase + (p.2 - p.1.first))).map fun p => p.1

/-- The way to use for a row: a free one, or the least recently used that is neither provisional nor held for a settle
(09 R485, 10 R518) and not of a replicated range, which flash never holds (09 R500). None when every way is excluded. -/
def chooseWay (t : Table) (row : Nat) : Option (Nat × Option CacheWay) :=
  let st := setOf t row
  let ws := (tierOf t).ways.filter fun w => w.set == st
  match (List.range 16).find? fun k => !ws.any fun w => w.slot == k with
  | some k => some (k, none)
  | none =>
    (leastBy (fun a b => decide (b.lru < a.lru)) (ws.filter fun w => w.provisional.isNone && w.previous.isNone && !w.pending && (replicatedAt t w.row).isNone)).map
      fun w => (w.slot, some w)

/-- Where a way's record lies in the row cache's storage, for the channel that serves it. -/
def wayVa (t : Table) (w : CacheWay) : Nat := t.storage + (w.set * 16 + w.slot) * 2 * t.stride

/-! ### Units and staging (10 R505-R512) -/

def firstUnit (t : Table) (row : Nat) : Nat :=
  if t.stride ≤ 4096 then row / (4096 / t.stride) else row * ceilDiv t.stride 4096

def unitsOf (t : Table) (row : Nat) : List Nat :=
  if t.stride ≤ 4096 then [firstUnit t row] else (List.range (ceilDiv t.stride 4096)).map fun i => firstUnit t row + i

def offsetInUnit (t : Table) (row : Nat) : Nat := if t.stride ≤ 4096 then row % (4096 / t.stride) * t.stride else 0

def findUnit (t : Table) (u : Nat) : Option FlashUnit := (tierOf t).units.find? fun x => x.unit == u

/-- The channel of a unit (10 R506). -/
def channelOf (t : Table) (u : Nat) : Nat :=
  let h := Config.channelHash (tierOf t).channelKey t.handle u
  match t.placement with
  | 0 => h % 16
  | 1 => 16 + h % 16
  | _ => h % 32

def halfOfChannel (ch : Nat) : Half := if ch < 16 then .west else .east

def rowHalf (t : Table) (row : Nat) : Half := halfOfChannel (channelOf t (firstUnit t row))

def unitData (t : Table) (u : Nat) : List Byte :=
  match findUnit t u with
  | some x => if x.written && !x.poison then x.data ++ List.replicate (4096 - x.data.length) 0 else List.replicate 4096 0
  | none => List.replicate 4096 0

/-- A row of a poisoned unit is a POISON row (10 R544). -/
def rowPoisoned (t : Table) (row : Nat) : Bool :=
  (unitsOf t row).any fun u => match findUnit t u with | some x => x.poison | none => false

/-- The record of a row as flash holds it; zero when never written or poisoned (10 Table 10.3, R544). -/
def flashRecord (t : Table) (row : Nat) : List Byte :=
  if rowPoisoned t row then List.replicate t.stride 0
  else (((unitsOf t row).flatMap (unitData t)).drop (offsetInUnit t row)).take t.stride

def findStaged (s : State) (sess : U32) (t row : Nat) : Option Staged :=
  s.tier.staging.find? fun x => x.sess == sess && x.table == t && x.row == row

def stagedBytes (s : State) (h : Half) : Nat := sumNat ((s.tier.staging.filter fun x => x.half == h).map fun x => x.record.length)

/-- A half's staging buffer can take a record (10 R511). -/
def stagingRoom (s : State) (h : Half) (n : Nat) : Bool := decide (stagedBytes s h + n ≤ 4 * gib)

/-- Stage a committed record; a row staged again replaces its earlier copy (10 R511, R512). -/
def stage (s : State) (sess : U32) (t : Table) (row : Nat) (rec : List Byte) : State :=
  let x : Staged := { half := rowHalf t row, sess := sess, table := t.handle, row := row, record := rec }
  { s with tier := { s.tier with
      staging := (s.tier.staging.filter fun y => !(y.sess == sess && y.table == t.handle && y.row == row)) ++ [x] } }

/-- Write back a dirty victim (10 R511); false when the staging buffer is full. -/
def writeBack (s : State) (sess : U32) (t : Table) (w : CacheWay) : State × Bool :=
  if w.dirty = false then (s, true)
  else if stagingRoom s (rowHalf t w.row) w.committed.length then
    let s1 := stage s sess t w.row w.committed
    let s2 := setTier s1 sess t.handle fun x => { x with ways := mapIf (fun y => y.row == w.row) (fun y => { y with dirty := false }) x.ways }
    (setCtx s2 sess fun c => { c with memCtr := bump c.memCtr 7 1 }, true)
  else (s, false)

/-! ### Folds (10 R514-R520) -/

def logOf (s : State) (sess : U32) (t row : Nat) : List LogEntry :=
  sortBy (fun a b => decide (a.step < b.step)) (s.tier.log.filter fun e => e.sess == sess && e.table == t && e.row == row)

/-- A step is final: not pending, and no settle of it outstanding (10 R516). Entries of skipped steps are gone. -/
def stepFinal (c : Context) (step : Nat) : Bool := c.rim.pending != step && !(c.settles.any fun x => x.step == step)

/-- The ring entry of a step (10 R515). -/
def ringFor (c : Context) (step : Nat) : Option RingEntry := c.ring.find? fun e => e.step == step

/-- Apply one log entry to a record with the hyperparameters of its step (10 R517). -/
def foldEntry (c : Context) (t : Table) (me row : Nat) (h : Hyper) (rec : List Byte) (e : LogEntry) : List Byte × Fl :=
  optRecord t h c.plaitState (poolOf me t row) e.step rec e.grad

/-- Fold entries in ascending step order; the flags are the Rim's code's. -/
def foldEntries (c : Context) (t : Table) (me row : Nat) : List LogEntry → List Byte → List Byte × Fl
  | [], rec => (rec, 0)
  | e :: es, rec =>
    match ringFor c e.step with
    | none => foldEntries c t me row es rec
    | some h =>
      let r := foldEntry c t me row h.hyper rec e
      let q := foldEntries c t me row es r.1
      (q.1, r.2 ||| q.2)

/-- Drop log entries of a row by step. -/
def dropEntries (s : State) (sess : U32) (t row : Nat) (p : LogEntry → Bool) : State :=
  { s with tier := { s.tier with log := s.tier.log.filter fun e => !(e.sess == sess && e.table == t && e.row == row && p e) } }

/-- The record of a row that is in no way: staged, else in flash (10 R511). -/
def restingRecord (s : State) (sess : U32) (t : Table) (row : Nat) : List Byte :=
  match findStaged s sess t.handle row with
  | some x => x.record
  | none => flashRecord t row

/-- Counter numbers of 10 Table 10.8 used by folds. -/
def bumpTier (s : State) (sess : U32) (i n : Nat) : State := setCtx s sess fun c => { c with tierCtr := bump c.tierCtr i n }

end Sys2Proof.Machine
end

