-- ==== Sys2Proof/Machine/Requests.lean ====
section
/-! DEFINITION. Row requests of the Splints: issue, merging, delivery, and the progress of the jobs they belong to
(chapter 06). -/

namespace Sys2Proof.Machine

/-! ### Splints and jobs -/

def CoreId.unit (c : CoreId) : Nat := 0x3000 + 32 * c.half.num + c.idx.val

def CoreId.num (c : CoreId) : Nat := 32 * c.half.num + c.idx.val

def splintWorks (s : State) (c : CoreId) : Bool := unitWorks s (CoreId.unit c) && unitWorks s c.half.num

def allCores (h : Half) : List CoreId := (List.finRange 32).map fun i => { half := h, idx := i }

def findJob (s : State) (ref : CmdRef) : Option SpJob := s.jobs.find? fun j => j.ref == ref

def setJob (s : State) (ref : CmdRef) (f : SpJob → SpJob) : State := { s with jobs := mapIf (fun j => j.ref == ref) f s.jobs }

def setChunk (s : State) (ref : CmdRef) (n : Nat) (f : Chunk → Chunk) : State :=
  setJob s ref fun j => { j with chunks := mapIf (fun k => k.num == n) f j.chunks }

def findChunk (j : SpJob) (n : Nat) : Option Chunk := j.chunks.find? fun k => k.num == n

def bumpSplint (s : State) (sess : U32) (i n : Nat) : State := setCtx s sess fun c => { c with splintCtr := bump c.splintCtr i n }

/-- Request slots of a Splint that are held (06 R276). -/
def slotsHeld (s : State) (c : CoreId) : Nat := (s.requests.filter fun r => r.splint == c).length

/-- A row issued by a Splint, for BAR2 (06 R341). -/
def countIssue (s : State) (c : CoreId) : State :=
  let k := CoreId.num c
  if s.splintIssued.any fun p => p.1 == k then
    { s with splintIssued := mapIf (fun p => p.1 == k) (fun p => (p.1, p.2 + 1)) s.splintIssued }
  else { s with splintIssued := s.splintIssued ++ [(k, 1)] }

/-! ### Issue (06 R285-R287, R291) -/

/-- What a row request serves. -/
structure Issue where
  ref : CmdRef
  sess : U32
  splint : CoreId
  step : Nat
  position : Nat
  dest : ReqDest

/-- The destination of the bytes from an offset of the row. -/
def ReqDest.shift (k : Nat) : ReqDest → ReqDest
  | .memory va => .memory (va + k)
  | .tileRow t r o => .tileRow t r (o + k)
  | .bag b w p o => .bag b w p (o + k)

/-- A request in its slot. -/
def addRequest (s : State) (i : Issue) (f : Request → Request) : State :=
  let u := freshUid s
  let r : Request :=
    { id := u.1, ref := i.ref, sess := i.sess, splint := i.splint, state := .returned, merging := false, table := 0, row := 0,
      offset := 0, bytes := 0, phys := 2 ^ 60, step := i.step, half := i.splint.half, pc := 0, issuedAt := s.now, owner := 0,
      group := 0, targetIncarn := 0, stopped := false, overwritten := false, position := i.position, dest := i.dest, data := [],
      poisoned := false }
  countIssue { u.2 with requests := u.2.requests ++ [f r] } i.splint

/-- An earlier read that a read of the same context may merge with (06 R286). -/
def mergeLeader (s : State) (sess : U32) (phys n : Nat) : Option Request :=
  s.requests.find? fun r => r.sess == sess && r.merging && !r.overwritten && decide (r.phys ≤ phys) && decide (phys + n ≤ r.phys + r.bytes)

/-- Whether the lookup of a context's Basket ways hits: free where the ways hold lines at all, never for a context with no
way in the half (09 R469; log entry 17). -/
def basketHit (s : State) (c : Context) (h : Nat) (poisoned : Bool) : Bool × State :=
  let ways := if h = 0 then c.waysWest else c.waysEast
  if ways = 0 ∨ poisoned = true then (false, s)
  else let p := choose s; (p.1 % 2 == 1, p.2)

/-- A read of HBM: Basket, merge table, then the queue of its pseudo-channel (06 R285-R287, R289). -/
def issueHbm (s : State) (c : Context) (i : Issue) (phys n pc : Nat) (f : Request → Request) : State :=
  let h := pc / 256
  let b := basketHit s c h (poisonIn s.hbm phys n).isSome
  let base := fun (st : ReqState) (m : Bool) (r : Request) =>
    { f r with state := st, merging := m, phys := phys, pc := pc, half := if h = 0 then .west else .east }
  if b.1 then
    addRequest (setCtx b.2 i.sess fun c => { c with splintCtr := bump c.splintCtr 2 1, memCtr := bump c.memCtr 2 1 }) i
      (base .basket false)
  else
    let s1 := setCtx b.2 i.sess fun c => { c with memCtr := bump c.memCtr 3 1 }
    match mergeLeader s1 i.sess phys n with
    | some l => addRequest (bumpSplint s1 i.sess 4 1) i (base (.merged l.id) false)
    | none =>
      let full := decide (8192 ≤ (s1.requests.filter fun r => r.merging && r.pc / 256 == h).length)
      if full then addRequest (bumpSplint s1 i.sess 5 1) i (base .queued false) else addRequest s1 i (base .queued true)

/-- A read of a located span, by what backs it. -/
def issueAt (s : State) (c : Context) (i : Issue) (loc : Option Loc) (n : Nat) (f : Request → Request) : State :=
  match loc with
  | some (.mem a) =>
    match sectorOf s.hbm a with
    | some (pc, _) => issueHbm s c i a n pc f
    | none => addRequest s i fun r => { f r with state := .basket, phys := a }
  | _ => addRequest s i f

/-- The pieces of a row: offset and bytes, 512 B each (06 R277). -/
def rowPieces (n : Nat) : List (Nat × Nat) := (List.range (ceilDiv n 512)).map fun k => (512 * k, Nat.min 512 (n - 512 * k))

/-- Issue the pieces of a row by address (06 R281): the data is what memory holds as the read arrives (R288). -/
def issueAddress (s : State) (c : Context) (i : Issue) (word n : Nat) : Except MemErr State :=
  if 2 ^ 48 ≤ word ∨ word % 32 ≠ 0 then .error (.translation word)
  else
    match peekVa s c (locate c .rd) word n with
    | .error va => .error (.translation va)
    | .ok bs => .ok ((rowPieces n).foldl (fun st p =>
        issueAt st c { i with dest := i.dest.shift p.1 } (locate c .rd (word + p.1)) p.2 fun r =>
          { r with offset := p.1, bytes := p.2, data := (bs.drop p.1).take p.2 }) s)

/-- The first n bytes of a row, zero beyond it (06 R283). -/
def rowPrefix (t : Table) (n : Nat) (rec : List Byte) : List Byte :=
  let row := rec.take t.rowBytes
  row.take n ++ List.replicate (n - row.length) 0

/-- A row that needs no memory access: returned at once. -/
def issueReady (s : State) (i : Issue) (bs : List Byte) (poisoned : Bool) : State :=
  addRequest s i fun r => { r with bytes := bs.length, data := bs, poisoned := poisoned }

/-- Ask for the promotion of a row that no way holds (09 R485, R486). No flash read is needed for a staged row or for
units never written. -/
def startPromotion (s : State) (sess : U32) (t : Table) (row : Nat) : State :=
  if promotingRow t row then s
  else
    let ready := (findStaged s sess t.handle row).isSome || (unitsOf t row).all fun u => match findUnit t u with | some x => !x.written | none => true
    let s1 := setTier s sess t.handle fun x => { x with promoting := x.promoting ++ [(row, ready)] }
    setCtx s1 sess fun c => { c with memCtr := bump c.memCtr 6 1 }

/-- A lookup of an optimiser table with a step is held while an earlier step is open (08 R428). -/
def lookupHeld (c : Context) (t : Table) (step : Nat) : Bool := t.optimiser != 0 && step != 0 && stepOpenBelow c step

/-- Issue a read of a local row (09 R482, R485, R491; 08 R428). -/
def issueLocal (s : State) (c : Context) (i : Issue) (t : Table) (idx n : Nat) : State :=
  let tag := fun (r : Request) => { r with table := t.handle, row := idx, bytes := n }
  if lookupHeld c t i.step then
    addRequest (setCtx s c.sess fun c => { c with rimCtr := bump c.rimCtr 12 1 }) i fun r => { tag r with state := .held }
  else if t.tier.isSome then
    match findWay t idx with
    | some w =>
      let s1 := setTier s c.sess t.handle fun x => { x with ways := touchWays idx x.ways }
      let s2 := setCtx s1 c.sess fun c => { c with memCtr := bump c.memCtr 5 1 }
      let bs := rowPrefix t n w.committed
      (rowPieces n).foldl (fun st p =>
        issueAt st c { i with dest := i.dest.shift p.1 } (plainLoc c (wayVa t w + p.1)) p.2 fun r =>
          { tag r with offset := p.1, bytes := p.2, data := (bs.drop p.1).take p.2 }) s2
    | none =>
      let s1 := addRequest (startPromotion s c.sess t idx) i fun r => { tag r with state := .tier }
      match tierFenced s (rowHalf t idx).num with
      | some u => faultCommand s1 i.ref (.code faultTargetFenced u 0)
      | none => s1
  else
    let bs := rowPrefix t n (plainRecord s c t idx)
    (rowPieces n).foldl (fun st p =>
      issueAt st c { i with dest := i.dest.shift p.1 } (committedLoc c t (t.recordVa idx + p.1)) p.2 fun r =>
        { tag r with offset := p.1, bytes := p.2, data := (bs.drop p.1).take p.2 }) s

/-- Send a row request to its owner (06 R291, 11 Table 11.6); no route ends the command (11 R570). -/
def issueRemote (s : State) (c : Context) (i : Issue) (g : Group) (m word n : Nat) : Except CmdErr State :=
  let u := s.nextUid
  let s1 := addRequest s i fun r =>
    { r with state := .remote, table := poolTable word, row := poolRow word, bytes := n, owner := m, group := g.handle,
             targetIncarn := incarnOfModule s m }
  let s2 := setCtx s1 c.sess fun c => { c with splintCtr := bump c.splintCtr 6 1, fabricCtr := bump c.fabricCtr 9 1 }
  let p := { newPacket s2 g 0x04 m with msg := BitVec.ofNat 32 u, step := BitVec.ofNat 32 i.step, a := BitVec.ofNat 64 word, b := BitVec.ofNat 64 n }
  let r := sendFrom s2 c i.splint.half p
  if r.2 then .ok r.1 else .error (.hw (cutPort s m))

/-- Issue a row by pool address (06 R282-R284, 01 R51-R54). -/
def issuePool (s : State) (c : Context) (i : Issue) (word n : Nat) : Except CmdErr State :=
  let dflt := fun (ctr : Nat) =>
    match findTable c (poolTable word) with
    | some t => .ok (issueReady (bumpSplint s c.sess ctr 1) i (rowPrefix t n t.defaultRow) false)
    | none => .error (.code faultTranslation (CoreId.unit i.splint) word)
  match resolvePool s c word with
  | .noTable => .error (.code faultTranslation (CoreId.unit i.splint) word)
  | .missing => dflt 7
  | .range => dflt 8
  | .here t idx => .ok (issueLocal s c i t idx n)
  | .there _ m g => issueRemote s c i g m word n

/-- Issue a row by index. -/
def issueRow (s : State) (c : Context) (i : Issue) (byPool : Bool) (word n : Nat) : Except CmdErr State :=
  if byPool then issuePool s c i word n
  else
    match issueAddress s c i word n with
    | .ok s' => .ok s'
    | .error e => .error (errMem (CoreId.unit i.splint) e)

/-- Requests outstanding for a position or bag. -/
def addOutstanding (s : State) (ref : CmdRef) (pos n : Nat) : State :=
  setJob s ref fun j =>
    if j.outstanding.any fun p => p.1 == pos then { j with outstanding := mapIf (fun p => p.1 == pos) (fun p => (p.1, p.2 + n)) j.outstanding }
    else { j with outstanding := j.outstanding ++ [(pos, n)] }

/-- Requests that a state has beyond another of the same list. -/
def newRequests (before after : State) : Nat := after.requests.length - before.requests.length

/-! ### Delivery (06 R290) -/

/-- Overwrite bytes of a list from an offset, growing it with zeros. -/
def putAt (bs : List Byte) (off : Nat) (new : List Byte) : List Byte :=
  let padded := bs ++ List.replicate (off + new.length - bs.length) 0
  padded.take off ++ new ++ padded.drop (off + new.length)

/-- Fill part of a row of a tile. -/
def fillTile (row off : Nat) (bs : List Byte) (t : Tile) : Tile :=
  { t with rows := modifyAt (fun r => { r with data := some (putAt (r.data.getD []) off bs) }) row t.rows }

/-- Fill a row of the tile with a number, on a core or in a pipe. -/
def fillTileRow (s : State) (sess : U32) (uid row off : Nat) (bs : List Byte) : State :=
  let f := fun (t : Tile) => if t.uid = uid then fillTile row off bs t else t
  let s1 := { s with cores := s.cores.map fun k => { k with tile := k.tile.map f, closed := k.closed.map f } }
  setCtx s1 sess fun c => { c with pipes := c.pipes.map fun p => { p with tiles := p.tiles.map f } }

/-- A tile whose rows have all come may be taken by its consumer. -/
def tileComplete (s : State) (t : Tile) : Bool :=
  (t.rows.all fun r => r.data.isSome) &&
    !(s.requests.any fun r => match r.dest with | .tileRow u _ _ => u == t.uid && !r.stopped | _ => false)

/-- The tile with a number in a pipe of a context. -/
def findTile (c : Context) (uid : Nat) : Option Tile := c.pipes.findSome? fun p => p.tiles.find? fun t => t.uid == uid

/-- One request answered for a position: none are left when the Bool says so. -/
def answered (s : State) (ref : CmdRef) (pos : Nat) : State × Bool :=
  match findJob s ref with
  | none => (s, false)
  | some j =>
    match j.outstanding.find? fun p => p.1 == pos with
    | none => (s, false)
    | some (_, n) =>
      if n ≤ 1 then (setJob s ref fun j => { j with outstanding := j.outstanding.filter fun p => p.1 != pos }, true)
      else (setJob s ref fun j => { j with outstanding := mapIf (fun p => p.1 == pos) (fun p => (p.1, p.2 - 1)) j.outstanding }, false)

/-- The instances on which a Splint command has started. -/
def startedOn (s : State) (ref : CmdRef) : List EngineInst :=
  ([Half.west, Half.east].map EngineInst.splints).filter fun i => (findEngine s i).running.any fun r => r.ref == ref && r.started

/-- The piped input of a command, if it has one, has ended (03 R717). -/
def inputEnded (s : State) (p : Progress) : Bool :=
  match findCtx s p.sess with
  | some c => inPipe p.word == 0 || pipeEnded c (inPipe p.word)
  | none => true

/-- Every chunk of a job is done: each half's share ends (03 R132), and TAIL_NS is counted once (06 Table 6.13). -/
def finishJob (s : State) (ref : CmdRef) : State :=
  match findJob s ref, findProgress s ref with
  | some j, some p =>
    if j.chunks.all (fun k => k.state == .applied) && j.outstanding.isEmpty && j.contribsDue == 0 && inputEnded s p then
      let s1 := if p.westDone || p.eastDone then s else bumpSplint s j.sess 19 (s.now - j.lastClaim)
      armWaits ((startedOn s1 ref).foldl (fun st i => shareDone st i ref) s1)
    else s
  | _, _ => s

/-- The units of a destination of NDIM 2 that complete with a row: its tiles once every row of them is done (06 R297). -/
def tileUnits (d : Desc) (done : List Nat) (row : Nat) : List Nat :=
  let n0 := ceilDiv (d.count 0) d.tile0
  let t1 := row / d.tile1
  let rows := (List.range d.tile1).map fun k => t1 * d.tile1 + k
  if rows.all fun k => decide (d.count 1 ≤ k) || done.contains k then (List.range n0).map fun t0 => t0 + n0 * t1 else []

/-- The running word and descriptors of a command. -/
def runningOfRef (s : State) (ref : CmdRef) : Option Running :=
  s.engines.findSome? fun e => (e.running ++ e.suspended.flatMap fun p => p.2).find? fun r => r.ref == ref

/-- Mark positions done and report the destination tiles complete. -/
def positionDone (s : State) (ref : CmdRef) (pos : Nat) (dst : Option Desc) : State :=
  let s1 := setJob s ref fun j => { j with done := pos :: j.done }
  match findJob s1 ref, dst with
  | some j, some d => unitsDone s1 ref (tileUnits d j.done pos)
  | _, _ => s1

/-- A chunk of a gather ends when all its positions are issued and answered. -/
def gatherChunk (s : State) (ref : CmdRef) (n : Nat) : State :=
  match findJob s ref with
  | none => s
  | some j =>
    match findChunk j n with
    | none => s
    | some k =>
      match k.state with
      | .claimed _ =>
        if k.issued = k.count ∧ (j.outstanding.all fun p => decide (p.1 < k.first) || decide (k.first + k.count ≤ p.1)) = true then
          finishJob (bumpSplint (setChunk s ref n fun k => { k with state := .applied, finishedAt := s.now }) j.sess 16 1) ref
        else s
      | _ => s

/-! ### Bags (06 R294-R296) -/

/-- FP32 sum of rows in order, starting from the first of them; the flags with it. -/
def sumRows : List (List U32) → List U32 × Fl
  | [] => ([], 0)
  | x :: t => t.foldl (fun acc r =>
      let s := (acc.1.zip r).map fun p => midAdd p.1 p.2
      (s.map fun p => p.1, s.foldl (fun a p => a ||| p.2) acc.2)) (x, 0)

/-- The FP32 elements of a row of a table's format. -/
def rowElems (fmt e : Nat) (bs : List Byte) : List U32 × Fl :=
  let r := unpack fmt e bs
  (r.1.map fun x => (toFp32 x).1, r.2)

/-- The bytes of a part of a bag, put together from its requests. -/
def partBytes (parts : List (Nat × Nat × Nat × Nat × List Byte)) (bag owner pos : Nat) : List Byte :=
  (parts.filter fun p => p.1 == bag && p.2.1 == owner && p.2.2.1 == pos).foldl (fun acc p => putAt acc p.2.2.2.1 p.2.2.2.2) []

/-- The positions of a bag that have parts of an owner, ascending. -/
def partPositions (parts : List (Nat × Nat × Nat × Nat × List Byte)) (bag owner : Nat) : List Nat :=
  sortBy (fun a b => decide (a < b)) ((parts.filter fun p => p.1 == bag && p.2.1 == owner).map fun p => p.2.2.1).eraseDups

/-- The sum of a bag (06 R295): this module's own sum in bag order, then the owners' sums in ascending owner number. -/
def bagValue (j : SpJob) (me fmt e bag : Nat) : List U32 × Fl :=
  let mine := (partPositions j.parts bag me).map fun p => rowElems fmt e (partBytes j.parts bag me p)
  let own := sumRows (mine.map fun r => r.1)
  let fl0 := mine.foldl (fun a r => a ||| r.2) own.2
  let others := (j.sums.filter fun x => x.1 == bag).map fun x => (x.2.1, x.2.2)
  let all := sortBy (fun a b => decide (a.1 < b.1)) (if mine = [] then others else (me, own.1) :: others)
  let r := sumRows (all.map fun x => x.2)
  (r.1, r.2 ||| fl0 ||| others.foldl (fun a x => a ||| x.2.foldl (fun b v => b ||| (fp32 v).nf) 0) 0)

/-- Write a destination row of FP32 values, converted (04 R213), and flag the engine. -/
def writeFloats (s : State) (c : Context) (d : Desc) (row : Nat) (vs : List U32) : Except MemErr Stored :=
  storeRun s c .wr d false (.fin false 1 0) [row, 0, 0, 0] (vs.length + 1) 0 (vs.map fun v => (fp32 v, Round.nearest))

/-- Every row of a bag has come: its sum is written (06 R294, R295). -/
def finishBag (s : State) (ref : CmdRef) (bag : Nat) : State :=
  match findJob s ref, runningOfRef s ref with
  | some j, some r =>
    match findCtx s j.sess, r.desc 0x18 with
    | some c, some d =>
      let fmt := (c.tables.find? fun t => j.touched.contains t.handle).map fun t => (t.fmt, t.elems)
      let v := bagValue j (myNumber s) (fmt.getD (0, 0)).1 (fmt.getD (0, 0)).2 bag
      match writeFloats s c d bag v.1 with
      | .error e => faultCommand s ref (errMem 0 e)
      | .ok st =>
        let s1 := setFlags (tally st.st j.sess 1 (toAddr (d.rowBase [bag])) (packedBytes d.fmt (d.count 0))) j.sess engSplints (v.2 ||| st.fl)
        let s2 := setJob s1 ref fun j => { j with parts := j.parts.filter (fun p => p.1 != bag), sums := j.sums.filter fun x => x.1 != bag }
        finishJob (positionDone s2 ref bag (some d)) ref
    | _, _ => s
  | _, _ => s

/-- A chunk of SP_RUN ends when its program has ended and its rows have come (06 R338, R341). -/
def runChunk (s : State) (ref : CmdRef) (n : Nat) : State :=
  match findJob s ref with
  | none => s
  | some j =>
    match findChunk j n with
    | none => s
    | some k =>
      let ended := match k.state with | .finished _ => true | _ => false
      if ended && !(j.outstanding.any fun p => p.1 == n) then
        finishJob (unitDone (bumpSplint (setChunk s ref n fun k => { k with state := .applied }) j.sess 16 1) ref n) ref
      else s

/-- Everything asked for under a key of a job has come (06 R297). -/
def rowComplete (s : State) (r : Request) : State :=
  match findJob s r.ref, findCtx s r.sess with
  | some j, some c =>
    if j.opcode = 0x22 then runChunk s r.ref r.position
    else
      match r.dest with
      | .bag b _ _ _ => finishBag s r.ref b
      | .memory _ =>
        let d := (runningOfRef s r.ref).bind fun x => x.desc 0x18
        gatherChunk (positionDone s r.ref r.position d) r.ref (r.position / 256)
      | .tileRow u _ _ =>
        let s1 := setJob s r.ref fun j => { j with done := r.position :: j.done }
        let whole := match findTile c u with | some t => tileComplete s1 t | none => false
        gatherChunk (if whole then unitDone s1 r.ref (r.position / 32) else s1) r.ref (r.position / 256)
  | _, _ => s

/-- Write a reply's bytes to the position its index fixes. -/
def putReply (s : State) (r : Request) : Except CmdErr State :=
  match findCtx s r.sess with
  | none => .ok s
  | some c =>
    match r.dest with
    | .memory va =>
      match writeVa s c .wr va r.data with
      | .ok s' => .ok (tally s' r.sess 1 va r.data.length)
      | .error e => .error (errMem (CoreId.unit r.splint) e)
    | .tileRow u row off => .ok (fillTileRow s r.sess u row off r.data)
    | .bag b w p off => .ok (setJob s r.ref fun j => { j with parts := j.parts ++ [(b, w, p, off, r.data)] })

/-- The key under which a job counts a request: the bag, or the position. -/
def Request.key (r : Request) : Nat := match r.dest with | .bag b _ _ _ => b | _ => r.position

/-- Deliver a request whose reply has returned and free its slot; a reply of a stopped command is discarded and counted
(06 R290, R291). A POISON row is counted at the reader (10 R544). -/
def deliver (s : State) (r : Request) : State :=
  let s1 := { s with requests := s.requests.filter fun q => q.id != r.id }
  if r.stopped then bumpSplint s1 r.sess 11 1
  else
    let s2 := if r.poisoned && r.offset == 0 then bumpSplint s1 r.sess 10 1 else s1
    match putReply s2 r with
    | .error e => faultCommand s2 r.ref e
    | .ok s3 =>
      let a := answered (if r.offset = 0 then bumpSplint s3 r.sess 0 1 else s3) r.ref (Request.key r)
      if a.2 then rowComplete a.1 r else a.1

/-- Deliver a reply and those merged with it (06 R286, R287). -/
def deliverAll (s : State) (r : Request) : State :=
  let merged := s.requests.filter fun q => q.state == .merged r.id
  merged.foldl deliver (deliver s r)

/-- Reply data for a request that waited: state RETURNED with the given row. -/
def answerRequest (s : State) (id : Nat) (bs : List Byte) (poisoned : Bool) : State :=
  { s with requests := mapIf (fun r => r.id == id) (fun r => { r with state := .returned, data := bs, bytes := bs.length, poisoned := poisoned }) s.requests }

end Sys2Proof.Machine
end

