-- ==== Sys2Proof/Machine/Reduce.lean ====
section
/-! DEFINITION. Scatter-reduce: chunk-sums, their application to accumulators, partial records and contributions to owners
(chapters 06 and 09). -/

namespace Sys2Proof.Machine

/-! ### Operators (06 Table 6.6, R317, R320) -/

def opIsMax (op : Nat) : Bool := op == 2 || op == 6
def opIsMin (op : Nat) : Bool := op == 3 || op == 7
def opIsMean (op : Nat) : Bool := op == 1 || op == 5
def opIsSet (op : Nat) : Bool := decide (4 ≤ op)
def opHasWin (op : Nat) : Bool := opIsMax op || opIsMin op

def canonNan : U32 := 0x7FC00000

/-- x is strictly greater than y, with +0 above -0 (06 R320). -/
def fAbove (x y : U32) : Bool :=
  let a := fp32 x
  let b := fp32 y
  b.lt a || (a.isZero && b.isZero && !a.isNeg && b.isNeg)

/-- One comparison of MAX or MIN: the kept value and winner, and the flags (06 R320). -/
def pick (isMax : Bool) (cur : U32 × Nat) (x : U32) (tag : Nat) : (U32 × Nat) × Fl :=
  if fp32 cur.1 = .nan then ((canonNan, cur.2), 0)
  else if fp32 x = .nan then ((canonNan, tag), flNF)
  else if (if isMax then fAbove x cur.1 else fAbove cur.1 x) then ((x, tag), 0)
  else (cur, 0)

/-- The comparison of 06 R320 that keeps the left operand on a tie, as collectives use it (11 R587). -/
def fExtreme (isMax : Bool) (a b : U32) : U32 × Fl :=
  if fp32 a = .nan ∨ fp32 b = .nan then (canonNan, flNF)
  else if (if isMax then fAbove b a else fAbove a b) then (b, (fp32 a).nf ||| (fp32 b).nf)
  else (a, (fp32 a).nf ||| (fp32 b).nf)

/-- A chunk-sum: destination, elements, winners, and rows reduced. -/
structure ChunkSum where
  dest : Nat
  elems : List U32
  wins : List Nat
  n : Nat
  deriving DecidableEq, Repr

/-- The first row of a destination gives s directly (06 R317). -/
def firstSum (op : Nat) (r : SumRow) : ChunkSum × Fl :=
  if opHasWin op then
    let e := r.elems.map fun x => if fp32 x = .nan then canonNan else x
    (⟨r.dest, e, r.elems.map fun _ => r.tag, 1⟩, r.elems.foldl (fun a x => a ||| (if fp32 x = .nan then flNF else 0)) 0)
  else (⟨r.dest, r.elems, [], 1⟩, 0)

/-- A later row combined into s (06 R317, R320). -/
def nextSum (op : Nat) (s : ChunkSum) (r : SumRow) : ChunkSum × Fl :=
  if opHasWin op then
    let ps := ((s.elems.zip s.wins).zip r.elems).map fun p => pick (opIsMax op) p.1 p.2 r.tag
    (⟨s.dest, ps.map fun p => p.1.1, ps.map fun p => p.1.2, s.n + 1⟩, ps.foldl (fun a p => a ||| p.2) 0)
  else
    let ps := (s.elems.zip r.elems).map fun p => midAdd p.1 p.2
    (⟨s.dest, ps.map fun p => p.1, [], s.n + 1⟩, ps.foldl (fun a p => a ||| p.2) 0)

/-- The chunk-sums of rows in order, by destination in order of first row (06 R317, R319). -/
def chunkSums (op : Nat) (rows : List SumRow) : List ChunkSum × Fl :=
  rows.foldl (fun acc r =>
    match acc.1.find? fun s => s.dest == r.dest with
    | none => let f := firstSum op r; (acc.1 ++ [f.1], acc.2 ||| f.2)
    | some s => let f := nextSum op s r; (mapIf (fun x => x.dest == r.dest) (fun _ => f.1) acc.1, acc.2 ||| f.2)) ([], 0)

/-! ### Accumulators (06 R318, R321, R322) -/

/-- FP32 words of memory. -/
def readWords (s : State) (c : Context) (va n : Nat) : Except MemErr (List U32) :=
  match readVa s c .rd va (4 * n) with
  | .error e => .error e
  | .ok bs => .ok ((List.range n).map fun i => BitVec.ofNat 32 (fieldAt bs (4 * i) 4))

def wordsBytes (ws : List U32) : List Byte := ws.flatMap fun w => leBytes 4 w.toNat

/-- The accumulator row after s is applied, the winners that change, and the flags. -/
def applyOp (op : Nat) (acc : List U32) (x : ChunkSum) : List U32 × List (Option Nat) × Fl :=
  let quot := x.elems.map fun v => fdiv v (fofNat x.n)
  let qfl := arrayFl (quot.foldl (fun a p => a ||| p.2) 0)
  let rd := acc.foldl (fun a v => a ||| (fp32 v).nf) 0
  let none' := x.elems.map fun _ => (none : Option Nat)
  match op with
  | 0 => let ps := (acc.zip x.elems).map fun p => midAdd p.1 p.2; (ps.map fun p => p.1, none', ps.foldl (fun a p => a ||| p.2) rd)
  | 1 =>
    let ps := (acc.zip quot).map fun p => midAdd p.1 p.2.1
    (ps.map fun p => p.1, none', ps.foldl (fun a p => a ||| p.2) (rd ||| qfl))
  | 4 => (x.elems, none', 0)
  | 5 => (quot.map fun p => p.1, none', qfl)
  | 6 => (x.elems, x.wins.map some, 0)
  | 7 => (x.elems, x.wins.map some, 0)
  | _ =>
    let ps := (acc.zip (x.elems.zip x.wins)).map fun p =>
      let k := pick (op == 2) (p.1, 2 ^ 40) p.2.1 p.2.2
      (k.1.1, if k.1.2 = 2 ^ 40 then (none : Option Nat) else some k.1.2, k.2)
    (ps.map fun p => p.1, ps.map fun p => p.2.1, ps.foldl (fun a p => a ||| p.2.2) rd)

/-- Apply one chunk-sum to its accumulator row and its winners (06 R318, R321). -/
def applySum (s : State) (c : Context) (op accAddr winAddr e : Nat) (x : ChunkSum) : Except MemErr (State × Fl) := do
  let va := accAddr + 4 * e * x.dest
  let acc ← if opIsSet op then pure (List.replicate e 0) else readWords s c va e
  let r := applyOp op acc x
  let s1 ← writeVa s c .wr va (wordsBytes r.1)
  let s2 := tally (if opIsSet op then s1 else tally s1 c.sess 0 va (4 * e)) c.sess 1 va (4 * e)
  if opHasWin op then
    let wa := winAddr + 4 * e * x.dest
    let old ← readWords s2 c wa e
    let new := (old.zip r.2.1).map fun p => match p.2 with | some w => BitVec.ofNat 32 w | none => p.1
    let s3 ← writeVa s2 c .wr wa (wordsBytes new)
    pure (s3, r.2.2)
  else pure (s2, r.2.2)

/-- A SET destination of the chunk's range that no row has reached: +0, and every winner 0xFFFF_FFFF (06 R318). -/
def applyZero (s : State) (c : Context) (op accAddr winAddr e x : Nat) : Except MemErr State := do
  let s1 ← writeVa s c .wr (accAddr + 4 * e * x) (List.replicate (4 * e) 0)
  if opHasWin op then writeVa s1 c .wr (winAddr + 4 * e * x) (List.replicate (4 * e) 0xFF) else pure s1

/-- Apply the sums of a chunk in order. -/
def applySums (c : Context) (op accAddr winAddr e : Nat) : List ChunkSum → State → Except MemErr (State × Fl)
  | [], s => .ok (s, 0)
  | x :: t, s => do
    let r ← applySum s c op accAddr winAddr e x
    let q ← applySums c op accAddr winAddr e t r.1
    pure (q.1, r.2 ||| q.2)

def applyZeros (c : Context) (op accAddr winAddr e : Nat) : List Nat → State → Except MemErr State
  | [], s => .ok s
  | x :: t, s => do
    let s1 ← applyZero s c op accAddr winAddr e x
    applyZeros c op accAddr winAddr e t s1

/-! ### Partial records (06 R323, R324, Table 6.7) -/

def partStride (e : Nat) : Nat := alignUp (64 + 8 * e) 64

/-- The header of a partial record. -/
def partHeader (k : Chunk) (op step e n : Nat) (h2 : Bool) : List Byte :=
  leBytes 4 (if k.split then k.destFirst else 0xFFFFFFFF) ++ leBytes 4 n ++ leBytes 2 k.splitSeq ++ leBytes 2 k.splitCount ++
    leBytes 2 e ++ leBytes 2 (op + (if h2 then 8 else 0) + (if k.split then 16 else 0)) ++ leBytes 4 step ++ List.replicate 44 0

/-- Write the record of a chunk: its header, and for a split chunk its value and winners. -/
def writePart (s : State) (c : Context) (k : Chunk) (op step e partAddr : Nat) (h2 : Bool) (x : Option ChunkSum) : Except MemErr State := do
  let va := partAddr + k.num * partStride e
  let n := match x with | some y => y.n | none => 0
  let s1 ← writeVa s c .wr va (partHeader k op step e n h2)
  match k.split, x with
  | true, some y =>
    let s2 ← writeVa s1 c .wr (va + 64) (wordsBytes y.elems)
    if opHasWin op then writeVa s2 c .wr (va + 64 + 4 * e) (wordsBytes (y.wins.map fun w => BitVec.ofNat 32 w)) else pure s2
  | _, _ => pure s1

/-! ### Contributions (06 R328; 09 R494, R496; 11 R581) -/

/-- Bytes of the contribution store of a context in use; a contribution takes its elements and a 32-B tag, as a log entry
does (log entry 18). -/
def storeUse (c : Context) : Nat := sumNat (c.contributions.map fun x => alignUp (32 + 4 * x.grad.length) 32)

def storeRoom (c : Context) (x : Contribution) : Bool := decide (storeUse c + alignUp (32 + 4 * x.grad.length) 32 ≤ c.storeBytes)

/-- The next number of a sender's contributions to an owner in a step (11 R581). -/
def nextSeq (c : Context) (owner step : Nat) : Nat :=
  match c.contribSeq.find? fun x => x.1 == owner && x.2.1 == step with | some x => x.2.2 | none => 0

def bumpSeq (owner step : Nat) (c : Context) : Context :=
  if c.contribSeq.any fun x => x.1 == owner && x.2.1 == step then
    { c with contribSeq := mapIf (fun x => x.1 == owner && x.2.1 == step) (fun x => (x.1, x.2.1, x.2.2 + 1)) c.contribSeq }
  else { c with contribSeq := c.contribSeq ++ [(owner, step, 1)] }

/-- Store a contribution at its owner, or let it wait for space (09 R494, R496). One of a step already decided
is late: it is discarded and counted (R497). The Bool says that it is dealt with. -/
def storeContribution (s : State) (sess : U32) (x : Contribution) (jobTag : U32) (gid : Nat) (ref : Option CmdRef) : State × Bool :=
  match findCtx s sess with
  | none => (s, false)
  | some c =>
    if stepDecided c x.step then
      (setCtx s sess fun c => { c with memCtr := bump c.memCtr 12 1 }, true)
    else if c.waiting.isEmpty && storeRoom c x then
      (setCtx s sess fun c => { c with contributions := c.contributions ++ [x], memCtr := bump c.memCtr 10 1 }, true)
    else
      (setCtx s sess fun c => { c with waiting := c.waiting ++ [{ item := x, since := s.now, jobTag := jobTag, gid := gid, ref := ref }] }, false)

/-- Send one chunk-sum to the owner of its row (06 R328). A row of a table that is not trained has no gradient: its
chunk-sum is dropped (log entry 19). -/
def contribute (s : State) (c : Context) (h : Half) (ref : CmdRef) (pool step : Nat) (grad : List U32) : Except CmdErr State :=
  match resolvePool s c pool with
  | .here t idx =>
    if t.optimiser = 0 then .ok s
    else
      let x : Contribution := { table := t.handle, row := idx, step := step, sender := myNumber s,
                                seq := nextSeq c (myNumber s) step, grad := grad }
      let r := storeContribution (setCtx s c.sess (bumpSeq (myNumber s) step)) c.sess x 0 0 (some ref)
      .ok (if r.2 then r.1 else setJob r.1 ref fun j => { j with contribsDue := j.contribsDue + 1 })
  | .there t m g =>
    if t.optimiser = 0 then .ok s
    else
      let p := { newPacket s g 0x0A m with msg := BitVec.ofNat 32 (nextSeq c m step), step := BitVec.ofNat 32 step,
                                           a := BitVec.ofNat 64 pool, b := BitVec.ofNat 64 grad.length, data := wordsBytes grad }
      let s1 := setCtx s c.sess fun c => bumpSeq m step { c with fabricCtr := bump c.fabricCtr 11 1 }
      let u := freshUid s1
      let q : RemoteReq := { msg := nextSeq c m step, ref := ref, sess := c.sess, group := g.handle, type := 0x0A, hop := step,
                             items := [pool], peer := m, targetIncarn := incarnOfModule s m, sentAt := s.now, stopped := false }
      let s2 := setJob { u.2 with remoteReqs := u.2.remoteReqs ++ [q] } ref fun j => { j with contribsDue := j.contribsDue + 1 }
      let r := sendFrom s2 c h p
      if r.2 then .ok r.1 else .error (.hw (cutPort s m))
  | _ => .ok s

end Sys2Proof.Machine
end

