-- ==== Sys2Proof/Machine/Splints.lean ====
section
/-! DEFINITION. The Splint commands: gathers, coil runs, scatter-reduce, the chunks they are cut into, and the coil
instructions (chapter 06). -/

namespace Sys2Proof.Machine

/-! ### Chunks (06 R299, R300, R303, R326) -/

def newChunk (num first count : Nat) : Chunk :=
  { num := num, first := first, count := count, destFirst := 0, destCount := 0, split := false, splitSeq := 0, splitCount := 1,
    attempt := 0, state := .unclaimed, issued := 0, finishedAt := 0, got := [], rows := [], tiles := none, rowElems := 0 }

/-- n positions in chunks of p (06 R300, R304, R326). -/
def rangeChunks (n p : Nat) : List Chunk :=
  (List.range (ceilDiv n p)).map fun c => newChunk c (p * c) (Nat.min p (n - p * c))

/-- The state of the cut of 06 R299: chunks closed, and the open chunk's first destination, first edge and edges. -/
structure Cut where
  chunks : List Chunk
  openDest : Nat
  openEdge : Nat
  used : Nat

/-- Close the open chunk before destination x, if it holds any destination. -/
def closeCut (x : Nat) (k : Cut) : Cut :=
  if x = k.openDest then k
  else { k with chunks := k.chunks ++ [{ newChunk k.chunks.length k.openEdge k.used with destFirst := k.openDest, destCount := x - k.openDest }] }

/-- The cut at destination x with edges lo to hi − 1. -/
def cutDest (k : Cut) (x lo hi : Nat) : Cut :=
  let d := hi - lo
  if 256 < d then
    let k1 := closeCut x k
    let n := ceilDiv d 256
    let new := (List.range n).map fun i =>
      { newChunk (k1.chunks.length + i) (lo + 256 * i) (Nat.min 256 (d - 256 * i)) with
        destFirst := x, destCount := 1, split := true, splitSeq := i, splitCount := n }
    { chunks := k1.chunks ++ new, openDest := x + 1, openEdge := hi, used := 0 }
  else
    let k1 := if 256 < k.used + d then { closeCut x k with openDest := x, openEdge := lo, used := 0 } else k
    { k1 with used := k1.used + d }

/-- The chunks of a block hop with COUNT + 1 entries of PTR (06 R299). -/
def cutChunks (ptr : List Nat) : List Chunk :=
  let pairs := (List.range (ptr.length - 1)).zip (ptr.zip (ptr.drop 1))
  let k := pairs.foldl (fun k p => cutDest k p.1 p.2.1 p.2.2) { chunks := [], openDest := 0, openEdge := nthD 0 ptr 0, used := 0 }
  (closeCut (ptr.length - 1) k).chunks

/-- Destinations cut into more than one chunk. -/
def splitDests (ks : List Chunk) : Nat := (ks.filter fun k => k.split && k.splitSeq == 0).length

/-- The first chunk of East's part (06 R303). -/
def halfSplit (ks : List Chunk) (halves edges : Nat) : Nat :=
  match halves with
  | 1 => ks.length
  | 2 => 0
  | _ => match ks.find? fun k => decide (edges ≤ 2 * k.first) with | some k => k.num | none => ks.length

/-! ### Jobs -/

def newJob (s : State) (r : Running) (step : Nat) (ks : List Chunk) (edges : Nat) : SpJob :=
  { ref := r.ref, sess := r.sess, opcode := cmdOpcode r.word, step := step, chunks := ks,
    westEnd := halfSplit ks (cmdHalves r.word) edges, outstanding := [], done := [], touched := [], parts := [], sums := [],
    contribsDue := 0, lastClaim := s.now, words := [], bags := [] }

/-- A half starts a Splint command: the first makes the job, the second joins it (03 R132, 06 R303). A job without chunks
completes at once (03 R172). -/
def beginJob (s : State) (h : Half) (r : Running) (mk : Except CmdErr (State × SpJob)) : Except CmdErr State :=
  let inst := EngineInst.splints h
  match findJob s r.ref with
  | some _ => .ok (finishJob (markStarted s inst r.ref) r.ref)
  | none =>
    match mk with
    | .error e => .error e
    | .ok (s1, j) => .ok (finishJob (markStarted { s1 with jobs := s1.jobs ++ [j] } inst r.ref) r.ref)

/-- The index stream of a command (06 R280). -/
def indexDesc (r : Running) (off : Nat) : Option Desc :=
  match r.desc off with
  | some d => if d.fmt = 0 ∧ d.ndim = 2 ∧ d.count 0 = 2 then some d else none
  | none => none

/-- Index j of an index stream, a little-endian 64-bit word (06 R280). -/
def readIndex (s : State) (c : Context) (d : Desc) (j : Nat) : Except MemErr Nat := do
  let a ← readCode s c .rd d 0 [j, 0, 0, 0]
  let b ← readCode s c .rd d 1 [j, 0, 0, 0]
  pure (a.1 + 2 ^ 32 * b.1)

/-- The indices of positions first to first + n − 1. -/
def readIndices (s : State) (c : Context) (d : Desc) (first : Nat) : Nat → Except MemErr (List Nat)
  | 0 => .ok []
  | n + 1 => do
    let t ← readIndices s c d first n
    let w ← readIndex s c d (first + n)
    pure (t ++ [w])

/-! ### SP_GATHER: fields and plan (06 R292-R296) -/

def gRowBytes (w : BitVec 512) : Nat := fld w 0x20 12 0
def gByPool (w : BitVec 512) : Bool := fld w 0x10 48 48 == 1
def gPooled (w : BitVec 512) : Bool := fld w 0x20 16 16 == 1
def gStep (w : BitVec 512) : Nat := fld w 0x30 31 0

/-- Formats without an element conversion (06 R296, R316). -/
def noElemConv (fmt : Nat) : Bool := fmt == 0xE || fmt == 0xF

/-- The field rules of a gather (06 R280, R292-R294, R296). -/
def gatherOk (r : Running) : Bool :=
  let w := r.word
  decide (32 ≤ gRowBytes w) && decide (gRowBytes w ≤ 4096) &&
    match indexDesc r 0x10 with
    | none => false
    | some ix =>
      if gPooled w then
        gByPool w && outPipe w == 0 &&
          match r.desc 0x28, r.desc 0x18 with
          | some b, some d => b.fmt == 0 && b.ndim == 1 && decide (1 ≤ b.count 0) && d.count 1 == b.count 0 - 1 && !noElemConv d.fmt
          | _, _ => false
      else if outPipe w ≠ 0 then fld w 0x18 47 0 == 0
      else
        match r.desc 0x18 with
        | some d => packedBytes d.fmt (d.count 0) == gRowBytes w && d.count 1 == ix.count 1
        | none => false

/-- The offsets of a bag stream. -/
def readOffsets (s : State) (c : Context) (d : Desc) : Nat → Except MemErr (List Nat)
  | 0 => .ok []
  | n + 1 => do
    let t ← readOffsets s c d n
    let w ← readCode s c .rd d n [0, 0, 0, 0]
    pure (t ++ [w.1])

/-- The positions of each bag, and how many bags were bad (06 R294). -/
def bagBounds (n : Nat) (offs : List Nat) : List (Nat × Nat) × Nat :=
  let pairs := offs.zip (offs.drop 1)
  let bad := fun (p : Nat × Nat) => decide (p.2 < p.1) || decide (n < p.2)
  (pairs.map fun p => if bad p then (0, 0) else p, (pairs.filter bad).length)

/-- The module that sums a row of a bag: its owner, or the requester for a default row (06 R282, R295). -/
def bagOwner (s : State) (c : Context) (word : Nat) : Nat :=
  match resolvePool s c word with
  | .there _ m _ => m
  | _ => myNumber s

/-- The positions of a bag. -/
def bagPositions (b : Nat × Nat) : List Nat := (List.range (b.2 - b.1)).map fun i => b.1 + i

/-- The tables of the rows of bags have one format and the row size of the destination (06 R294, R296). -/
def bagTablesOk (c : Context) (d : Desc) (words : List Nat) : Except Nat (Option Nat) :=
  match words.find? fun w => (findTable c (poolTable w)).isNone with
  | some w => .error w
  | none =>
    match words with
    | [] => .ok none
    | w0 :: _ =>
      let same := words.all fun w => match findTable c (poolTable w), findTable c (poolTable w0) with
        | some t, some u => t.fmt == u.fmt && !noElemConv t.fmt && t.elems == d.count 0
        | _, _ => false
      .ok (if same then some (poolTable w0) else none)

/-- Answers due for a bag: one for each row held here, one for each other owner. -/
def bagDue (s : State) (c : Context) (words : List Nat) (b : Nat × Nat) : Nat :=
  let owners := (bagPositions b).map fun p => bagOwner s c (nthD 0 words p)
  (owners.filter fun m => m == myNumber s).length + ((owners.filter fun m => m != myNumber s).eraseDups).length

/-- The plan of a pooled gather: index words and bags are read, empty bags yield rows of zeros (06 R294). -/
def planBags (s : State) (c : Context) (r : Running) (inst : EngineInst) (ix b d : Desc) : Except CmdErr (State × SpJob) := do
  let n := ix.count 1
  let words ← memTry inst.unit (readIndices s c ix 0 n)
  let offs ← memTry inst.unit (readOffsets s c b (b.count 0))
  let bags := (bagBounds n offs).1
  let used := (bags.flatMap bagPositions).map fun p => nthD 0 words p
  match bagTablesOk c d used with
  | .error w => .error (.code faultTranslation inst.unit w)
  | .ok h =>
    mustBe inst (h.isSome || used.isEmpty)
    let j := { newJob s r (gStep r.word) (rangeChunks n 256) n with
      words := words, bags := bags, touched := h.toList,
      outstanding := ((List.range bags.length).zip bags).filterMap fun p => if p.2.1 < p.2.2 then some (p.1, bagDue s c words p.2) else none }
    pure (bumpSplint s r.sess 9 (bagBounds n offs).2, j)

/-- Write the rows of zeros of the empty bags. -/
def writeEmptyBags (s : State) (c : Context) (r : Running) (inst : EngineInst) (d : Desc) : Except CmdErr State :=
  match findJob s r.ref with
  | none => .ok s
  | some j =>
    (((List.range j.bags.length).zip j.bags).filter fun p => decide (p.2.2 ≤ p.2.1)).foldlM (fun st p =>
      match writeFloats st c d p.1 (List.replicate (d.count 0) 0) with
      | .error e => .error (errMem inst.unit e)
      | .ok x => .ok (positionDone (tally x.st r.sess 1 (toAddr (d.rowBase [p.1])) (packedBytes d.fmt (d.count 0))) r.ref p.1 (some d))) s

/-! ### Issuing the rows of a gather (06 R277, R279, R292-R295) -/

/-- Ask an owner for its part of a bag: the pool addresses of the bag's rows that it owns, in bag order. -/
def issueBagReq (s : State) (c : Context) (i : Issue) (g : Group) (m : Nat) (t : Table) (words : List Nat) : Except CmdErr State :=
  let u := s.nextUid
  let s1 := addRequest s i fun r =>
    { r with state := .remote, table := t.handle, row := poolRow (nthD 0 words 0), bytes := 4 * t.elems, owner := m, group := g.handle,
             targetIncarn := incarnOfModule s m }
  let s2 := setCtx s1 c.sess fun c => { c with splintCtr := bump c.splintCtr 6 1, fabricCtr := bump c.fabricCtr 9 1 }
  let p := { newPacket s2 g 0x06 m with msg := BitVec.ofNat 32 u, step := BitVec.ofNat 32 i.step, a := BitVec.ofNat 64 t.handle,
                                        b := BitVec.ofNat 64 t.rowBytes }
  let r := sendMessage s2 c i.splint.half p (words.flatMap fun w => leBytes 8 w)
  if r.2 then .ok r.1 else .error (.hw (cutPort s m))

/-- Issue a position for one bag that holds it. A row of another owner is asked for with the first of the bag's rows of
that owner. -/
def issueForBag (s : State) (c : Context) (j : SpJob) (core : CoreId) (pos bag : Nat) (bounds : Nat × Nat) : Except CmdErr State :=
  let word := nthD 0 j.words pos
  let i : Issue := { ref := j.ref, sess := j.sess, splint := core, step := j.step, position := pos, dest := .bag bag (myNumber s) pos 0 }
  match resolvePool s c word with
  | .there t m g =>
    let mine := (bagPositions bounds).filter fun p => bagOwner s c (nthD 0 j.words p) == m
    if mine.head? = some pos then
      issueBagReq s c { i with dest := .bag bag m pos 0 } g m t (mine.map fun p => nthD 0 j.words p)
    else .ok s
  | _ =>
    let n := match findTable c (poolTable word) with | some t => t.rowBytes | none => 0
    match issuePool s c i word n with
    | .error e => .error e
    | .ok s1 => .ok (addOutstanding s1 j.ref bag (newRequests s s1 - 1))

/-- The tile of a piped gather that holds a position, made with its first position (06 R293). -/
def gatherTile (s : State) (sess : U32) (pipe : Nat) (k : Chunk) (pos : Nat) : State × Nat :=
  let lo := k.first + (pos - k.first) / 32 * 32
  let seq := (pos - k.first) / 32
  let n := Nat.min 32 (k.first + k.count - lo)
  let found := match findCtx s sess with
    | none => none
    | some c => (findPipe c pipe).bind fun (p : Pipe) => p.tiles.find? fun (t : Tile) => t.chunk == k.num && t.seq == seq && t.attempt == k.attempt
  match found with
  | some t => (s, t.uid)
  | none =>
    let u := freshUid s
    let t : Tile :=
      { uid := u.1, chunk := k.num, seq := seq, last := decide (k.first + k.count ≤ lo + 32), split := false, relation := 0,
        attempt := k.attempt, colBase := 0, rowElems := 0, splitSeq := 0, destFirst := k.first, destCount := k.count, splitCount := 1,
        fmt := 0, raw := true, rows := (List.range n).map fun i => { dest := BitVec.ofNat 32 (lo + i), edge := BitVec.ofNat 32 (lo + i), data := none } }
    (setPipe u.2 sess pipe fun p => { p with tiles := p.tiles ++ [t] }, u.1)

/-- Issue the row of a position (06 R292-R295). -/
def issuePosition (s : State) (c : Context) (r : Running) (j : SpJob) (core : CoreId) (k : Chunk) (pos : Nat) : Except CmdErr State :=
  if gPooled r.word then
    (((List.range j.bags.length).zip j.bags).filter fun p => decide (p.2.1 ≤ pos) && decide (pos < p.2.2)).foldlM
      (fun st p => issueForBag st c j core pos p.1 p.2) s
  else
    match indexDesc r 0x10 with
    | none => .ok s
    | some ix => do
      let word ← memTry (CoreId.unit core) (readIndex s c ix pos)
      let s1 := tally s r.sess 0 (toAddr (ix.rowBase [pos])) 8
      let d : State × ReqDest :=
        if outPipe r.word = 0 then
          match r.desc 0x18 with
          | some d => (s1, .memory (toAddr (d.rowBase [pos])))
          | none => (s1, .memory (2 ^ 63))
        else let t := gatherTile s1 r.sess (outPipe r.word) k pos; (t.1, .tileRow t.2 ((pos - k.first) % 32) 0)
      let i : Issue := { ref := r.ref, sess := r.sess, splint := core, step := j.step, position := pos, dest := d.2 }
      let s2 ← issueRow d.1 c i (gByPool r.word) word (gRowBytes r.word)
      pure (addOutstanding s2 r.ref pos (newRequests d.1 s2))

/-- Room for a row's requests in a Splint's slots (06 R276, R279). -/
def slotsFor (s : State) (core : CoreId) (n : Nat) : Bool := decide (slotsHeld s core + n ≤ 1024)

/-- Whether the next row of a gather can be issued: slots, and a consumer that has fired (03 R136). -/
def canIssue (s : State) (c : Context) (r : Running) (core : CoreId) : Bool :=
  slotsFor s core (if gPooled r.word then 8 else ceilDiv (gRowBytes r.word) 512) && (outPipe r.word == 0 || pipeReady c (outPipe r.word))

/-- Issue positions of a chunk while that is possible. A chunk of a pooled gather is done once all are issued. -/
def issueChunk (ref : CmdRef) (core : CoreId) (n : Nat) : Nat → State → State
  | 0, s => s
  | fuel + 1, s =>
    match findJob s ref, runningOfRef s ref with
    | some j, some r =>
      match findChunk j n, findCtx s r.sess with
      | some k, some c =>
        if k.issued < k.count then
          if canIssue s c r core then
            match issuePosition s c r j core k (k.first + k.issued) with
            | .error e => faultCommand s ref e
            | .ok s1 => issueChunk ref core n fuel (setChunk s1 ref n fun k => { k with issued := k.issued + 1 })
          else s
        else if gPooled r.word then
          finishJob (bumpSplint (setChunk s ref n fun k => { k with state := .applied, finishedAt := s.now }) j.sess 16 1) ref
        else s
      | _, _ => s
    | _, _ => s

/-- The chunks of gathers that a Splint has claimed and not finished. -/
def gatherChunksOf (s : State) (core : CoreId) : List (CmdRef × Nat) :=
  s.jobs.flatMap fun j => if j.opcode = 0x20 then (j.chunks.filter fun k => k.state == .claimed core).map fun k => (j.ref, k.num) else []

/-- A Splint goes on issuing the rows of its chunks. -/
def issueMore (s : State) (core : CoreId) : State :=
  (gatherChunksOf s core).foldl (fun st p => issueChunk p.1 core p.2 257 st) s

/-! ### Claiming (06 R302, R303) -/

def ChunkState.heldBy (core : CoreId) : ChunkState → Bool
  | .claimed c => c == core
  | .finished c => c == core
  | _ => false

/-- Chunks of a job that a Splint holds and has not finished; one that waits to be applied is held too (06 R327). -/
def heldChunks (j : SpJob) (core : CoreId) : Nat :=
  (j.chunks.filter fun k => if j.opcode = 0x21 then k.state.heldBy core else k.state == .claimed core).length

/-- The next chunk for a half: the front of its own part, else the back of the other's. -/
def nextChunk (j : SpJob) (h : Half) : Option Chunk :=
  let open' := j.chunks.filter fun k => k.state == .unclaimed
  let own := open'.filter fun k => match h with | .west => decide (k.num < j.westEnd) | .east => decide (j.westEnd ≤ k.num)
  match own.head? with
  | some k => some k
  | none => open'.getLast?

/-- The command for which a Splint claims: the first started one of its half with a chunk left, or of the other half when
no Splint works there (06 R343). -/
def claimable (s : State) (core : CoreId) : Option (SpJob × Chunk) :=
  let of := fun (h : Half) => (findEngine s (.splints h)).running.filter fun r => r.started
  let others := if (allCores core.half.other).any fun c => splintWorks s c then [] else of core.half.other
  (of core.half ++ others).findSome? fun r =>
    match findJob s r.ref with
    | none => none
    | some j => if heldChunks j core < 2 then (nextChunk j core.half).map fun k => (j, k) else none

/-- The registers on entry to a chunk (06 Table 6.4). -/
def entryRegs (w : BitVec 512) (k : Chunk) : List U64 :=
  let n := fun (v : Nat) => BitVec.ofNat 64 v
  [0, n k.num, n k.first, n k.count, n k.destFirst, n k.destCount, n (fld w 0x18 47 0), n (fld w 0x28 31 0),
    if k.split then 1 else 0] ++ List.replicate 23 0

/-- Start a coil program on a chunk (06 R306). -/
def loadCore (s : State) (r : Running) (core : CoreId) (k : Chunk) : State :=
  { s with cores := s.cores ++ [{ id := core, job := r.ref, chunk := k.num, coil := fld r.word 0x10 23 0, regs := entryRegs r.word k,
                                  pc := 0, executed := 0, tile := none, closed := none, rowBytes := 0, tileSeq := 0 }] }

/-! ### SP_SCATTER: fields and chunk-sums (06 R314-R322, R326) -/

def sOp (w : BitVec 512) : Nat := fld w 0x20 50 48
def sByPool (w : BitVec 512) : Bool := fld w 0x18 48 48 == 1
def sAcc (w : BitVec 512) : Nat := fld w 0x20 47 0
def sH2 (w : BitVec 512) : Bool := fld w 0x20 51 51 == 1
def sWin (w : BitVec 512) : Nat := fld w 0x28 47 0
def sPart (w : BitVec 512) : Nat := fld w 0x30 47 0
def sStep (w : BitVec 512) : Nat := fld w 0x38 31 0

/-- The field rules of a scatter-reduce (06 R280, R314-R316, R321, R325, R327, R328). -/
def scatterOk (r : Running) : Bool :=
  let w := r.word
  let op := sOp w
  let winOk := !opHasWin op || sWin w != 0
  if inPipe w ≠ 0 then fld w 0x10 47 0 == 0 && fld w 0x18 47 0 == 0 && !sByPool w && winOk
  else
    !opIsMean op && !opIsSet op && !sH2 w && sPart w == 0 &&
      (if sByPool w then op == 0 && sAcc w == 0 && sWin w == 0 else winOk) &&
      match r.desc 0x10, indexDesc r 0x18 with
      | some d, some ix => d.ndim == 2 && decide (d.count 0 ≤ 1024) && d.count 1 == ix.count 1 && !noElemConv d.fmt
      | _, _ => false

/-- Positions in a chunk of index mode (06 R326). -/
def indexP (e : Nat) : Nat := Nat.min 256 (32768 / e)

/-- Where an index of a scatter-reduce points: a destination key, or the counter of a discarded row (06 R284, R321). -/
def scatterDest (s : State) (c : Context) (byPool : Bool) (word : Nat) : Except Nat (Nat ⊕ Nat) :=
  if byPool then
    match resolvePool s c word with
    | .noTable => .error word
    | .missing => .ok (.inr 7)
    | .range => .ok (.inr 8)
    | _ => .ok (.inl word)
  else if word % 2 ^ 32 = 0xFFFFFFFF then .ok (.inr 7) else .ok (.inl (word % 2 ^ 32))

/-- One row of a chunk of index mode added to those read, with the flags of decoding it (06 R316). -/
def scatterRow (c : Context) (unit : Nat) (w : BitVec 512) (d ix : Desc) (acc : State × List SumRow × Fl) (pos : Nat) :
    Except CmdErr (State × List SumRow × Fl) := do
  let s := acc.1
  let word ← memTry unit (readIndex s c ix pos)
  match scatterDest s c (sByPool w) word with
  | .error a => .error (.code faultTranslation unit a)
  | .ok (.inr ctr) => pure (bumpSplint s c.sess ctr 1, acc.2)
  | .ok (.inl key) =>
    let v ← memTry unit (readRow s c d [pos, 0, 0, 0])
    let row : SumRow := { dest := key, tag := pos, tile := 0, row := pos, col := 0, elems := v.1.map fun x => (toFp32 x).1 }
    let s1 := tally (tally s c.sess 0 (toAddr (ix.rowBase [pos])) 8) c.sess 0 (toAddr (d.rowBase [pos])) (packedBytes d.fmt (d.count 0))
    pure (bumpSplint s1 c.sess 1 1, acc.2.1 ++ [row], acc.2.2 ||| v.2)

/-- A Splint forms the rows of a chunk of index mode (06 R326, R327). -/
def formChunk (s : State) (c : Context) (r : Running) (core : CoreId) (k : Chunk) : Except CmdErr State :=
  match r.desc 0x10, indexDesc r 0x18 with
  | some d, some ix => do
    let a ← ((List.range k.count).map fun i => k.first + i).foldlM (scatterRow c (CoreId.unit core) r.word d ix) (s, [], 0)
    pure (setChunk (setFlags a.1 r.sess engSplints a.2.2) r.ref k.num fun k =>
      { k with state := .finished core, finishedAt := s.now, rows := a.2.1, rowElems := d.count 0 })
  | _, _ => .ok s

/-! ### CHUNK_CLAIM -/

/-- A Splint claims a chunk and begins it (06 R302): a gather's rows are issued, the rows of an index-mode chunk are formed,
a coil program is entered. Without a chunk to claim it goes on with those it has. -/
def chunkClaim (s : State) (core : CoreId) : State :=
  if splintWorks s core = false then s
  else
    match claimable s core with
    | none => issueMore s core
    | some (j, k) =>
      match runningOfRef s j.ref, findCtx s j.sess with
      | some r, some c =>
        if j.opcode = 0x21 ∧ inPipe r.word ≠ 0 then s
        else
          let s1 := setJob (setChunk s j.ref k.num fun k => { k with state := .claimed core }) j.ref fun j => { j with lastClaim := s.now }
          match j.opcode with
          | 0x20 => issueMore s1 core
          | 0x21 => match formChunk s1 c r core k with | .ok s2 => s2 | .error e => faultCommand s1 j.ref e
          | _ => loadCore s1 r core k
      | _, _ => s

def execChunkClaim (c : CoreId) (s : State) : Host.Outcome State Fault Refusal := .next (chunkClaim s c)

/-! ### SP_GATHER -/

/-- A gather starts on a half: its Splints claim chunks and issue their rows (06 R285, R292-R297, R302, R304). -/
def startGather (h : Half) (s : State) (c : Context) (r : Running) : Except CmdErr State := do
  let inst := EngineInst.splints h
  mustBe inst (gatherOk r)
  let fresh := (findJob s r.ref).isNone
  let n := match indexDesc r 0x10 with | some ix => ix.count 1 | none => 0
  let s1 ← beginJob s h r (match gPooled r.word, indexDesc r 0x10, r.desc 0x28, r.desc 0x18 with
    | true, some ix, some b, some d => planBags s c r inst ix b d
    | _, _, _, _ => .ok (s, newJob s r (gStep r.word) (rangeChunks n 256) n))
  let s2 ← match gPooled r.word && fresh, r.desc 0x18 with
    | true, some d => writeEmptyBags s1 c r inst d
    | _, _ => .ok s1
  pure ((allCores h ++ allCores h).foldl chunkClaim s2)

def execSpGather (h : Half) (s : State) : Host.Outcome State Fault Refusal :=
  .next (withRunning s (.splints h) (fun w => cmdOpcode w == 0x20) (startGather h))

/-! ### SP_SCATTER -/

/-- A scatter-reduce starts on a half. In pipe mode its chunks come with the tiles (06 R314). -/
def startScatter (h : Half) (s : State) (_c : Context) (r : Running) : Except CmdErr State := do
  let inst := EngineInst.splints h
  mustBe inst (scatterOk r)
  let ks := if inPipe r.word ≠ 0 then [] else
    match r.desc 0x10 with
    | some d => rangeChunks (d.count 1) (indexP (d.count 0))
    | none => []
  beginJob s h r (.ok (s, newJob s r (sStep r.word) ks (sumNat (ks.map fun k => k.count))))

def execSpScatter (h : Half) (s : State) : Host.Outcome State Fault Refusal :=
  .next (withRunning s (.splints h) (fun w => cmdOpcode w == 0x21) (startScatter h))

/-- A tile piece covers every column of every edge tile of its chunk. A Weave command that numbers its tiles by column
sends each TILE_SEQ once (07 R369, R377). -/
def byColumn (k : Chunk) : Bool := decide (32 < k.rowElems) && k.got.all fun g => g.2.1 == 32 * g.1

def chunkWhole (k : Chunk) : Bool :=
  match k.tiles with
  | none => false
  | some t => let per := Nat.max 1 (ceilDiv k.rowElems 32); decide ((if byColumn k then per else t * per) ≤ k.got.length)

/-- The rows of a chunk in TILE_SEQ order and row order, their columns put together (06 R317). -/
def wholeRows (k : Chunk) : List SumRow :=
  let seqOf := fun (x : SumRow) => if byColumn k then 0 else x.tile
  let keys := sortBy (fun (a b : Nat × Nat) => decide (a.1 < b.1) || (a.1 == b.1 && decide (a.2 < b.2)))
    ((k.rows.map fun x => (seqOf x, x.row)).eraseDups)
  keys.filterMap fun q =>
    let ps := sortBy (fun (a b : SumRow) => decide (a.col < b.col)) (k.rows.filter fun x => seqOf x == q.1 && x.row == q.2)
    match ps with
    | [] => none
    | p :: _ => some { p with tile := q.1, elems := ps.flatMap fun x => x.elems }

/-- The unmasked rows of a tile as FP32, with the flags of decoding (06 R316). -/
def tileRows (t : Tile) : List SumRow × Fl :=
  let rs := ((List.range t.rows.length).zip t.rows).filter fun p => p.2.dest != 0xFFFFFFFF
  rs.foldl (fun acc p =>
    let bs := p.2.data.getD []
    let n := if fmtWidth t.fmt = 0 then bs.length / 7 * 32 else bs.length * 8 / fmtWidth t.fmt
    let e := rowElems t.fmt n bs
    (acc.1 ++ [{ dest := p.2.dest.toNat, tag := p.2.edge.toNat, tile := t.seq, row := p.1, col := t.colBase, elems := e.1 }], acc.2 ||| e.2))
    ([], 0)

/-- A tile breaks a rule on arrival (06 R316, R322, R323). -/
def tileBad (w : BitVec 512) (t : Tile) : Bool :=
  t.raw || noElemConv t.fmt || (t.split && sPart w == 0) ||
    (opIsMean (sOp w) && t.rows.any fun r => r.dest != 0xFFFFFFFF &&
      !(decide (t.destFirst ≤ r.dest.toNat) && decide (r.dest.toNat < t.destFirst + t.destCount)))

/-- The chunk of a tile, made with its first tile; a later attempt begins it anew (06 R343). None for an earlier attempt. -/
def tileChunk (j : SpJob) (core : CoreId) (t : Tile) : Option Chunk :=
  let new : Chunk := { newChunk t.chunk 0 0 with
    destFirst := t.destFirst, destCount := t.destCount, split := t.split, splitSeq := t.splitSeq, splitCount := t.splitCount,
    attempt := t.attempt, rowElems := t.rowElems, state := .claimed core }
  match findChunk j t.chunk with
  | none => some new
  | some k =>
    if t.attempt < k.attempt then none
    else if k.attempt < t.attempt then some new
    else match k.state with | .claimed _ => some k | _ => none

/-- Take a tile into its chunk (06 R316, R317); a chunk whose tiles have all come is finished. -/
def takeScatterTile (s : State) (r : Running) (j : SpJob) (core : CoreId) (t : Tile) : State :=
  match tileChunk j core t with
  | none => s
  | some k =>
    let rs := tileRows t
    let k1 := { k with got := (t.seq, t.colBase, t.rowElems) :: k.got, rows := k.rows ++ rs.1,
                       tiles := if t.last then some (t.seq + 1) else k.tiles }
    let k2 := if chunkWhole k1 then { k1 with state := .finished core, finishedAt := s.now, rows := wholeRows k1 } else k1
    let n := if chunkWhole k1 then k2.rows.length else 0
    let others := j.chunks.filter fun x => x.num != t.chunk
    setFlags (bumpSplint (setJob s r.ref fun j => { j with chunks := others ++ [k2], lastClaim := s.now }) r.sess 1 n) r.sess engSplints rs.2

/-- The first tile of a pipe whose rows have all come, taken out of it. -/
def takeTile (s : State) (c : Context) (n : Nat) : Option (Tile × State) :=
  match findPipe c n with
  | none => none
  | some p => (p.tiles.find? fun t => tileComplete s t).map fun t =>
      (t, setPipe s c.sess n fun q => { q with tiles := q.tiles.filter fun x => x.uid != t.uid })

/-- A tile arrives at the scatter-reduce of a half, or its input has ended (03 R717; 06 R312, R316, R322, R323). -/
def scatterTile (s : State) (h : Half) : State :=
  let inst := EngineInst.splints h
  match (findEngine s inst).running.find? fun r => cmdOpcode r.word == 0x21 && inPipe r.word != 0 && r.started with
  | none => s
  | some r =>
    match findCtx s r.sess with
    | none => s
    | some c =>
      match takeTile s c (inPipe r.word) with
      | none => finishJob s r.ref
      | some (t, s1) =>
        if tileBad r.word t then faultCommand s1 r.ref (errBad inst)
        else
          match findJob s1 r.ref with
          | some j => takeScatterTile s1 r j { half := h, idx := 0 } t
          | none => s1

/-! ### CHUNK_APPLY (06 R318, R319, R323, R324, R327, R328) -/

/-- Every lower-numbered chunk has applied. -/
def turnOf (j : SpJob) (n : Nat) : Bool :=
  (List.range n).all fun m => match findChunk j m with | some k => k.state == .applied | none => false

/-- The first finished chunk of a half that can apply: in its turn, or a split chunk of pipe mode. -/
def applicable (j : SpJob) (h : Half) : Option (Chunk × CoreId) :=
  j.chunks.findSome? fun k =>
    match k.state with
    | .finished core => if core.half = h ∧ (k.split = true ∨ turnOf j k.num = true) then some (k, core) else none
    | _ => none

/-- Zeros for the destinations of a SET chunk that no row of the command has reached (06 R318). -/
def untouched (j : SpJob) (k : Chunk) (sums : List ChunkSum) : List Nat :=
  ((List.range k.destCount).map fun i => k.destFirst + i).filter fun x => !j.touched.contains x && !sums.any fun y => y.dest == x

/-- Apply a chunk of pipe mode. -/
def applyPipe (s : State) (c : Context) (w : BitVec 512) (j : SpJob) (k : Chunk) (sums : List ChunkSum) : Except MemErr (State × Fl) := do
  let op := sOp w
  let e := k.rowElems
  if k.split then
    let s1 ← writePart s c k op (sStep w) e (sPart w) (sH2 w)
      (some ((sums.find? fun x => x.dest == k.destFirst).getD ⟨k.destFirst, List.replicate e 0, List.replicate e 0xFFFFFFFF, 0⟩))
    pure (s1, 0)
  else
    let s1 ← if sPart w = 0 then pure s else writePart s c k op (sStep w) e (sPart w) (sH2 w) none
    let s2 ← if opIsSet op then applyZeros c op (sAcc w) (sWin w) e (untouched j k sums) s1 else pure s1
    applySums c op (sAcc w) (sWin w) e sums s2

/-- Apply a chunk of index mode to accumulators, or send its sums to the owners of their rows. -/
def applyIndex (s : State) (c : Context) (r : Running) (core : CoreId) (k : Chunk) (sums : List ChunkSum) : Except CmdErr (State × Fl) :=
  if sByPool r.word then
    (sums.foldlM (fun (st : State) (x : ChunkSum) =>
      match findCtx st c.sess with
      | some c' => contribute st c' core.half r.ref x.dest (sStep r.word) x.elems
      | none => .ok st) s).map fun st => (st, 0)
  else memTry (CoreId.unit core) (applySums c (sOp r.word) (sAcc r.word) (sWin r.word) k.rowElems sums s)

/-- A finished chunk applies its chunk-sums; the time it was held is counted (06 Table 6.13). -/
def applyChunk (s : State) (r : Running) (j : SpJob) (k : Chunk) (core : CoreId) : State :=
  match findCtx s r.sess with
  | none => s
  | some c =>
    let cs := chunkSums (sOp r.word) k.rows
    let res := if inPipe r.word ≠ 0 then memTry (CoreId.unit core) (applyPipe s c r.word j k cs.1) else applyIndex s c r core k cs.1
    match res with
    | .error e => faultCommand s r.ref e
    | .ok (s1, fl) =>
      let s2 := setFlags s1 r.sess engSplints (fl ||| cs.2)
      let s3 := setJob (setChunk s2 r.ref k.num fun k => { k with state := .applied, rows := [], got := [] }) r.ref
        fun j => { j with touched := cs.1.map (fun x => x.dest) ++ j.touched }
      let s4 := bumpSplint (bumpSplint s3 r.sess 16 1) r.sess 18 (s.now - k.finishedAt)
      finishJob (unitDone s4 r.ref k.num) r.ref

def chunkApply (s : State) (h : Half) : State :=
  match s.jobs.findSome? fun j => if j.opcode = 0x21 then (applicable j h).map fun p => (j, p) else none with
  | none => s
  | some (j, k, core) =>
    match runningOfRef s j.ref with
    | none => s
    | some r => applyChunk s r j k core

def execChunkApply (h : Half) (s : State) : Host.Outcome State Fault Refusal := .next (chunkApply s h)

/-! ### SP_RUN (06 R298-R306) -/

/-- The chunk-queue record's counts: 32-bit words of PTR. -/
def readPtr (s : State) (c : Context) (va n : Nat) : Except MemErr (List Nat) :=
  match readVa s c .rd va (4 * n) with
  | .error e => .error e
  | .ok bs => .ok ((List.range n).map fun i => fieldAt bs (4 * i) 4)

/-- A coil run starts: the record is read, the chunks are cut, and CHUNKS, SPLIT_DESTS and EDGES are written. -/
def planRun (s : State) (c : Context) (r : Running) (inst : EngineInst) : Except CmdErr (State × SpJob) := do
  let q := fld r.word 0x20 47 0
  mustBe inst (q != 0 && q % 64 == 0 && c.coils.any fun k => k.handle == fld r.word 0x10 23 0 && k.cls == 0)
  let bs ← memTry inst.unit (readVa s c .rd q 64)
  let count := fieldAt bs 8 4
  let block := fieldAt bs 0xC 1 % 2 == 0
  let ptr ← if block then memTry inst.unit (readPtr s c (fieldAt bs 0 6) (count + 1)) else pure []
  let ks := if block then cutChunks ptr else rangeChunks count 256
  let edges := if block then nthD 0 ptr count else count
  let s1 ← memTry inst.unit (writeVa s c .wr (q + 0x10) (leBytes 4 ks.length ++ leBytes 4 (splitDests ks) ++ leBytes 4 edges))
  pure (s1, newJob s r (fld r.word 0x28 31 0) ks edges)

def startRun (h : Half) (s : State) (c : Context) (r : Running) : Except CmdErr State :=
  beginJob s h r (planRun s c r (.splints h))

def execSpRun (h : Half) (s : State) : Host.Outcome State Fault Refusal :=
  .next (withRunning s (.splints h) (fun w => cmdOpcode w == 0x22) (startRun h))

/-! ### Edge tiles (06 R307-R309, R313) -/

def setCore (s : State) (core : Core) (f : Core → Core) : State :=
  { s with cores := mapIf (fun k => k.id == core.id && k.job == core.job && k.chunk == core.chunk) f s.cores }

/-- Send a tile into the run's pipe. -/
def sendTile (s : State) (sess : U32) (pipe : Nat) (t : Tile) : State := setPipe s sess pipe fun p => { p with tiles := p.tiles ++ [t] }

/-- An empty tile of a chunk. -/
def newTile (uid : Nat) (k : Chunk) (seq relation : Nat) : Tile :=
  { uid := uid, chunk := k.num, seq := seq, last := false, split := k.split, relation := relation, attempt := k.attempt, colBase := 0,
    rowElems := 0, splitSeq := k.splitSeq, destFirst := k.destFirst, destCount := k.destCount, splitCount := k.splitCount,
    fmt := 0, raw := true, rows := [] }

/-- Close the open tile: the one closed before it is now known not to be the chunk's last, and is sent. -/
def closeTile (s : State) (sess : U32) (pipe : Nat) (core : Core) : State × Core :=
  match core.tile with
  | none => (s, core)
  | some t =>
    let s1 := match core.closed with | some p => sendTile s sess pipe p | none => s
    (s1, { core with tile := none, closed := some t, tileSeq := core.tileSeq + 1 })

/-- The open tile for a row of a relation and a size, opened if need be (06 R308). -/
def openTile (s : State) (sess : U32) (pipe : Nat) (core : Core) (k : Chunk) (relation rowBytes : Nat) : State × Core × Tile :=
  let fits := match core.tile with
    | some t => t.relation == relation && core.rowBytes == rowBytes && decide (t.rows.length < 32)
    | none => false
  let r := if fits then (s, core) else closeTile s sess pipe core
  match r.2.tile with
  | some t => (r.1, r.2, t)
  | none =>
    let u := freshUid r.1
    (u.2, { r.2 with rowBytes := rowBytes }, newTile u.1 k r.2.tileSeq relation)

/-! ### Coil instructions (06 R306-R311, R334-R338) -/

def emitBytes (f : BitVec 11) : Nat := 32 * (bits f.toNat 7 1 + 1)
def emitByPool (f : BitVec 11) : Bool := f.getLsbD 0

/-- Append a row to the open tile (06 R307). -/
def coilEtile (s : State) (c : Context) (r : Running) (core : Core) (k : Chunk) (rel src dst : U64) (f : BitVec 11) : Except CmdErr State :=
  let o := openTile s r.sess (outPipe r.word) core k (rel.toNat % 256) (emitBytes f)
  let row : TileRow := { dest := dst.setWidth 32, edge := (dst >>> 32).setWidth 32, data := none }
  let t := { o.2.2 with rows := o.2.2.rows ++ [row] }
  let core1 := { o.2.1 with tile := some t, pc := core.pc + 1, executed := core.executed + 1 }
  let i : Issue := { ref := r.ref, sess := r.sess, splint := core.id, step := fld r.word 0x28 31 0, position := k.num,
                     dest := .tileRow t.uid (t.rows.length - 1) 0 }
  match issueRow o.1 c i (emitByPool f) src.toNat (emitBytes f) with
  | .error e => .error e
  | .ok s1 =>
    let s2 := addOutstanding s1 r.ref k.num (newRequests o.1 s1)
    let z := if t.rows.length = 32 then closeTile s2 r.sess (outPipe r.word) core1 else (s2, core1)
    .ok (setCore z.1 core fun _ => z.2)

/-- Gather a row to memory (06 R338). -/
def coilGrow (s : State) (c : Context) (r : Running) (core : Core) (k : Chunk) (src dst : U64) (f : BitVec 11) : Except CmdErr State :=
  let i : Issue := { ref := r.ref, sess := r.sess, splint := core.id, step := fld r.word 0x28 31 0, position := k.num, dest := .memory dst.toNat }
  match issueRow s c i (emitByPool f) src.toNat (emitBytes f) with
  | .error e => .error e
  | .ok s1 => .ok (setCore (addOutstanding s1 r.ref k.num (newRequests s s1)) core fun x => { x with pc := x.pc + 1, executed := x.executed + 1 })

/-- The end of a chunk (06 R308, R309): the last tile is sent with LAST, an empty one when no row was emitted. -/
def coilFin (s : State) (r : Running) (core : Core) (k : Chunk) : State :=
  let pipe := outPipe r.word
  let z := closeTile s r.sess pipe core
  let u := freshUid z.1
  let s1 :=
    if pipe = 0 then z.1
    else match z.2.closed with
      | some t => sendTile z.1 r.sess pipe { t with last := true }
      | none => sendTile u.2 r.sess pipe { newTile u.1 k 0 0 with last := true }
  let s2 := { s1 with cores := s1.cores.filter fun x => !(x.id == core.id && x.job == core.job && x.chunk == core.chunk) }
  runChunk (setChunk s2 r.ref k.num fun k => { k with state := .finished core.id, finishedAt := s.now }) r.ref k.num

/-- An emission that must wait: no consumer yet, or no free slot (03 R136, 06 R279). -/
def emitWaits (s : State) (c : Context) (r : Running) (core : Core) (i : CoilInstr) : Bool :=
  match i with
  | .etile _ _ _ f => outPipe r.word != 0 && (!pipeReady c (outPipe r.word) || !slotsFor s core.id (ceilDiv (emitBytes f) 512))
  | .grow _ _ f => !slotsFor s core.id (ceilDiv (emitBytes f) 512)
  | .fin => outPipe r.word != 0 && !pipeReady c (outPipe r.word)
  | _ => false

/-- The effect of the instruction at a core's program counter. -/
def coilAct (s : State) (c : Context) (r : Running) (core : Core) (k : Chunk) (i : CoilInstr) : Except CmdErr State :=
  let reg := fun (x : Reg) => getReg core.regs x
  let unit := CoreId.unit core.id
  let next := fun (st : State) (z : Core) => setCore st core fun _ => { z with pc := core.pc + 1, executed := core.executed + 1 }
  if 65536 ≤ core.executed then .error (.code faultBadCommand unit 0)
  else
    match i with
    | .etile d a b f =>
      if outPipe r.word = 0 then .error (.code faultBadCommand unit 0)
      else coilEtile s c r core k (reg d) (reg a) (reg b) f
    | .grow a b f => coilGrow s c r core k (reg a) (reg b) f
    | .eclose => let z := closeTile s r.sess (outPipe r.word) core; .ok (next z.1 z.2)
    | .fin => .ok (coilFin s r core k)
    | j =>
      match findProgress s r.ref with
      | none => .ok s
      | some p =>
        match coilEffect s c { key := p.plaitKey, bases := p.bases } j core.regs core.pc with
        | .error e => .error (errMem unit e)
        | .ok none => .ok s
        | .ok (some q) => .ok (setCore s core fun x => { x with regs := q.1, pc := q.2, executed := x.executed + 1 })

/-- A Splint's coil core executes the instruction at its program counter when it is the one the row names; otherwise
nothing happens (log entry 2). -/
def coilStep (s : State) (id : CoreId) (i : CoilInstr) : State :=
  match s.cores.find? fun k => k.id == id with
  | none => s
  | some core =>
    match findJob s core.job, runningOfRef s core.job with
    | some j, some r =>
      match findChunk j core.chunk, findCtx s j.sess with
      | some k, some c =>
        match c.coils.find? fun x => x.handle == core.coil with
        | none => s
        | some img =>
          if img.at core.pc ≠ some i ∨ (core.executed < 65536 ∧ emitWaits s c r core i = true) then s
          else match coilAct s c r core k i with | .ok s1 => s1 | .error e => faultCommand s core.job e
      | _, _ => s
    | _, _ => s

def execAluAdd (c : CoreId) (d a b : Reg) (s : State) : Host.Outcome State Fault Refusal := .next (coilStep s c (.alu 0 d a b))
def execAluSub (c : CoreId) (d a b : Reg) (s : State) : Host.Outcome State Fault Refusal := .next (coilStep s c (.alu 1 d a b))
def execAluAnd (c : CoreId) (d a b : Reg) (s : State) : Host.Outcome State Fault Refusal := .next (coilStep s c (.alu 2 d a b))
def execAluOr (c : CoreId) (d a b : Reg) (s : State) : Host.Outcome State Fault Refusal := .next (coilStep s c (.alu 3 d a b))
def execAluXor (c : CoreId) (d a b : Reg) (s : State) : Host.Outcome State Fault Refusal := .next (coilStep s c (.alu 4 d a b))
def execAluShl (c : CoreId) (d a b : Reg) (s : State) : Host.Outcome State Fault Refusal := .next (coilStep s c (.alu 5 d a b))
def execAluShr (c : CoreId) (d a b : Reg) (s : State) : Host.Outcome State Fault Refusal := .next (coilStep s c (.alu 6 d a b))
def execAluSar (c : CoreId) (d a b : Reg) (s : State) : Host.Outcome State Fault Refusal := .next (coilStep s c (.alu 7 d a b))
def execAluMul (c : CoreId) (d a b : Reg) (s : State) : Host.Outcome State Fault Refusal := .next (coilStep s c (.alu 8 d a b))
def execAluMulhu (c : CoreId) (d a b : Reg) (s : State) : Host.Outcome State Fault Refusal := .next (coilStep s c (.alu 9 d a b))
def execAluMinu (c : CoreId) (d a b : Reg) (s : State) : Host.Outcome State Fault Refusal := .next (coilStep s c (.alu 10 d a b))
def execAluMaxu (c : CoreId) (d a b : Reg) (s : State) : Host.Outcome State Fault Refusal := .next (coilStep s c (.alu 11 d a b))
def execAluMins (c : CoreId) (d a b : Reg) (s : State) : Host.Outcome State Fault Refusal := .next (coilStep s c (.alu 12 d a b))
def execAluMaxs (c : CoreId) (d a b : Reg) (s : State) : Host.Outcome State Fault Refusal := .next (coilStep s c (.alu 13 d a b))
def execAluSltu (c : CoreId) (d a b : Reg) (s : State) : Host.Outcome State Fault Refusal := .next (coilStep s c (.alu 14 d a b))
def execAluSlts (c : CoreId) (d a b : Reg) (s : State) : Host.Outcome State Fault Refusal := .next (coilStep s c (.alu 15 d a b))
def execAddi (c : CoreId) (d a : Reg) (v : U16) (s : State) : Host.Outcome State Fault Refusal := .next (coilStep s c (.imm 0x02 d a v))
def execAndi (c : CoreId) (d a : Reg) (v : U16) (s : State) : Host.Outcome State Fault Refusal := .next (coilStep s c (.imm 0x03 d a v))
def execOri (c : CoreId) (d a : Reg) (v : U16) (s : State) : Host.Outcome State Fault Refusal := .next (coilStep s c (.imm 0x04 d a v))
def execXori (c : CoreId) (d a : Reg) (v : U16) (s : State) : Host.Outcome State Fault Refusal := .next (coilStep s c (.imm 0x05 d a v))
def execShli (c : CoreId) (d a : Reg) (v : U16) (s : State) : Host.Outcome State Fault Refusal := .next (coilStep s c (.imm 0x06 d a v))
def execShri (c : CoreId) (d a : Reg) (v : U16) (s : State) : Host.Outcome State Fault Refusal := .next (coilStep s c (.imm 0x07 d a v))
def execSari (c : CoreId) (d a : Reg) (v : U16) (s : State) : Host.Outcome State Fault Refusal := .next (coilStep s c (.imm 0x08 d a v))
def execLih (c : CoreId) (d a : Reg) (v : U16) (s : State) : Host.Outcome State Fault Refusal := .next (coilStep s c (.imm 0x09 d a v))
def execLd1 (c : CoreId) (d a : Reg) (v : U16) (s : State) : Host.Outcome State Fault Refusal := .next (coilStep s c (.ld 0x10 d a v))
def execLd2 (c : CoreId) (d a : Reg) (v : U16) (s : State) : Host.Outcome State Fault Refusal := .next (coilStep s c (.ld 0x11 d a v))
def execLd4 (c : CoreId) (d a : Reg) (v : U16) (s : State) : Host.Outcome State Fault Refusal := .next (coilStep s c (.ld 0x12 d a v))
def execLd8 (c : CoreId) (d a : Reg) (v : U16) (s : State) : Host.Outcome State Fault Refusal := .next (coilStep s c (.ld 0x13 d a v))
def execBeq (c : CoreId) (a b : Reg) (ofs : U16) (s : State) : Host.Outcome State Fault Refusal := .next (coilStep s c (.branch 0x18 a b ofs))
def execBne (c : CoreId) (a b : Reg) (ofs : U16) (s : State) : Host.Outcome State Fault Refusal := .next (coilStep s c (.branch 0x19 a b ofs))
def execBlts (c : CoreId) (a b : Reg) (ofs : U16) (s : State) : Host.Outcome State Fault Refusal := .next (coilStep s c (.branch 0x1A a b ofs))
def execBges (c : CoreId) (a b : Reg) (ofs : U16) (s : State) : Host.Outcome State Fault Refusal := .next (coilStep s c (.branch 0x1B a b ofs))
def execBltu (c : CoreId) (a b : Reg) (ofs : U16) (s : State) : Host.Outcome State Fault Refusal := .next (coilStep s c (.branch 0x1C a b ofs))
def execBgeu (c : CoreId) (a b : Reg) (ofs : U16) (s : State) : Host.Outcome State Fault Refusal := .next (coilStep s c (.branch 0x1D a b ofs))
def execJmp (c : CoreId) (ofs : U16) (s : State) : Host.Outcome State Fault Refusal := .next (coilStep s c (.branch 0x1E 0 0 ofs))
def execRnd (c : CoreId) (d a b : Reg) (f : BitVec 11) (s : State) : Host.Outcome State Fault Refusal := .next (coilStep s c (.rnd d a b f))
def execEtile (c : CoreId) (d a b : Reg) (f : BitVec 11) (s : State) : Host.Outcome State Fault Refusal := .next (coilStep s c (.etile d a b f))
def execGrow (c : CoreId) (a b : Reg) (f : BitVec 11) (s : State) : Host.Outcome State Fault Refusal := .next (coilStep s c (.grow a b f))
def execEclose (c : CoreId) (s : State) : Host.Outcome State Fault Refusal := .next (coilStep s c .eclose)
def execCoilEnd (c : CoreId) (s : State) : Host.Outcome State Fault Refusal := .next (coilStep s c .fin)

/-! ### A lost Splint (06 R343) -/

/-- A chunk that a lost Splint had claimed goes back, with ATTEMPT raised, to be claimed by another. The requests of a
plain gather or of a coil run are dropped; those of a bag move to the Splint that takes the chunk over. -/
def reissueChunk (s : State) (core heir : CoreId) (j : SpJob) (k : Chunk) : State :=
  let pooled := j.bags ≠ []
  let s1 := bumpSplint s j.sess 17 1
  if j.opcode = 0x20 ∧ pooled then
    { setChunk s1 j.ref k.num (fun k => { k with state := .claimed heir, attempt := k.attempt + 1 }) with
      requests := mapIf (fun r => r.ref == j.ref && r.splint == core) (fun r => { r with splint := heir }) s1.requests }
  else
    let mine := fun (r : Request) => r.ref == j.ref && (if j.opcode = 0x22 then r.position == k.num else
      decide (k.first ≤ r.position) && decide (r.position < k.first + k.count))
    let keep := fun (p : Nat × Nat) => if j.opcode = 0x22 then p.1 != k.num else !(decide (k.first ≤ p.1) && decide (p.1 < k.first + k.count))
    let s2 := setChunk s1 j.ref k.num fun k => { k with state := .unclaimed, attempt := k.attempt + 1, issued := 0, rows := [], got := [] }
    let s3 := setJob s2 j.ref fun j => { j with outstanding := j.outstanding.filter keep }
    let s4 := { s3 with requests := mapIf mine (fun r => { r with stopped := true }) s3.requests,
                        cores := s3.cores.filter fun x => !(x.job == j.ref && x.chunk == k.num) }
    match findProgress s4 j.ref with
    | none => s4
    | some p => setPipe s4 j.sess (outPipe p.word) fun q =>
        { q with tiles := q.tiles.filter fun t => !(q.producer == some j.ref && t.chunk == k.num) }

/-- Every chunk a lost Splint held is reissued. -/
def loseSplint (s : State) (core : CoreId) : State :=
  let works := fun (h : Half) => (allCores h).find? fun x => splintWorks s x && x != core
  let heir := ((works core.half).or (works core.half.other)).getD core
  s.jobs.foldl (fun st j => (j.chunks.filter fun k => k.state.heldBy core && !(j.opcode == 0x22 && k.state == .finished core)).foldl
    (fun st k => reissueChunk st core heir j k) st) s

end Sys2Proof.Machine
end

