-- ==== Sys2Proof/Machine/Faults.lean ====
section
/-! DEFINITION. Leaky buckets, lasting faults, and what a failed unit costs (chapter 13; with the losses of chapters 07, 09,
10 and 11 that it calls for). -/

namespace Sys2Proof.Machine

/-! ### Units (13 Table 13.1) -/

def unitClass (u : U16) : Nat := u.toNat / 4096
def unitInst (u : U16) : Nat := u.toNat % 4096

/-- A unit number of 13 Table 13.1. -/
def unitKnown (u : U16) : Bool :=
  let i := unitInst u
  match unitClass u with
  | 0x0 => decide (i < 2)
  | 0x1 => decide (i < 2)
  | 0x2 => decide (i % 64 ≤ 32) && decide (i < 128)
  | 0x3 => decide (i < 64)
  | 0x4 => decide (i < 2)
  | 0x5 => decide (i < 8)
  | 0x6 => decide (i < 8)
  | 0x7 => decide (i < 512)
  | 0x8 => decide (i < 256)
  | 0x9 => decide (i < 32)
  | 0xA => decide (i < 512) && decide (i % 16 < 12)
  | 0xB => decide (i < 2)
  | 0xC => decide (i < 12)
  | 0xD => decide (i < 48)
  | 0xE => decide (i < 4)
  | _ => false

/-- Units of a kind in a full module. A half's Weave has 32 columns in service (13 R634). -/
def kindCount : Nat → Nat
  | 0x0 => 2
  | 0x1 => 2
  | 0x2 => 32
  | 0x3 => 64
  | 0x4 => 2
  | 0x5 => 8
  | 0x6 => 8
  | 0x7 => 512
  | 0x8 => 256
  | 0x9 => 32
  | 0xA => 384
  | 0xB => 2
  | 0xC => 12
  | 0xD => 48
  | 0xE => 4
  | _ => 1

def isRetired (s : State) (u : U16) : Bool := s.faults.retired.contains u

/-- The logical column that a physical column of a half serves (07 R381); the spare itself when it serves none. -/
def columnServed (s : State) (h : Half) (col : Nat) : Nat :=
  let k := match h with | .west => s.weave.west.spare | .east => s.weave.east.spare
  if col = 32 ∧ k < 32 then k else col

/-- Columns disabled in both halves (07 R381). -/
def disabledColumns (s : State) : Nat :=
  ((List.range 32).filter fun k => s.weave.west.disabled.getLsbD k || s.weave.east.disabled.getLsbD k).length

/-- Logical columns disabled in both halves, or about to be at the next command boundary (07 R381, R382). -/
def lostColumns (s : State) : List Nat :=
  (List.range 32).filter fun k => s.weave.west.disabled.getLsbD k || s.weave.east.disabled.getLsbD k ||
    s.weave.pendingDisable.any fun p => columnServed s p.1 p.2 == k

/-- Working units of a kind. -/
def workingOf (s : State) (cls : Nat) : Nat :=
  if cls = 2 then 32 - (lostColumns s).length
  else kindCount cls - (s.faults.retired.filter fun u => unitClass u == cls).eraseDups.length

/-- Remaining capacity of a kind in per mille, rounded down (13 R636). -/
def perMille (s : State) (cls : Nat) : Nat := workingOf s cls * 1000 / kindCount cls

/-! ### HBM losses (09 R462, 13 R635, 10 R531) -/

def setPc (s : State) (n : Nat) (f : PseudoChannel → PseudoChannel) : State :=
  { s with hbm := { s.hbm with pcs := mapIf (fun p => p.num == n) f s.hbm.pcs } }

/-- The keys of the sectors of an allocation in a pseudo-channel. -/
def sectorsInPc (s : State) (a : Alloc) (pc : Nat) : List Nat :=
  if isHbm a.backing then
    (sectorsOf (a.backing.space * spaceSize + a.phys) a.size).filterMap fun x =>
      match sectorOf s.hbm x with
      | some (p, sec) => if p = pc then some (sectorKey p sec) else none
      | none => none
  else []

/-- The lists of a context that have started end with HW_ERROR. -/
def failLists (s : State) (sess : U32) (unit : Nat) : State :=
  ((s.lists.filter fun l => l.sess == sess && l.started && l.ended.isNone).map fun l => l.uid).foldl
    (fun st u => endList st u (CmdErr.toEnd st.now 0 (.hw unit))) s

/-- Mark a unit POISON: its records read as zero rows and their pending entries are discarded (10 R544, R545). -/
def poisonUnit (u : FlashUnit) : FlashUnit := { u with poison := true, written := true, data := [] }

/-- A tiered table whose HBM is lost returns to its last completed sync, or has every row poisoned (10 R531). -/
def tierLoss (s : State) (sess : U32) (t : Table) (unit : Nat) : State :=
  let x := tierOf t
  let kept := x.everSynced && x.isProtected
  let all := (List.range (unitCount t.stride t.rows)).map fun u =>
    match findUnit t u with
    | some y => poisonUnit y
    | none => { unit := u, channel := channelOf t u, location := 0, written := true, poison := true, data := [], synced := none }
  let back := x.units.map fun u => match u.synced with | some d => { u with data := d, synced := none } | none => u
  let s1 := setTier s sess t.handle fun x => { x with ways := [], promoting := [], units := if kept then back else all }
  let gone := s1.tier.log.filter fun e => e.sess == sess && e.table == t.handle
  let s2 := { s1 with tier := { s1.tier with
    log := s1.tier.log.filter (fun e => !(e.sess == sess && e.table == t.handle)),
    staging := s1.tier.staging.filter fun e => !(e.sess == sess && e.table == t.handle) } }
  let s3 := bumpTier s2 sess 5 gone.length
  failLists (addLog s3 0x0C 3 { sess := sess, handle := t.handle, arg0 := if kept then 2 else 3 }) sess unit

/-- Tiered tables with row-cache storage in a pseudo-channel. -/
def tierTablesIn (s : State) (pc : Nat) : List (U32 × Table) :=
  s.contexts.flatMap fun c => c.tables.filterMap fun t =>
    if t.tier.isSome ∧ (match findAlloc c t.storage with | some a => (sectorsInPc s a pc).isEmpty | none => true) = false then
      some (c.sess, t) else none

/-- A pseudo-channel is retired: its granules are served from a substitute area of its half and are poisoned until they
are written whole (13 R635). -/
def retirePc (s : State) (n : Nat) : State :=
  let u : U16 := BitVec.ofNat 16 (0x7000 + n)
  if isRetired s u then s
  else
    let lost := (s.contexts.flatMap fun c => c.allocs).flatMap fun a => sectorsInPc s a n
    let tabs := tierTablesIn s n
    let s1 := setPc { s with faults := { s.faults with retired := s.faults.retired ++ [u] } } n fun p => { p with retired := true }
    let s2 := { s1 with hbm := { s1.hbm with poisoned := s1.hbm.poisoned ++ lost.filter fun k => !s1.hbm.poisoned.contains k } }
    tabs.foldl (fun st p => tierLoss st p.1 p.2 (0x7000 + n)) s2

/-! ### Flash losses (10 R541-R545; 13 Table 13.3) -/

def setChannel (s : State) (n : Nat) (f : Channel → Channel) : State :=
  { s with tier := { s.tier with channels := mapIf (fun c => c.num == n) f s.tier.channels } }

/-- The rows of a unit. -/
def rowsOfUnit (t : Table) (u : Nat) : List Nat :=
  if t.stride ≤ 4096 then (List.range (4096 / t.stride)).map fun i => u * (4096 / t.stride) + i else [u / ceilDiv t.stride 4096]

/-- A unit becomes uncorrectable: POISON, its rows' pending log entries discarded and counted (10 R544, R545). -/
def loseUnit (s : State) (sess : U32) (h u : Nat) : State :=
  match (findCtx s sess).bind fun c => findTable c h with
  | none => s
  | some t =>
    let rows := (rowsOfUnit t u).filter fun r => decide (r ≤ t.rows)
    let gone := s.tier.log.filter fun e => e.sess == sess && e.table == h && rows.contains e.row
    let s1 := setTier s sess h fun x => { x with units := mapIf (fun y => y.unit == u) poisonUnit x.units }
    let s2 := { s1 with tier := { s1.tier with log := s1.tier.log.filter fun e => !(e.sess == sess && e.table == h && rows.contains e.row) } }
    bumpTier s2 sess 5 gone.length

/-- A channel goes DOWN: its units are marked POISON (13 Table 13.3). -/
def channelDown (s : State) (n : Nat) : State :=
  let units := s.contexts.flatMap fun c => c.tables.flatMap fun t =>
    ((tierOf t).units.filter fun u => u.channel == n && u.written).map fun u => (c.sess, t.handle, u.unit)
  units.foldl (fun st p => loseUnit st p.1 p.2.1 p.2.2) (setChannel s n fun c => { c with state := 2 })

/-- A die fails: its pages are rebuilt from parity and its channel goes on over the dies left; the third loss makes the
channel read-only (10 R542, R543). -/
def dieFailed (s : State) (ch die : Nat) : State :=
  let u : U16 := BitVec.ofNat 16 (0xA000 + 16 * ch + die)
  if isRetired s u then s
  else
    let s1 := setChannel { s with faults := { s.faults with retired := s.faults.retired ++ [u] } } ch fun c => { c with diesLive := c.diesLive - 1 }
    match s1.tier.channels.find? fun c => c.num == ch with
    | none => s1
    | some c =>
      if c.diesLive ≤ 9 ∧ c.state = 0 then addLog (setChannel s1 ch fun c => { c with state := 1 }) 0x0C 2 { unit := u, arg0 := 1, arg1 := ch }
      else s1

/-! ### Ports (11 R558-R560) -/

/-- Parts of a flit's bytes as they wait to be sent: channel, body, START, END (11 Table 11.3). -/
def flitParts (f : List Byte) : Nat × List Byte × Bool × Bool :=
  let h := fieldAt f 0 8
  (bits h 26 24, (f.drop 8).take 244, bits h 29 29 == 1, bits h 30 30 == 1)

/-- The flits kept for retry from a number on, in order. -/
def retryFrom (seq : BitVec 12) (l : List (BitVec 12 × List Byte)) : List (BitVec 12 × List Byte) := l.dropWhile fun p => p.1 != seq

/-- A port goes DOWN: what its neighbour has not accepted goes over the pair port, in order; without one it is lost
(11 R560, R570). -/
def portDown (s : State) (n : Nat) (lastAccepted : BitVec 12) (st : PortState) : State :=
  match findPort s n with
  | none => s
  | some p =>
    let again := (retryFrom (lastAccepted + 1) p.retry).map fun q => flitParts q.2
    let move := again ++ p.waiting
    let s1 := setPort s n fun q => { q with state := st, retry := [], waiting := [], credits := [], freed := [], assembly := [], nakOpen := false }
    if portUp s1 (pairPort n) then pump (setPort s1 (pairPort n) fun q => { q with waiting := q.waiting ++ move }) (pairPort n)
    else { s1 with fabric := { s1.fabric with lostCut := s1.fabric.lostCut + (move.filter fun f => f.2.2.2).length } }

/-- A lane fails: the port goes on over the two lanes that remain intact, or is DOWN (11 R559, R560). -/
def laneFailed (s : State) (n : Nat) (lane : Nat) : State :=
  match findPort s n with
  | none => s
  | some p =>
    let lanes := p.lanes &&& ~~~(BitVec.ofNat 4 (2 ^ lane))
    let pair := if lanes &&& 3 = 3 then some (3 : BitVec 4) else if lanes &&& 12 = 12 then some 12 else none
    match pair with
    | some l => setPort s n fun q => { q with lanes := l, state := if q.state = .up then .held else q.state, heldSince := s.now }
    | none => portDown s n (p.nextSeq - BitVec.ofNat 12 p.retry.length - 1) .down

/-- A port is recalibrated: both ends hold it (11 R558). -/
def holdPort (s : State) (n : Nat) : State :=
  setPort s n fun q => if q.state = .up then { q with state := .held, heldSince := s.now } else q

/-! ### Retirement (13 R634, R635) -/

/-- Severity of a retirement: those that restart a job from its checkpoint are job-interrupting (13 R637, R667). -/
def retireSeverity (cls : Nat) : Nat :=
  match cls with
  | 0x6 => 3
  | 0x7 => 3
  | 0xE => 4
  | _ => 2

/-- The halves whose SM_SAMPLE commands the Sampler of half k runs (05 R241). -/
def servingHalves (s : State) (k : Nat) : List Half := [Half.west, .east].filter fun h => servingHalf s 4 h.num == k

/-- SM_SAMPLE commands of a lost or reset Sampler start again from their first seed (13 R646). -/
def restartSamples (s : State) (hs : List Half) : State :=
  let refs := hs.flatMap fun h => (findEngine s (.sampler h)).running.map fun r => r.ref
  hs.foldl (fun st h => setEngine st (.sampler h) fun e => { e with running := e.running.map fun r => { r with started := false } })
    { s with remoteReqs := mapIf (fun q => refs.contains q.ref) (fun q => { q with stopped := true }) s.remoteReqs,
             remotePicks := s.remotePicks.filter fun q => !refs.contains q.ref }

/-- A column is disabled in both halves from the next command boundary, once (07 R381). -/
def scheduleColumn (s : State) (h : Half) (col : Nat) : State :=
  if s.weave.pendingDisable.contains (h, col) then s
  else { s with weave := { s.weave with pendingDisable := s.weave.pendingDisable ++ [(h, col)] } }

/-- A failed unit is taken out of service with the action of 13 Table 13.3, recorded, and told to PF0 without a fault code
(02 Table 2.9). -/
def retireUnit (s : State) (u : U16) (byCommand : Bool) : State :=
  let i := unitInst u
  let cls := unitClass u
  let mark := fun (st : State) => if isRetired st u then st else { st with faults := { st.faults with retired := st.faults.retired ++ [u] } }
  let s1 :=
    match cls with
    | 0x1 => loseProcessor (mark s) (if i = 0 then .west else .east)
    | 0x2 => scheduleColumn (mark s) (if i / 64 = 0 then .west else .east) (i % 64)
    | 0x3 => loseSplint (mark s) { half := if i / 32 = 0 then .west else .east, idx := Fin.ofNat 32 (i % 32) }
    | 0x6 =>
      let st := (List.range 64).foldl (fun st k => retirePc st (64 * i + k)) (mark s)
      { st with hbm := { st.hbm with stackList := mapIf (fun x => x.num == i) (fun x => { x with retired := true }) st.hbm.stackList } }
    | 0x7 => retirePc s i
    | 0x8 => retirePc (retirePc (mark s) (2 * i)) (2 * i + 1)
    | 0x9 => channelDown (mark s) i
    | 0xA => dieFailed s (i / 16) (i % 16)
    | 0x4 => restartSamples (mark s) (servingHalves s i)
    | 0xE => goDown (mark s) u.toNat
    | 0xC => portDown (mark s) i (match findPort s i with | some p => p.nextSeq - BitVec.ofNat 12 p.retry.length - 1 | none => 0) .retired
    | 0xD => laneFailed (mark s) (i / 4) (i % 4)
    | _ => mark s
  telemetryEvent (addLog s1 0x03 (retireSeverity cls) { unit := u, arg0 := perMille s1 cls, arg1 := if byCommand then 1 else 0 }) 0 u.toNat

/-! ### Leaky buckets (13 R631, R632) -/

def hourNs : Nat := 3600 * 10 ^ 9

/-- Threshold and window of a row of 13 Table 13.2. -/
def bucketRow : Nat → Option (Nat × Option Nat)
  | 1 => some (64, some (24 * hourNs))
  | 2 => some (2, some (24 * hourNs))
  | 3 => some (16, some hourNs)
  | 4 => some (8, none)
  | 5 => some (8, some (24 * hourNs))
  | 6 => some (64, some (24 * hourNs))
  | 7 => some (1, none)
  | 8 => some (4, some (24 * hourNs))
  | 9 => some (32, some hourNs)
  | 10 => some (4096, some hourNs)
  | 11 => some (1024, some hourNs)
  | 12 => some (8, some (24 * hourNs))
  | 13 => some (3, some (24 * hourNs))
  | 14 => some (16, some (24 * hourNs))
  | 15 => some (32, some (24 * hourNs))
  | 16 => some (16, some (168 * hourNs))
  | 17 => some (64, some hourNs)
  | 18 => some (3, some (24 * hourNs))
  | _ => none

def findBucket (s : State) (row : Nat) (unit : U16) (sub : Nat) : Option Bucket :=
  s.faults.buckets.find? fun b => b.row == row && b.unit == unit && b.sub == sub

/-- Set a bucket's count. -/
def setBucket (s : State) (row : Nat) (unit : U16) (sub n : Nat) : State :=
  let same := fun (b : Bucket) => b.row == row && b.unit == unit && b.sub == sub
  let l := s.faults.buckets.filter fun b => !same b
  { s with faults := { s.faults with
      buckets := if n = 0 then l else l ++ [{ row := row, unit := unit, sub := sub, count := n, since := s.now }] } }

/-- The falls of a count by a time: one for each interval of W ÷ T without an event, from the later of the last event and
the last fall. -/
def drained (b : Bucket) (now : Nat) : Nat × Nat :=
  match bucketRow b.row with
  | some (t, some w) =>
    let k := Nat.min b.count ((now - b.since) / (w / t))
    (b.count - k, b.since + k * (w / t))
  | _ => (b.count, b.since)

/-- ARG1 of a LASTING record: 0 retire, 1 spare, 2 recalibrate, 3 pattern test, 4 mark (13 Table 13.10). -/
def lastingAction : Nat → Nat
  | 1 => 4
  | 3 => 1
  | 5 => 1
  | 6 => 3
  | 9 => 1
  | 10 => 2
  | 11 => 2
  | _ => 0

/-- One repair lane replaces a failed lane of a bridge channel; with none left the compute die is lost and the module is
down (01 R22, R23). -/
def bridgeLane (s : State) (ch lane : Nat) : State :=
  let used := nthD 0 s.faults.bridgeLanes ch
  if used < Config.bridgeRepairLanes ch then
    addLog { s with faults := { s.faults with bridgeLanes := modifyAt (fun n => n + 1) ch s.faults.bridgeLanes } } 0x04 2
      { unit := BitVec.ofNat 16 (0xE000 + ch), arg0 := lane }
  else moduleDown s (0xE000 + ch)

/-- A spare lane replaces a failed data lane of a channel at once; with none the pseudo-channels that use it are retired
(09 R459). The spares of a stack are counted together, as HBM_STACK shows them (log entry 20). -/
def spareLane (s : State) (chan lane : Nat) : State :=
  let st := chan / 32
  match s.hbm.stackList.find? fun x => x.num == st with
  | none => s
  | some x =>
    if 0 < x.spares then
      addLog { s with hbm := { s.hbm with stackList := mapIf (fun y => y.num == st) (fun y => { y with spares := y.spares - 1 }) s.hbm.stackList } } 0x04 2
        { unit := BitVec.ofNat 16 (0x8000 + chan), arg0 := lane }
    else retireUnit s (BitVec.ofNat 16 (0x8000 + chan)) false

/-- The action of a row whose count has reached T (13 Table 13.2). Rows 3 and 9 carry the lane as sub-resource, row 5 the
SRAM row. -/
def lastingFault (s : State) (row : Nat) (unit : U16) (sub : Nat) : State :=
  let i := unitInst unit
  let h : Half := if i % 2 = 0 then .west else .east
  match row with
  | 1 => setPc s i fun p => { p with marked := true }
  | 2 => retireUnit s unit false
  | 3 => spareLane s i sub
  | 4 => retireUnit s unit false
  | 5 => { s with hbm := { s.hbm with sramRepairs := s.hbm.sramRepairs ++ [(h, sub)] } }
  | 6 => { s with weave := { s.weave with pendingTest := s.weave.pendingTest ++ [(h, none)] } }
  | 7 => scheduleColumn s (if i / 64 = 0 then .west else .east) (i % 64)
  | 9 => bridgeLane s i sub
  | 10 => holdPort s i
  | 11 => holdPort s i
  | _ => retireUnit s unit false

/-- A lasting fault of a unit that is fenced, or that comes during a half reset, acts when the reset ends (13, "When faults,
resets and leadership meet"). -/
def lastingOrLater (s : State) (row : Nat) (unit : U16) (sub : Nat) : State :=
  if unitResetting s unit.toNat || unitResetting s 0 || unitResetting s 1 then
    { s with faults := { s.faults with deferred := s.faults.deferred ++ [(row, unit, sub)] } }
  else lastingFault s row unit sub

/-- An error event of a resource (13 R631, R666): recorded when it raises the count from 0 or leaves it at half the
threshold or more; at T the fault is lasting, the bucket is emptied and the action taken. loc is the record's ARG0. -/
def bucketOnce (s : State) (row : Nat) (unit : U16) (sub loc : Nat) : State × Bool :=
  match bucketRow row with
  | none => (s, false)
  | some (t, _) =>
    let old := match findBucket s row unit sub with | some b => (drained b s.now).1 | none => 0
    let n := old + 1
    if t ≤ n then
      (lastingOrLater (addLog (setBucket s row unit sub 0) 0x02 2 { unit := unit, arg0 := row, arg1 := lastingAction row }) row unit sub, true)
    else
      let s1 := setBucket s row unit sub n
      (if old = 0 ∨ t ≤ 2 * n then addLog s1 0x01 1 { unit := unit, arg0 := loc, arg1 := row, bucket := n } else s1, false)

/-- Every pseudo-channel retired since a state counts for its stack, unless the stack itself went (row 4). -/
def stackEvents (before after : State) : State :=
  let fresh := (after.faults.retired.filter fun u => unitClass u == 7 && !isRetired before u).map fun u => unitInst u / 64
  fresh.foldl (fun st k =>
    if st.hbm.stackList.any fun x => x.num == k && x.retired then st else (bucketOnce st 4 (BitVec.ofNat 16 (0x6000 + k)) 0 0).1) after

/-- An event and what follows from its action. A recalibration for the port's worst lane is counted where it happens. -/
def bucketEvent (s : State) (row : Nat) (unit : U16) (sub loc : Nat) : State :=
  stackEvents s (bucketOnce s row unit sub loc).1

/-- BUCKET_DRAIN: every bucket of a row and unit falls by the intervals without an event that have ended (13 R631). -/
def bucketDrain (s : State) (row : Nat) (unit : U16) : State :=
  { s with faults := { s.faults with
      buckets := (s.faults.buckets.map fun b =>
        if b.row = row ∧ b.unit = unit then { b with count := (drained b s.now).1, since := (drained b s.now).2 } else b).filter
          fun b => b.count != 0 } }

def execBucketDrain (row : Nat) (unit : U16) (s : State) : Host.Outcome State Fault Refusal := .next (bucketDrain s row unit)

end Sys2Proof.Machine
end

