-- ==== Sys2Proof/Machine/Crypto.lean ====
section
/-! DEFINITION. The cryptographic functions the spec names: SHA-256 and HMAC (02 R98, 03 R185), SHA-384 (12 R625, 15
R706), the unwrapping of AES key wrap (02 R108) and the verification of ECDSA over P-384 (13 Table 13.7, 06 R331). -/

namespace Sys2Proof.Machine

/-! ### SHA-2 -/

/-- Round constants of SHA-384 (FIPS 180-4); the high words of the first 64 are those of SHA-256. -/
def sha512K : List Nat :=
    [0x428A2F98D728AE22, 0x7137449123EF65CD, 0xB5C0FBCFEC4D3B2F, 0xE9B5DBA58189DBBC, 0x3956C25BF348B538,
     0x59F111F1B605D019, 0x923F82A4AF194F9B, 0xAB1C5ED5DA6D8118, 0xD807AA98A3030242, 0x12835B0145706FBE,
     0x243185BE4EE4B28C, 0x550C7DC3D5FFB4E2, 0x72BE5D74F27B896F, 0x80DEB1FE3B1696B1, 0x9BDC06A725C71235,
     0xC19BF174CF692694] ++
    [0xE49B69C19EF14AD2, 0xEFBE4786384F25E3, 0x0FC19DC68B8CD5B5, 0x240CA1CC77AC9C65, 0x2DE92C6F592B0275,
     0x4A7484AA6EA6E483, 0x5CB0A9DCBD41FBD4, 0x76F988DA831153B5, 0x983E5152EE66DFAB, 0xA831C66D2DB43210,
     0xB00327C898FB213F, 0xBF597FC7BEEF0EE4, 0xC6E00BF33DA88FC2, 0xD5A79147930AA725, 0x06CA6351E003826F,
     0x142929670A0E6E70] ++
    [0x27B70A8546D22FFC, 0x2E1B21385C26C926, 0x4D2C6DFC5AC42AED, 0x53380D139D95B3DF, 0x650A73548BAF63DE,
     0x766A0ABB3C77B2A8, 0x81C2C92E47EDAEE6, 0x92722C851482353B, 0xA2BFE8A14CF10364, 0xA81A664BBC423001,
     0xC24B8B70D0F89791, 0xC76C51A30654BE30, 0xD192E819D6EF5218, 0xD69906245565A910, 0xF40E35855771202A,
     0x106AA07032BBD1B8] ++
    [0x19A4C116B8D2D0C8, 0x1E376C085141AB53, 0x2748774CDF8EEB99, 0x34B0BCB5E19B48A8, 0x391C0CB3C5C95A63,
     0x4ED8AA4AE3418ACB, 0x5B9CCA4F7763E373, 0x682E6FF3D6B2B8A3, 0x748F82EE5DEFB2FC, 0x78A5636F43172F60,
     0x84C87814A1F0AB72, 0x8CC702081A6439EC, 0x90BEFFFA23631E28, 0xA4506CEBDE82BDE9, 0xBEF9A3F7B2C67915,
     0xC67178F2E372532B] ++
    [0xCA273ECEEA26619C, 0xD186B8C721C0C207, 0xEADA7DD6CDE0EB1E, 0xF57D4F7FEE6ED178, 0x06F067AA72176FBA,
     0x0A637DC5A2C898A6, 0x113F9804BEF90DAE, 0x1B710B35131C471B, 0x28DB77F523047D84, 0x32CAAB7B40C72493,
     0x3C9EBE0A15C9BEBC, 0x431D67C49C100D4C, 0x4CC5D4BECB3E42B6, 0x597F299CFC657E2A, 0x5FCB6FAB3AD6FAEC,
     0x6C44198C4A475817]

def sha256H : List Nat :=
    [0x6A09E667, 0xBB67AE85, 0x3C6EF372, 0xA54FF53A, 0x510E527F, 0x9B05688C, 0x1F83D9AB, 0x5BE0CD19]

def sha384H : List Nat :=
    [0xCBBB9D5DC1059ED8, 0x629A292A367CD507, 0x9159015A3070DD17, 0x152FECD8F70E5939, 0x67332667FFC00B31,
     0x8EB44A8768581511, 0xDB0C2E0D64F98FA7, 0x47B5481DBEFA4FA4]

/-- The rotation amounts and word width that tell the two members of the family apart. -/
structure ShaParams where
  width : Nat
  rounds : Nat
  bigA : Nat × Nat × Nat
  bigE : Nat × Nat × Nat
  smallA : Nat × Nat × Nat
  smallB : Nat × Nat × Nat
  consts : List Nat
  init : List Nat

def sha256Params : ShaParams :=
  ⟨32, 64, (2, 13, 22), (6, 11, 25), (7, 18, 3), (17, 19, 10), (sha512K.take 64).map (fun k => k / 2 ^ 32), sha256H⟩

def sha384Params : ShaParams := ⟨64, 80, (28, 34, 39), (14, 18, 41), (1, 8, 7), (19, 61, 6), sha512K, sha384H⟩

def rotr (w n x : Nat) : Nat := (x >>> n) ||| ((x <<< (w - n)) % 2 ^ w)

def bigSigma (w : Nat) (r : Nat × Nat × Nat) (x : Nat) : Nat := rotr w r.1 x ^^^ rotr w r.2.1 x ^^^ rotr w r.2.2 x
def smallSigma (w : Nat) (r : Nat × Nat × Nat) (x : Nat) : Nat := rotr w r.1 x ^^^ rotr w r.2.1 x ^^^ (x >>> r.2.2)

/-- The big-endian number of a byte string. -/
def beNat (bs : List Byte) : Nat := bs.foldl (fun a b => a * 256 + b.toNat) 0

/-- The n low bytes of v, big-endian. -/
def beBytes (n v : Nat) : List Byte := (leBytes n v).reverse

/-- Extend the message schedule, kept newest first. -/
def shaSchedule (p : ShaParams) : Nat → List Nat → List Nat
  | 0, ws => ws
  | n + 1, ws =>
    let w := (smallSigma p.width p.smallB (nthD 0 ws 1) + nthD 0 ws 6 + smallSigma p.width p.smallA (nthD 0 ws 14) + nthD 0 ws 15) % 2 ^ p.width
    shaSchedule p n (w :: ws)

/-- One round on the working variables a to h. -/
def shaRound (p : ShaParams) (v : List Nat) (kw : Nat × Nat) : List Nat :=
  match v with
  | [a, b, c, d, e, f, g, h] =>
    let m := 2 ^ p.width
    let t1 := h + bigSigma p.width p.bigE e + ((e &&& f) ^^^ ((m - 1 - e) &&& g)) + kw.1 + kw.2
    let t2 := bigSigma p.width p.bigA a + ((a &&& b) ^^^ (a &&& c) ^^^ (b &&& c))
    [(t1 + t2) % m, a, b, c, (d + t1) % m, e, f, g]
  | _ => v

/-- Split into chunks of n bytes. -/
def chunksOf (n : Nat) : Nat → List Byte → List (List Byte)
  | 0, _ => []
  | k + 1, bs => if bs = [] then [] else bs.take n :: chunksOf n k (bs.drop n)

def shaBlock (p : ShaParams) (h : List Nat) (blk : List Byte) : List Nat :=
  let ws := (chunksOf (p.width / 8) 16 blk).map beNat
  let sched := (shaSchedule p (p.rounds - 16) ws.reverse).reverse
  let v := (p.consts.zip sched).foldl (shaRound p) h
  h.zipWith (fun a b => (a + b) % 2 ^ p.width) v

def shaPad (p : ShaParams) (msg : List Byte) : List Byte :=
  let blk := 2 * p.width
  let len := p.width / 4
  let zeros := (2 * blk - (msg.length + 1 + len) % blk) % blk
  msg ++ [0x80] ++ List.replicate zeros 0 ++ beBytes len (8 * msg.length)

def sha (p : ShaParams) (msg : List Byte) : List Byte :=
  let m := shaPad p msg
  let h := (chunksOf (2 * p.width) (m.length + 1) m).foldl (shaBlock p) p.init
  (h.map (beBytes (p.width / 8))).flatten

def sha256 (msg : List Byte) : List Byte := sha sha256Params msg
def sha384 (msg : List Byte) : List Byte := (sha sha384Params msg).take 48

/-- HMAC-SHA-256 under a key of at most 64 bytes. -/
def hmacSha256 (key msg : List Byte) : List Byte :=
  let k := key ++ List.replicate (64 - key.length) 0
  let pad := fun (x : Byte) => k.map fun b => b ^^^ x
  sha256 (pad 0x5C ++ sha256 (pad 0x36 ++ msg))

/-! ### AES-256, deciphering, and AES key unwrap (RFC 3394) -/

/-- Product in the field of AES, over n bits of the second factor. -/
def gmul : Nat → Nat → Nat → Nat
  | 0, _, _ => 0
  | n + 1, a, b =>
    (if b % 2 = 1 then a else 0) ^^^ gmul n (if 128 ≤ a then (2 * a) % 256 ^^^ 0x1B else 2 * a) (b / 2)

def gsq (a : Nat) : Nat := gmul 8 a a

/-- The inverse in the field: the power 254. -/
def ginv (x : Nat) : Nat :=
  let a := gsq x
  let b := gmul 8 a x
  let c := gsq (gsq b)
  let d := gmul 8 c b
  gmul 8 (gmul 8 (gsq (gsq (gsq (gsq d)))) c) a

def rotl8 (n x : Nat) : Nat := (x * 2 ^ n) % 256 + x * 2 ^ n / 256

def aesSbox (x : Nat) : Nat :=
  let i := ginv x
  i ^^^ rotl8 1 i ^^^ rotl8 2 i ^^^ rotl8 3 i ^^^ rotl8 4 i ^^^ 0x63

def aesInvSbox (y : Nat) : Nat := ginv (rotl8 1 y ^^^ rotl8 3 y ^^^ rotl8 6 y ^^^ 0x05)

/-- Key expansion, words newest first; i counts the words made. -/
def aesExpand : Nat → Nat → Nat → List (List Nat) → List (List Nat)
  | 0, _, _, ws => ws
  | n + 1, i, rcon, ws =>
    let last := ws.headD []
    let t := if i % 8 = 0 then
        match last.map aesSbox with
        | [a, b, c, d] => [b ^^^ rcon, c, d, a]
        | l => l
      else if i % 8 = 4 then last.map aesSbox else last
    let w := (nthD [] ws 7).zipWith (fun x y => x ^^^ y) t
    aesExpand n (i + 1) (if i % 8 = 0 then gmul 8 rcon 2 else rcon) (w :: ws)

/-- The fifteen round keys of 16 bytes, last first. -/
def aesRoundKeys (key : List Nat) : List (List Nat) :=
  let ws0 := (List.range 8).map fun i => (key.drop (4 * i)).take 4
  let ws := (aesExpand 52 8 1 ws0.reverse).reverse
  ((List.range 15).map fun r => (((ws.drop (4 * r)).take 4)).flatten).reverse

def xorList (a b : List Nat) : List Nat := a.zipWith (fun x y => x ^^^ y) b

/-- Inverse of the row shift; byte r + 4c of a state is row r of column c. -/
def aesInvShift (st : List Nat) : List Nat :=
  (List.range 16).map fun i => nthD 0 st (i % 4 + 4 * ((i / 4 + 4 - i % 4) % 4))

def aesInvMixCol (col : List Nat) : List Nat :=
  let g := fun k i => gmul 8 (nthD 0 col (i % 4)) k
  (List.range 4).map fun i => g 14 i ^^^ g 11 (i + 1) ^^^ g 13 (i + 2) ^^^ g 9 (i + 3)

def aesInvMix (st : List Nat) : List Nat := (List.range 4).flatMap fun c => aesInvMixCol ((st.drop (4 * c)).take 4)

/-- Decipher one block under the round keys, last first. -/
def aesInvCipher (rks : List (List Nat)) (blk : List Nat) : List Nat :=
  match rks with
  | [] => blk
  | k0 :: rest =>
    let st0 := xorList blk k0
    let mid := rest.dropLast
    let last := rest.getLastD []
    let st := mid.foldl (fun st k => aesInvMix (xorList ((aesInvShift st).map aesInvSbox) k)) st0
    xorList ((aesInvShift st).map aesInvSbox) last

/-- One step of the unwrap: t is the step number, i the register. -/
def unwrapStep (rks : List (List Nat)) (st : List Nat × List (List Nat)) (ti : Nat × Nat) : List Nat × List (List Nat) :=
  let a := xorList st.1 ((beBytes 8 ti.1).map fun b => b.toNat)
  let b := aesInvCipher rks (a ++ nthD [] st.2 ti.2)
  (b.take 8, modifyAt (fun _ => b.drop 8) ti.2 st.2)

/-- Unwrap a 40-byte wrapped key of 32 bytes (02 R108); none when the integrity check fails. A key's first byte is the high byte of its
number. -/
def keyUnwrap (kek : BitVec 256) (wrapped : List Byte) : Option (BitVec 256) :=
  let rks := aesRoundKeys ((beBytes 32 kek.toNat).map fun b => b.toNat)
  let w := wrapped.map fun b => b.toNat
  let regs := (List.range 4).map fun i => (w.drop (8 + 8 * i)).take 8
  let steps := (List.range 24).map fun k => (24 - k, (23 - k) % 4)
  let r := steps.foldl (unwrapStep rks) (w.take 8, regs)
  if r.1 = List.replicate 8 0xA6 then some (BitVec.ofNat 256 (r.2.flatten.foldl (fun a b => a * 256 + b) 0)) else none

/-! ### ECDSA over P-384 -/

def p384P : Nat := 2 ^ 384 - 2 ^ 128 - 2 ^ 96 + 2 ^ 32 - 1
def p384N : Nat :=
  0xFFFFFFFFFFFFFFFFFFFFFFFFFFFFFFFFFFFFFFFFFFFFFFFFC7634D81F4372DDF581A0DB248B0A77AECEC196ACCC52973
def p384B : Nat :=
  0xB3312FA7E23EE7E4988E056BE3F82D19181D9C6EFE8141120314088F5013875AC656398D8A2ED19D2A85C8EDD3EC2AEF
def p384G : Nat × Nat :=
  (0xAA87CA22BE8B05378EB1C71EF320AD746E1D3B628BA79B9859F741E082542A385502F25DBF55296C3A545E3872760AB7,
   0x3617DE4A96262C6F5D9E98BF9292DC29F8F41DBD289A147CE9DA3113B5F0B8C00A60B1CE1D7E819D7A431D7C90EA0E5F)

/-- x to the power e modulo m, over n bits of e. -/
def powMod (m : Nat) : Nat → Nat → Nat → Nat
  | 0, _, _ => 1
  | n + 1, x, e => (if e % 2 = 1 then x else 1) * powMod m n (x * x % m) (e / 2) % m

/-- The inverse modulo a prime of 384 bits. -/
def invMod (m x : Nat) : Nat := powMod m 384 (x % m) (m - 2)

/-- Addition of points; none is the point at infinity. -/
def ecAdd (a b : Option (Nat × Nat)) : Option (Nat × Nat) :=
  match a, b with
  | none, q => q
  | p, none => p
  | some (x1, y1), some (x2, y2) =>
    let p := p384P
    if x1 = x2 ∧ (y1 + y2) % p = 0 then none
    else
      let l := if x1 = x2 then (3 * x1 * x1 + p - 3) * invMod p (2 * y1) % p
        else (y2 + p - y1) * invMod p (x2 + p - x1) % p
      let x3 := (l * l + 2 * p - x1 - x2) % p
      some (x3, (l * (x1 + p - x3) + p - y1) % p)

/-- k times a point, over n bits of k. -/
def ecMul : Nat → Nat → Option (Nat × Nat) → Option (Nat × Nat)
  | 0, _, _ => none
  | n + 1, k, a => ecAdd (if k % 2 = 1 then a else none) (ecMul n (k / 2) (ecAdd a a))

def onCurve (q : Nat × Nat) : Bool :=
  decide (q.1 < p384P ∧ q.2 < p384P) && (q.2 * q.2 % p384P == (q.1 * q.1 * q.1 + (p384P - 3) * q.1 + p384B) % p384P)

/-- A signature of r and s, 48 bytes each, over the SHA-384 of a message, under the public point q. -/
def ecdsaVerify (q : Nat × Nat) (msg sig : List Byte) : Bool :=
  let r := beNat (sig.take 48)
  let s := beNat ((sig.drop 48).take 48)
  let n := p384N
  if onCurve q && decide (0 < r ∧ r < n ∧ 0 < s ∧ s < n) then
    let w := invMod n s
    let e := beNat (sha384 msg)
    match ecAdd (ecMul 384 (e * w % n) (some p384G)) (ecMul 384 (r * w % n) (some q)) with
    | none => false
    | some (x, _) => x % n == r
  else false

end Sys2Proof.Machine
end

