-- ==== Sys2Proof/Machine/Mailbox.lean ====
section
/-! DEFINITION. The mailbox registers, the rings, notices and interrupts (chapter 02). -/

namespace Sys2Proof.Machine

/-- The effect of a register command on the mailbox of a function; a function that does not exist has no register
(02 R56, R75). -/
def onBox (s : State) (fn : Nat) (f : State → Mailbox → State) : Host.Outcome State Fault Refusal :=
  match findBox s fn with
  | none => .fault .noSuchFunction
  | some b => .next (f s b)

/-- What the module itself does for a function: nothing for one that does not exist (log entry 2). -/
def onOwnBox (s : State) (fn : Nat) (f : State → Mailbox → State) : Host.Outcome State Fault Refusal :=
  match findBox s fn with
  | none => .next s
  | some b => .next (f s b)

/-- The submission doorbell (02 R66): the last tail written again, or a tail in the free span; anything else is
ignored, sets SQ_TAIL_BAD and halts. -/
def sqDoorbell (value : U32) (b : Mailbox) : Mailbox :=
  let n := b.sqSize
  let t := value.toNat % 4096
  let last := b.sqTail % n
  let free := (b.sqHead % n + n - 1 + n - last) % n
  let dist := (t + n - last) % n
  if t < n ∧ dist ≤ free then { b with sqTail := t } else raiseErr errSqTailBad b

/-- The completion doorbell (02 R68): releases the slots up to the head written; a head beyond the written completions
sets CQ_HEAD_BAD and halts. The slot of a notice is free again once released (02 R118). -/
def cqDoorbell (value : U32) (b : Mailbox) : Mailbox :=
  let n := b.cqSize
  let v := value.toNat % 4096
  let released := (v + n - b.cqHead % n) % n
  if v < n ∧ released ≤ b.unreleased then
    let h := b.cqHead + released
    { b with cqHead := h, noticeSlot := b.noticeSlot.filter fun x => decide (h ≤ x) }
  else raiseErr errCqHeadBad b

/-- The check of 02 R62 when ENABLE goes from 0 to 1. -/
def configOk (b : Mailbox) : Bool :=
  let sq := b.sqBase.toNat
  let cq := b.cqBase.toNat
  let sqEnd := sq + 64 * b.sqSize
  let cqEnd := cq + 32 * b.cqSize
  decide (6 ≤ b.sqLog2.toNat ∧ b.sqLog2.toNat ≤ 12) && decide (6 ≤ b.cqLog2.toNat ∧ b.cqLog2.toNat ≤ 12) &&
    decide (b.sqLog2.toNat ≤ b.cqLog2.toNat) && decide (sq ≠ 0 ∧ cq ≠ 0) &&
    decide (sqEnd ≤ 2 ^ 64 ∧ cqEnd ≤ 2 ^ 64) && decide (sqEnd ≤ cq ∨ cqEnd ≤ sq)

/-- ENABLE written as 1: from 0, the configuration is checked (02 R62); a mailbox whose errors software has cleared
leaves its halt (02 R71). -/
def enableBox (b : Mailbox) : Mailbox :=
  if b.enable then b
  else
    let b' := { b with enable := true }
    if configOk b' then { b' with halted := (b'.err &&& errHalting) != 0 } else raiseErr errConfigBad b'

/-- RING_RESET written as 1 (02 R67, R73, Table 2.2). -/
def resetRings (b : Mailbox) : Mailbox :=
  if b.outstandingTags = [] then
    { b with sqHead := 0, sqTail := 0, cqHead := 0, cqTail := 0, phase := true, noticeSlot := none }
  else raiseErr errResetBusy b

/-- Write 1 to clear (02 Table 2.1). -/
def clearErr (value : U32) (b : Mailbox) : Mailbox := { b with err := b.err &&& ~~~(value.setWidth 8) }

/-- A write of one aligned 32-bit mailbox register (02 Table 2.2, R63). -/
def writeReg (samples offset : Nat) (value : U32) (b : Mailbox) : Mailbox :=
  match offset with
  | 0x0C => clearErr value b
  | 0x10 =>
    let b1 := if value.getLsbD 1 then resetRings b else b
    if value.getLsbD 0 then enableBox b1 else { b1 with enable := false }
  | 0x14 => { b with timeUs := (value >>> 16).setWidth 16, count := value.setWidth 12 }
  | 0x18 => if b.enable then b else { b with sqBase := (b.sqBase &&& 0xFFFFFFFF00000000) ||| ((value &&& 0xFFFFF000).setWidth 64) }
  | 0x1C => if b.enable then b else { b with sqBase := (b.sqBase &&& 0xFFFFFFFF) ||| ((value.setWidth 64) <<< 32) }
  | 0x20 => if b.enable then b else { b with cqBase := (b.cqBase &&& 0xFFFFFFFF00000000) ||| ((value &&& 0xFFFFF000).setWidth 64) }
  | 0x24 => if b.enable then b else { b with cqBase := (b.cqBase &&& 0xFFFFFFFF) ||| ((value.setWidth 64) <<< 32) }
  | 0x28 => if b.enable then b else { b with sqLog2 := value.setWidth 4, cqLog2 := (value >>> 8).setWidth 4 }
  | 0x3C => { b with periodMs := value.setWidth 16, telFired := samples }
  | 0x40 => sqDoorbell value b
  | 0x44 => cqDoorbell value b
  | _ => b

/-- What a 32-bit read of a mailbox register returns (02 Table 2.2); the reads have no row of their own, but for the one
that latches TIME_HI. -/
def readReg (s : State) (b : Mailbox) (offset : Nat) : U32 :=
  match offset with
  | 0x00 => BitVec.ofNat 32 (3 * 2 ^ 24 + (if b.fn = 0 then 256 else 0) + b.fn % 256)
  | 0x04 => BitVec.ofNat 32 ((if b.halted then 2 ^ 15 else 0) + (if s.lead.degraded then 2 ^ 14 else 0) +
      s.lead.leader.num * 2 ^ 13 + s.mstate.code)
  | 0x08 => s.lead.epoch
  | 0x0C => b.err.setWidth 32
  | 0x10 => if b.enable then 1 else 0
  | 0x14 => BitVec.ofNat 32 (b.timeUs.toNat * 65536 + b.count.toNat)
  | 0x18 => b.sqBase.setWidth 32
  | 0x1C => (b.sqBase >>> 32).setWidth 32
  | 0x20 => b.cqBase.setWidth 32
  | 0x24 => (b.cqBase >>> 32).setWidth 32
  | 0x28 => BitVec.ofNat 32 (b.cqLog2.toNat * 256 + b.sqLog2.toNat)
  | 0x2C => BitVec.ofNat 32 (b.sqHead % b.sqSize % 4096)
  | 0x30 => BitVec.ofNat 32 (b.cqTail % b.cqSize % 4096)
  | 0x34 => BitVec.ofNat 32 (nowUs s)
  | 0x38 => b.timeHi
  | 0x3C => b.periodMs.setWidth 32
  | _ => 0

/-- A read of another size than 32 bits, or unaligned, returns all ones (02 R59). -/
def readMailbox (s : State) (b : Mailbox) (offset size : Nat) : U32 :=
  if size = 4 ∧ offset % 4 = 0 then readReg s b offset else 0xFFFFFFFF

def execMbxSqDoorbell (fn : Nat) (value : U32) (s : State) : Host.Outcome State Fault Refusal :=
  onBox s fn fun s _ => setBox s fn (sqDoorbell value)

/-- A released slot lets a held completion be written (02 R68, R71). -/
def execMbxCqDoorbell (fn : Nat) (value : U32) (s : State) : Host.Outcome State Fault Refusal :=
  onBox s fn fun s _ => flush (setBox s fn (cqDoorbell value)) fn

/-- 02 R62, R71, R72. -/
def execEnableSet (fn : Nat) (s : State) : Host.Outcome State Fault Refusal :=
  onBox s fn fun s _ => flush (setBox s fn enableBox) fn

/-- 02 R72. -/
def execEnableClear (fn : Nat) (s : State) : Host.Outcome State Fault Refusal :=
  onBox s fn fun s _ => setBox s fn fun b => { b with enable := false }

/-- 02 R73. -/
def execRingReset (fn : Nat) (s : State) : Host.Outcome State Fault Refusal :=
  onBox s fn fun s _ => flush (setBox s fn resetRings) fn

/-- 02 R71. -/
def execMbxErrClear (fn : Nat) (value : U32) (s : State) : Host.Outcome State Fault Refusal :=
  onBox s fn fun s _ => setBox s fn (clearErr value)

/-- 02 R61: the read returns the low word and latches the high one. -/
def execMbxTimeLoRead (fn : Nat) (s : State) : Host.Outcome State Fault Refusal :=
  onBox s fn fun s _ =>
    { setBox s fn (fun b => { b with timeHi := BitVec.ofNat 32 (nowUs s / 2 ^ 32) }) with busRead := BitVec.ofNat 32 (nowUs s) }

/-- A register write to BAR0 or BAR2 (02 R56, R57, R59, R63). BAR2 ignores writes; virtual functions have none. -/
def execRegisterWrite (bar fn offset size : Nat) (value : U32) (s : State) : Host.Outcome State Fault Refusal :=
  onBox s fn fun s _ =>
    if bar = 0 ∧ size = 4 ∧ offset % 4 = 0 then flush (setBox s fn (writeReg s.tel.samples offset value)) fn else s

/-! ### Reading submissions -/

def decodeSubmission (bs : List Byte) : Submission :=
  { opcode := BitVec.ofNat 8 (fieldAt bs 0 1), flags := BitVec.ofNat 8 (fieldAt bs 1 1),
    tag := BitVec.ofNat 16 (fieldAt bs 2 2), session := BitVec.ofNat 32 (fieldAt bs 4 4),
    epoch := BitVec.ofNat 32 (fieldAt bs 8 4),
    p0 := BitVec.ofNat 64 (fieldAt bs 0x10 8), p1 := BitVec.ofNat 64 (fieldAt bs 0x18 8),
    p2 := BitVec.ofNat 64 (fieldAt bs 0x20 8), p3 := BitVec.ofNat 64 (fieldAt bs 0x28 8),
    p4 := BitVec.ofNat 64 (fieldAt bs 0x30 8), p5 := BitVec.ofNat 64 (fieldAt bs 0x38 8) }

/-- The identification query (02 R89). -/
def Submission.isIdent (u : Submission) : Bool := u.opcode == 0x50 && u.p0.toNat % 256 == 0

/-- FW_UPDATE with recover set, on PF0 (02 R113). -/
def Submission.isRecover (fn : Nat) (u : Submission) : Bool := u.opcode == 0x83 && fn == 0 && u.p2.getLsbD 1

/-- The opcodes of 02 Table 2.6. -/
def knownOpcode (op : Nat) : Bool :=
  [0x01, 0x02, 0x03, 0x04, 0x10, 0x11, 0x12, 0x13, 0x14, 0x15, 0x16, 0x20, 0x21, 0x22, 0x30, 0x31, 0x40, 0x41, 0x42,
    0x50, 0x51, 0x52, 0x80, 0x81, 0x82, 0x83, 0x84, 0x85, 0x86, 0x87].contains op

def findSession (s : State) (id : U32) : Option Session := s.sessions.find? fun x => x.id == id

/-- A CLOSE_SESSION of the session has been read and not completed (02 R106). -/
def closing (s : State) (id : U32) : Bool :=
  s.boxes.any fun b => b.outstanding.any fun o => o.sub.opcode == 0x03 && o.sub.session == id

/-- 02 R93, R94: whether the session named is the function's and in the state the opcode needs. -/
def sessionOk (s : State) (fn : Nat) (u : Submission) : Bool :=
  match findSession s u.session with
  | none => false
  | some x => x.fn == fn && (x.isOpen || u.opcode == 0x02) && !closing s u.session

/-- The checks common to all commands, in order: the TAG (02 R79), the module's STATE (R113), the function and the
session (R93, R94), the epoch (R110). None means accepted. A reserved opcode is left to its own row (R82). -/
def commonCheck (s : State) (fn : Nat) (b : Mailbox) (u : Submission) : Option Status :=
  let op := u.opcode.toNat
  if u.tag = 0xFFFF ∨ b.outstandingTags.contains u.tag = true then some (stBadParam 2)
  else if (s.mstate = .reset ∨ s.mstate = .down) ∧ u.isRecover fn = false then some stNotReady
  else if s.mstate ≠ .ready ∧ s.mstate ≠ .updating ∧ u.isIdent = false ∧ u.isRecover fn = false then some stNotReady
  else if knownOpcode op = false ∨ u.isIdent = true then none
  else if 0x80 ≤ op ∧ fn ≠ 0 then some stNotPermitted
  else if (0x80 ≤ op ∨ op = 1) ∧ u.session ≠ 0 then some (stBadParam 4)
  else if op < 0x80 ∧ op ≠ 1 ∧ sessionOk s fn u = false then some stNoSession
  else if u.epoch < s.lead.epoch then some (stStaleEpoch s.lead.epoch.toNat)
  else if s.lead.epoch < u.epoch then some (stBadParam 8)
  else none

/-- 02 R69: at least two slots stay free after two for every outstanding command and one for notices. -/
def slotsFree (b : Mailbox) : Bool :=
  let written := b.unreleased - (if b.noticeSlot.isSome then 1 else 0)
  decide (written + 2 * b.outstandingTags.length + 1 + 2 ≤ b.cqSize)

/-- Read the next submission, advance HEAD and check it (02 R64, R69-R71, R78-R83, R93-R94, R110, R113). A failed read
sets SQ_DMA and halts. -/
def submissionFetch (s : State) (fn : Nat) (b : Mailbox) : State :=
  let head := b.sqHead % b.sqSize
  if b.enable = false ∨ b.halted = true ∨ head = b.sqTail ∨ slotsFree b = false then s
  else
    match hostRead s (b.sqBase.toNat + 64 * head) 64 with
    | none => setBox s fn (raiseErr errSqDma)
    | some bs =>
      let u := decodeSubmission bs
      let s1 := setBox s fn fun b => { b with sqHead := (head + 1) % b.sqSize }
      match commonCheck s1 fn b u with
      | some st => post s1 fn (st.toCompletion u.tag true u.quiet)
      | none =>
        let r := freshUid s1
        let o : Outstanding := { sub := u, readAt := s.now, interim := false, held := false, started := false, order := r.1 }
        touchSession (setBox r.2 fn fun b => { b with outstanding := b.outstanding ++ [o] }) u.session

def execSubmissionFetch (fn : Nat) (s : State) : Host.Outcome State Fault Refusal :=
  onOwnBox s fn fun s b => submissionFetch s fn b

/-! ### Notices and interrupts -/

/-- Write the first waiting notice into the slot of 02 R118, when it is free; a TELEMETRY_EVENT notice on PF0 also fires
vector 2 (02 R122). -/
def noticeWrite (s : State) (fn : Nat) (b : Mailbox) : State :=
  match b.noticeSlot, b.notices with
  | none, n :: rest =>
    let c : Completion := { tag := 0xFFFF, cls := 0, reason := 0x80, final := true, res0 := n.kind.setWidth 64,
                            res1 := n.arg, detail := 0, quiet := false }
    match putCompletion s { b with notices := rest, noticeSlot := some b.cqTail } c with
    | (s', b', true) =>
      setBox s' fn fun _ => if fn = 0 ∧ n.kind = 5 then { b' with vector2 := b'.vector2 + 1 } else b'
    | (s', b', false) => setBox s' fn fun _ => { b' with notices := b.notices, noticeSlot := none }
  | _, _ => s

def execNoticeWrite (fn : Nat) (s : State) : Host.Outcome State Fault Refusal := onOwnBox s fn fun s b => noticeWrite s fn b

/-- TIME_US has passed since the first completion not yet signalled (02 R120). -/
def coalTimer (now : Nat) (b : Mailbox) : Mailbox :=
  match b.firstUnsignalled with
  | some t =>
    if t + 1000 * b.timeUs.toNat ≤ now then
      { b with unsignalled := 0, firstUnsignalled := none, vector0 := b.vector0 + 1 } else b
  | none => b

def execCompletionIntCoalTimer (fn : Nat) (s : State) : Host.Outcome State Fault Refusal :=
  onOwnBox s fn fun s _ => setBox s fn (coalTimer s.now)

/-- PERIOD_MS telemetry samples have passed since vector 2 last fired (02 R122). -/
def telTimer (samples : Nat) (b : Mailbox) : Mailbox :=
  if b.periodMs ≠ 0 ∧ b.telFired + b.periodMs.toNat ≤ samples then
    { b with vector2 := b.vector2 + 1, telFired := samples } else b

def execTelemetryIntTimer (fn : Nat) (s : State) : Host.Outcome State Fault Refusal :=
  onOwnBox s fn fun s _ => setBox s fn (telTimer s.tel.samples)

end Sys2Proof.Machine
end

