-- ==== Sys2Proof/Machine/Pyvos.lean ====
section
/-! DEFINITION. What the firmware commands share: taking a read submission, admission, allocation and freeing, and
results in host memory (chapters 02, 09 and 12). -/

namespace Sys2Proof.Machine

/-! ### Taking a command -/

/-- Pyvos acts on commands: the module READY, no rekey under way and a control processor dispatching (02 R115, 09 R457,
13 R650). -/
def serving (s : State) : Bool := s.mstate == .ready && s.hbm.rekeying.isNone && s.lead.dispatching

/-- Every earlier command of the session on the function has been accepted (02 R70). -/
def inOrder (s : State) (fn : Nat) (o : Outstanding) : Bool :=
  match findBox s fn with
  | none => false
  | some b => b.outstanding.all fun x => x.started || x.held || x.sub.session != o.sub.session || o.sub.session == 0 || decide (o.order ≤ x.order)

/-- Run f on the outstanding command of a function and tag that the row's test selects; with none, nothing happens
(log entry 2). -/
def withCommand (s : State) (fn : Nat) (tag : U16) (sel : Submission → Bool) (f : State → Outstanding → State) : State :=
  match findOut s fn tag with
  | none => s
  | some o => if sel o.sub && !o.started && serving s && inOrder s fn o then f s o else s

def isOp (op : Byte) (u : Submission) : Bool := u.opcode == op

/-- The command has been accepted and completes later. -/
def markAccepted (s : State) (fn : Nat) (tag : U16) : State :=
  setBox s fn fun b => { b with outstanding := mapIf (fun o => o.sub.tag == tag) (fun o => { o with started := true }) b.outstanding }

/-- The command has been accepted and waits for its condition; its row may run again. -/
def markHeld (s : State) (fn : Nat) (tag : U16) : State :=
  setBox s fn fun b => { b with outstanding := mapIf (fun o => o.sub.tag == tag) (fun o => { o with held := true }) b.outstanding }

/-- A command whose host buffer the host refuses, for which no status is listed: FAILED INTERNAL, recorded with a
firmware error code that is Pyvos's own (02 R82, 13 R666; log entry 16). -/
def hostBufferError (s : State) (fn : Nat) (tag : U16) : State :=
  let p := choose s
  complete (addLog p.2 0x0E 0 { arg0 := p.1 }) fn tag stInternal

/-! ### Admission (12 R609) -/

/-- The first quota, in ascending resource code, that a need would exceed; needs are (code, the use afterwards). -/
def quotaBreach (s : State) (tenant : U32) : List (Nat × Nat) → Option Nat
  | [] => none
  | (code, after) :: t =>
    let lim := quotaLimit s tenant code
    if lim ≠ unlimited ∧ lim < after then some code else quotaBreach s tenant t

/-- Count a refusal for QUOTA and complete (12 Table 12.4). -/
def refuseQuota (s : State) (tenant : U32) (fn : Nat) (tag : U16) (code : Nat) : State :=
  complete (setTenant s tenant fun t => { t with refusedQuota := t.refusedQuota + 1 }) fn tag (stQuota code)

/-- HBM quotas after a context takes n more bytes (12 codes 0x02, 0x03). -/
def hbmNeeds (s : State) (c : Context) (n : Nat) : List (Nat × Nat) :=
  [(0x02, ceilDiv (sumNat ((tenantContexts s c.tenant).map hbmUse) + n) mib), (0x03, ceilDiv (hbmUse c + n) mib)]

/-! ### Allocation (09 R472, R473) -/

def rangesOverlap (a n b m : Nat) : Bool := decide (a < b + m) && decide (b < a + n)

/-- The least fitting aligned start, trying 0 and the aligned ends of what is taken, after low. -/
def firstFit (low page size limit : Nat) (taken : List (Nat × Nat)) : Option Nat :=
  let cands := sortBy (fun a b => decide (a < b)) (alignUp low page :: taken.map fun t => alignUp (t.1 + t.2) page)
  cands.find? fun a => decide (low ≤ a) && decide (a + size ≤ limit) && !taken.any fun t => rangesOverlap a size t.1 t.2

/-- A start that Pyvos chooses: the open choice when it is aligned, fits and is free, else the first fit (log entry 5). -/
def chooseStart (pick low page size limit : Nat) (taken : List (Nat × Nat)) : Option Nat :=
  let a := pick / page * page
  if low ≤ a ∧ a + size ≤ limit ∧ (taken.any fun t => rangesOverlap a size t.1 t.2) = false then some a
  else firstFit low page size limit taken

def basketCapacity (s : State) : Nat := (16 - s.power.config.cacheSlices) * 24 * mib - 16 * mib

/-- HBM capacity of a half: 192 GiB less its retired pseudo-channels (09 Table 9.1, 13 R635). -/
def hbmCapacity (s : State) (h : Nat) : Nat :=
  768 * mib * (256 - (s.hbm.pcs.filter fun p => p.retired && p.num / 256 == h).length)

/-- HBM bytes of a half held by Pyvos itself: half the deferred-update log and its staging buffer (10 R511, R513). -/
def pyvosHbm (s : State) : Nat := s.power.config.logGib * gib / 2 + 4 * gib

def allAllocs (s : State) : List Alloc := s.contexts.flatMap fun c => c.allocs

/-- Bytes taken from a half's HBM by every context, striped pages counting half in each (01 R41), zeroing included. -/
def hbmTaken (s : State) (h : Nat) (withZeroing : Bool) : Nat :=
  let one := fun (b : Backing) (n : Nat) => match b with
    | .nearWest => if h = 0 then n else 0
    | .nearEast => if h = 1 then n else 0
    | .striped => n / 2
    | _ => 0
  sumNat ((allAllocs s).map fun a => one a.backing a.size) +
    sumNat (s.contexts.map fun c => c.storeBytes / 2) +
    (if withZeroing then sumNat (s.hbm.zeroing.map fun z => one z.1 z.2) else 0)

def basketTaken (s : State) (b : Backing) (withZeroing : Bool) : Nat :=
  sumNat ((allAllocs s).map fun a => if a.backing = b then a.size else 0) +
    (if withZeroing then sumNat (s.hbm.zeroing.map fun z => if z.1 = b then z.2 else 0) else 0)

/-- The capacity of a kind suffices for n more bytes (12 R609 step 6). -/
def capacityOk (s : State) (b : Backing) (n : Nat) (withZeroing : Bool) : Bool :=
  match b with
  | .nearWest => decide (hbmTaken s 0 withZeroing + pyvosHbm s + n ≤ hbmCapacity s 0)
  | .nearEast => decide (hbmTaken s 1 withZeroing + pyvosHbm s + n ≤ hbmCapacity s 1)
  | .striped => decide (hbmTaken s 0 withZeroing + pyvosHbm s + n / 2 ≤ hbmCapacity s 0) &&
      decide (hbmTaken s 1 withZeroing + pyvosHbm s + n / 2 ≤ hbmCapacity s 1)
  | .basketWest => decide (basketTaken s .basketWest withZeroing + n ≤ basketCapacity s)
  | .basketEast => decide (basketTaken s .basketEast withZeroing + n ≤ basketCapacity s)
  | .host => true

/-- What is asked of an allocation. -/
structure Ask where
  size : Nat
  page : Nat
  backing : Backing
  rd : Bool
  wr : Bool
  use : AllocUse
  bus : Nat := 0

/-- Place an allocation: a free virtual base, never 0, and a contiguous span of module memory aligned to the page
(09 R450, R472). The new bytes read as zero (R473). -/
def allocate (s : State) (sess : U32) (k : Ask) : Option (Nat × State) :=
  match findCtx s sess with
  | none => none
  | some c =>
    let p := choose s
    let q := choose p.2
    let virt := c.allocs.map fun a => (a.base, a.size)
    let taken := ((allAllocs s).filter fun a => a.backing == k.backing).map fun a => (a.phys, a.size)
    let phys := if k.backing = .host then some k.bus else chooseStart q.1 0 k.page k.size spaceSize taken
    match chooseStart p.1 k.page k.page k.size spaceSize virt, phys with
    | some va, some pa =>
      let a : Alloc := { base := va, size := k.size, page := k.page, backing := k.backing, rd := k.rd, wr := k.wr, phys := pa, use := k.use }
      let s1 := if k.backing = .host then q.2 else { q.2 with mem := clearCells q.2.mem (k.backing.space * spaceSize + pa) k.size }
      some (va, setCtx s1 sess fun c => { c with allocs := c.allocs ++ [a] })
    | _, _ => none

/-- Give back an allocation: its translations go at once, its bytes are zeroed and its capacity returns when the zeroing
ends (09 R474, 12 R627). Poison goes with the bytes. -/
def release (s : State) (sess : U32) (a : Alloc) : State :=
  let s1 := setCtx s sess fun c => { c with allocs := c.allocs.filter fun x => x.base != a.base }
  if a.backing = .host then s1
  else
    let lo := a.backing.space * spaceSize + a.phys
    let keep :=
      if s1.hbm.poisoned = [] then []
      else
        let gone := (sectorsOf lo a.size).filterMap fun x => (sectorOf s1.hbm x).map fun p => sectorKey p.1 p.2
        s1.hbm.poisoned.filter fun k => !gone.contains k
    { s1 with mem := clearCells s1.mem lo a.size,
              hbm := { s1.hbm with zeroing := s1.hbm.zeroing ++ [(a.backing, a.size)], poisoned := keep } }

/-- A handle below 0x80_0000 for a table or graph (09 R476); none when the sequence is spent. -/
def nextObjectHandle (c : Context) : Option Nat := if c.nextHandle < 0x800000 then some c.nextHandle else none

/-- Every handle of another kind that a context holds. -/
def otherHandles (c : Context) : List Nat :=
  c.coils.map (fun x => x.handle) ++ c.groups.map (fun x => x.handle) ++ c.streams.map fun x => x.handle

/-- A handle of another kind, at 0x80_0000 or above: the open choice when free, else the least free (log entry 5). -/
def chooseHandle (s : State) (c : Context) : Nat × State :=
  let p := choose s
  let k := 0x800000 + p.1 % 0x800000
  let used := otherHandles c
  if used.contains k then
    ((((List.range (used.length + 1)).map fun i => 0x800000 + i).find? fun h => !used.contains h).getD 0x800000, p.2)
  else (k, p.2)

/-- Parameters of a submission as numbers. -/
def P0 (o : Outstanding) : Nat := o.sub.p0.toNat
def P1 (o : Outstanding) : Nat := o.sub.p1.toNat
def P2 (o : Outstanding) : Nat := o.sub.p2.toNat
def P3 (o : Outstanding) : Nat := o.sub.p3.toNat
def P4 (o : Outstanding) : Nat := o.sub.p4.toNat
def P5 (o : Outstanding) : Nat := o.sub.p5.toNat

/-- Every list of the context admitted before the command has ended (03 R186, 09 R474). -/
def earlierListsEnded (s : State) (o : Outstanding) : Bool :=
  !s.lists.any fun l => l.sess == o.sub.session && decide (l.order < o.order)

end Sys2Proof.Machine
end

