-- ==== Sys2Proof/Machine/Hbm.lean ====
section
/-! DEFINITION. The HBM controllers and the delivery of replies: sorting windows, sector checks, training, scrubbing, hot
stackList and rekeying (chapters 06 and 09). -/

namespace Sys2Proof.Machine

/-! ### The sorting window (06 R289) -/

def findPc (s : State) (n : Nat) : Option PseudoChannel := s.hbm.pcs.find? fun p => p.num == n

def findStack (s : State) (n : Nat) : Option Stack := s.hbm.stackList.find? fun x => x.num == n

/-- A pseudo-channel can issue: not held by training, its stack not STOPPED, no rekey under way, its half not being reset (09
R457, R460, R465; 13 R640). -/
def pcServes (s : State) (n : Nat) : Bool :=
  s.hbm.rekeying.isNone && !unitResetting s (n / 256) && (match findPc s n with | some p => decide (p.heldUntil ≤ s.now) | none => true) &&
    match findStack s (n / 64) with | some x => x.thermal != 3 | none => true

def inWindow (s : State) (n : Nat) : List Request := s.requests.filter fun r => r.pc == n && r.state == .sorting

/-- Move queued requests of a pseudo-channel into its window of 64, oldest first; each begins to wait in it now. -/
def fillWindow (s : State) (n : Nat) : State :=
  let room := 64 - (inWindow s n).length
  let ids := ((s.requests.filter fun r => r.pc == n && r.state == .queued).take room).map fun r => r.id
  { s with requests := mapIf (fun r => ids.contains r.id) (fun r => { r with state := .sorting, issuedAt := s.now }) s.requests }

/-- Page of a request in its pseudo-channel: 1 KiB, as HBM4 has it (log entry 21). -/
def pageOf (s : State) (r : Request) : Nat := match sectorOf s.hbm r.phys with | some (_, sec) => sec / 32 | none => 0

/-- The tenant of a request has the tokens it needs (12 R619, R621). -/
def hbmTokensFor (s : State) (r : Request) : Bool :=
  match findCtx s r.sess with
  | none => true
  | some c => match (findTenant s c.tenant).hbmTokens with | none => true | some k => decide (r.bytes ≤ k)

/-- The request that a window issues next: one that has waited 1 µs, the oldest on the open page, or the oldest. -/
def windowNext (s : State) (n : Nat) : Option Request :=
  let ws := (inWindow s n).filter fun r => hbmTokensFor s r
  let openPage := match findPc s n with | some p => p.openPage | none => none
  (ws.find? fun r => decide (r.issuedAt + 1000 ≤ s.now)).or ((ws.find? fun r => openPage == some (pageOf s r)).or ws.head?)

def sortWindowIssue (s : State) (n : Nat) : State :=
  if pcServes s n = false then s
  else
    let s1 := fillWindow s n
    match windowNext s1 n with
    | none => s1
    | some r =>
      let s2 := { s1 with requests := mapIf (fun q => q.id == r.id) (fun q => { q with state := .memory }) s1.requests }
      tallyPhys (setPc s2 n fun p => { p with openPage := some (pageOf s r) }) r.sess 0 r.phys r.bytes

def execSortWindowIssue (pc : Fin 512) (s : State) : Host.Outcome State Fault Refusal := .next (sortWindowIssue s pc.val)

/-! ### Sector checks (09 R461, R462) -/

/-- A sector is found uncorrectable: poisoned, recorded with its pseudo-channel and offset, and counted (09 R462). -/
def poisonSector (s : State) (pc sec : Nat) : State :=
  let k := sectorKey pc sec
  let s1 := if s.hbm.poisoned.contains k then s else { s with hbm := { s.hbm with poisoned := s.hbm.poisoned ++ [k] } }
  bucketEvent (addLog s1 0x08 3 { unit := BitVec.ofNat 16 (0x7000 + pc), arg0 := sec }) 2 (BitVec.ofNat 16 (0x7000 + pc)) 0 sec

/-- What the sector code finds for a number of bad symbols: none, one corrected, or more, uncorrectable (09 R461; four or
more are taken as detected, log entry 22). -/
def sectorCheck (s : State) (pc sec symbols : Nat) : State :=
  if symbols = 0 then s
  else if symbols = 1 then bucketEvent s 1 (BitVec.ofNat 16 (0x7000 + pc)) 0 sec
  else poisonSector s pc sec

/-- A read ends: checked, and the reply returns; a poisoned sector ends the lists that wait for it (09 R462). -/
def hbmAccessDone (s : State) (id symbols : Nat) : State :=
  match s.requests.find? fun r => r.id == id && r.state == .memory with
  | none => s
  | some r =>
    match sectorOf s.hbm r.phys with
    | none => s
    | some (pc, sec) =>
      let s1 := sectorCheck s pc sec symbols
      let s2 := { s1 with requests := mapIf (fun q => q.id == id) (fun q => { q with state := .returned }) s1.requests }
      match poisonIn s1.hbm r.phys r.bytes with
      | none => s2
      | some bad =>
        let waiting := s2.requests.filter fun q => q.id == id || q.state == .merged id
        waiting.foldl (fun st q => if q.stopped then st else faultCommand st q.ref (.hw (0x7000 + bad))) s2

def execHbmAccessDone (req symbols : Nat) (s : State) : Host.Outcome State Fault Refusal := .next (hbmAccessDone s req symbols)

/-! ### Delivery (06 R290, 01 R22) -/

/-- A returned reply, or one served by the Basket, is delivered with those merged with it; slots freed let rows be issued.
Lanes of the bridge that fail as it crosses are counted. -/
def replyDelivery (s : State) (id : Nat) (badLanes : List (Nat × Nat)) : State :=
  match s.requests.find? fun r => r.id == id && (r.state == .returned || r.state == .basket) with
  | none => s
  | some r =>
    let s1 := badLanes.foldl (fun st l => if l.1 < 4 then bucketEvent st 9 (BitVec.ofNat 16 (0xE000 + l.1)) l.2 l.2 else st) s
    issueMore (deliverAll s1 r) r.splint

def execReplyDelivery (req : Nat) (badLanes : List (Nat × Nat)) (s : State) : Host.Outcome State Fault Refusal :=
  .next (replyDelivery s req badLanes)

/-! ### Training and scrubbing (09 R458-R464) -/

/-- A pseudo-channel retrains when ten minutes have passed since it last did and no other of its stack does; its traffic is
held for 2 µs. Lane errors found are counted (09 R458, R459). -/
def hbmRetrain (s : State) (n errors : Nat) : State :=
  match findPc s n with
  | none => s
  | some p =>
    let busy := s.hbm.pcs.any fun q => q.num / 64 == n / 64 && decide (s.now < q.heldUntil)
    if p.retired ∨ busy = true ∨ s.now < p.lastTrain + 600 * 10 ^ 9 then s
    else
      let s1 := setPc s n fun p => { p with lastTrain := s.now, heldUntil := s.now + 2000 }
      let u : U16 := BitVec.ofNat 16 (0x8000 + n / 2)
      (List.range errors).foldl (fun st _ => bucketEvent st 3 u 0 0) s1

def execHbmRetrain (pc : Fin 512) (laneErrors : Nat) (s : State) : Host.Outcome State Fault Refusal := .next (hbmRetrain s pc.val laneErrors)

/-- Sectors of a pseudo-channel of 768 MiB. -/
def pcSectors : Nat := 768 * mib / 32

/-- The scrubber reads a sector while the window holds fewer than 8 requests, or when it is more than an hour behind its
pass of 24 h (09 R463). -/
def patrolScrub (s : State) (n sec symbols : Nat) : State :=
  match findPc s n with
  | none => s
  | some p =>
    let behind := decide (p.scrubbed * (24 * hourNs) + hourNs * pcSectors < s.now * pcSectors)
    if p.retired ∨ ((inWindow s n).length ≥ 8 ∧ behind = false) then s
    else sectorCheck (setPc s n fun p => { p with scrubbed := p.scrubbed + 1 }) n sec symbols

def execHbmPatrolScrub (pc : Fin 512) (sector symbols : Nat) (s : State) : Host.Outcome State Fault Refusal :=
  .next (patrolScrub s pc.val sector symbols)

/-- The SRAM scrub finds bad bits in a word of a row: one is corrected and counted, more are uncorrectable (09 R464). -/
def sramScrub (s : State) (h : Half) (row bits : Nat) : State :=
  let u : U16 := BitVec.ofNat 16 h.num
  if bits = 0 then s
  else if bits = 1 then bucketEvent s 5 u row row
  else addLog s 0x08 2 { unit := u, arg0 := row }

def execSramScrub (h : Half) (row bits : Nat) (s : State) : Host.Outcome State Fault Refusal := .next (sramScrub s h row bits)

/-- A request held by a STOPPED stack for 100 ms ends its list (09 R466). -/
def stackStopTimeout (s : State) (id : Nat) : State :=
  match s.requests.find? fun r => r.id == id && (r.state == .queued || r.state == .sorting) && !r.stopped with
  | none => s
  | some r =>
    match findStack s (r.pc / 64) with
    | none => s
    | some x =>
      if x.thermal = 3 ∧ Nat.max r.issuedAt x.stoppedAt + 10 ^ 8 ≤ s.now then faultCommand s r.ref (.hw (0x6000 + x.num)) else s

def execStackStopTimeout (req : Nat) (s : State) : Host.Outcome State Fault Refusal := .next (stackStopTimeout s req)

/-! ### The key of the interleave (09 R451, R456, R457) -/

/-- Row i of a key from a random number: ones on the diagonal, zeros above it (09 R450). -/
def keyRow (r i : Nat) : BitVec 9 := BitVec.ofNat 9 (2 ^ i + r / 2 ^ (9 * i) % 2 ^ i)

/-- Draw a new key (09 R451). -/
def drawKey (s : State) : State :=
  let a := draw s
  let b := draw a.2
  { b.2 with hbm := { b.2.hbm with keyA := (List.range 9).map (keyRow a.1), k0 := BitVec.ofNat 9 b.1 } }

/-- The addresses of poisoned sectors within allocations: their contents move with the granules. -/
def poisonedAddrs (s : State) : List Nat :=
  if s.hbm.poisoned = [] then []
  else (s.contexts.flatMap fun c => c.allocs).flatMap fun a =>
    if isHbm a.backing then (sectorsOf (a.backing.space * spaceSize + a.phys) a.size).filter fun x => (poisonIn s.hbm x 1).isSome else []

/-- The granules are under the new key: poison and requests in flight follow their data, no page is open (09 R456). -/
def moveGranules (addrs : List Nat) (s : State) : State :=
  let keys := addrs.filterMap fun a => (sectorOf s.hbm a).map fun p => sectorKey p.1 p.2
  { s with
    hbm := { s.hbm with poisoned := keys, pcs := s.hbm.pcs.map fun p => { p with openPage := none } },
    requests := s.requests.map fun r => match sectorOf s.hbm r.phys with
      | some (pc, _) => { r with pc := pc, merging := false }
      | none => r }

/-- REKEY_HBM: a running FB_COLL completes or aborts first; then a new key is drawn, the granules move and the engines go on.
The duration is within 150 ms, and otherwise free (09 R456). -/
def rekeyHbm (s : State) (fn : Nat) (tag : U16) : State :=
  match findOut s fn tag with
  | none => s
  | some o =>
    let mine := match s.hbm.rekeying with | some (f, t, _) => f == fn && t == tag | none => serving s && inOrder s fn o
    if o.sub.opcode ≠ 0x86 ∨ mine = false then s
    else if s.progress.any fun p => keepsRunning p.word then
      markAccepted { s with hbm := { s.hbm with rekeying := some (fn, tag, s.now) } } fn tag
    else
      let d := choose s
      let s1 := moveGranules (poisonedAddrs d.2) (drawKey d.2)
      complete { s1 with hbm := { s1.hbm with rekeying := none } } fn tag (stOk0 (d.1 % 150001))

def execRekeyHbm (fn : Nat) (tag : U16) (s : State) : Host.Outcome State Fault Refusal := .next (rekeyHbm s fn tag)

end Sys2Proof.Machine
end

