-- ==== Sys2Proof/Machine/WeaveMath.lean ====
section
/-! DEFINITION. The numbers of the Weave: operand pairs, the accumulation order, weight tiles, the check sums and the
conversion of results (chapter 07). -/

namespace Sys2Proof.Machine

/-! ### Operand pairs (04 R204, Table 4.7) -/

/-- Eight times the rate of a format's class, in K-steps per cycle (07 R346). -/
def fmtRate8 (fmt : Nat) : Nat :=
  match fmt with
  | 0xB | 0xC => 32
  | 0x5 | 0x6 | 0x7 | 0x8 | 0xA => 16
  | 0x3 | 0x4 | 0x9 => 8
  | 0x1 | 0x2 | 0xD => 4
  | _ => 1

/-- MB8 and UE8M0 are not operand formats (04 R204). -/
def operandFmt (fmt : Nat) : Bool := fmt != 0xE && fmt != 0xF

inductive AccFmt where
  | int32
  | fp32
  | fp20
  deriving DecidableEq, Repr

def AccFmt.code : AccFmt → Nat
  | .int32 => 0
  | .fp32 => 1
  | .fp20 => 2

structure Pair where
  acc : AccFmt
  rate8 : Nat
  wide : Bool
  aWide : Bool
  bWide : Bool
  deriving DecidableEq, Repr

def isIntFmt (fmt : Nat) : Bool := fmt == 0x9 || fmt == 0xA || fmt == 0xB || fmt == 0xC

def pairOf (aFmt : Nat) (aMx : Bool) (bFmt : Nat) (bMx : Bool) : Pair :=
  let rate := Nat.min (fmtRate8 aFmt) (fmtRate8 bFmt)
  { acc := if isIntFmt aFmt && isIntFmt bFmt && !aMx && !bMx then .int32 else if rate ≤ 8 then .fp32 else .fp20
    rate8 := rate, wide := aFmt == 0 || bFmt == 0, aWide := aFmt == 0, bWide := bFmt == 0 }

/-- GROUP and PROMO (03 Table 3.4); 3 is reserved for GROUP. -/
def groupSize (g : Nat) : Nat := nthD 8 [8, 4, 16] g
def promoPeriod (p : Nat) : Nat := nthD 4 [4, 1, 2, 8] p

/-! ### Accumulation (07 R355-R357; 04 R203, R205, R206) -/

/-- Rounding to the accumulator format; an INT32 sum saturates at the bound it passes, with OF. -/
def AccFmt.round (f : AccFmt) (p : Num × Fl) : Num × Fl :=
  match f with
  | .fp32 => let r := toFp32 p.1; (Machine.fp32 r.1, arrayFl (p.2 ||| r.2))
  | .fp20 => let r := toFp20 p.1; (Machine.fp32 r.1, arrayFl (p.2 ||| r.2))
  | .int32 =>
    if (Num.ofNat (2 ^ 31 - 1)).lt p.1 then (Num.ofNat (2 ^ 31 - 1), flOF)
    else if p.1.lt (Num.ofInt (-(2 ^ 31 : Int))) then (Num.ofInt (-(2 ^ 31 : Int)), flOF)
    else (p.1, p.2)

/-- The high or low 12 bits of an operand's 24-bit significand; another operand is its own high part (04 R203, 07 R356). -/
def splitPart (isWide hi : Bool) (x : Num) : Num :=
  if isWide then
    match x with
    | .fin b m e => if hi then .fin b (m / 4096) (e + 12) else .fin b (m % 4096) e
    | y => y
  else if hi then x else .zero

/-- The contribution of one pass to a product; a product with an infinity or a NaN counts whole in (hi, hi) (04 R203). -/
def passProduct (p : Pair) (ha hb : Bool) (x y : Num) : Num × Fl :=
  let q : Num × Fl :=
    if p.wide then
      if x.isFin && y.isFin then (splitPart p.aWide ha x).mul (splitPart p.bWide hb y)
      else if ha && hb then x.mul y else (.zero, 0)
    else x.mul y
  let r := p.acc.round q
  (r.1, r.2 ||| x.nf ||| y.nf)

/-- Adjacent pairs, level by level. -/
def treeSum (f : AccFmt) : Nat → List Num → Num × Fl
  | 0, ps => (nthD .zero ps 0, 0)
  | k + 1, ps =>
    let l := (List.range (ps.length / 2)).map fun i => f.round ((nthD .zero ps (2 * i)).add (nthD .zero ps (2 * i + 1)))
    let r := treeSum f k (l.map fun p => p.1)
    (r.1, l.foldl (fun a p => a ||| p.2) r.2)

/-- The groups of a K-step in order, each summed by its tree and added to an accumulator. -/
def kstepFrom (f : AccFmt) (g : Nat) : Nat → List (Num × Fl) → Num × Fl → Num × Fl
  | 0, _, acc => acc
  | n + 1, ps, acc =>
    let grp := ps.take g
    let t := treeSum f (Nat.log2 g) (grp.map fun p => p.1)
    let s := f.round (acc.1.add t.1)
    kstepFrom f g n (ps.drop g) (s.1, grp.foldl (fun a p => a ||| p.2) (acc.2 ||| t.2 ||| s.2))

/-- kstep of 07 R355 over 32 products; an element the tile does not keep gives +0 and raises nothing. -/
def kstep (p : Pair) (g : Nat) (ha hb : Bool) (xs : List Num) (ys : List (Option Num)) (acc : Num × Fl) : Num × Fl :=
  let ps := (xs.zip ys).map fun q => match q.2 with | some y => passProduct p ha hb q.1 y | none => (Num.zero, 0)
  kstepFrom p.acc g (32 / g) ps acc

/-- One K tile of an element: the passes of an FP32 operand in their order. -/
def ktile (p : Pair) (g : Nat) (xs : List Num) (ys : List (Option Num)) (acc : Num × Fl) : Num × Fl :=
  if p.wide then
    kstep p g true true xs ys (kstep p g true false xs ys (kstep p g false true xs ys (kstep p g false false xs ys acc)))
  else kstep p g true true xs ys acc

/-- The element of an output tile over the K tiles of a command (07 R355, R357): none stands for an EMPTY weight tile. xs are
the A row's elements from the first of these tiles on. -/
def elementFrom (p : Pair) (g P : Nat) : List (Option (List (Option Num))) → List Num → Num × Fl → Num × Fl → Nat → Num × Fl
  | [], _, acc, _, _ => acc
  | c :: t, xs, acc, sh, since =>
    let step := fun (a : Num × Fl) => match c with | some ys => ktile p g (xs.take 32) ys a | none => a
    if p.acc = .fp20 then
      let sh1 := step sh
      if since + 1 = P ∨ t = [] then
        let r := AccFmt.fp32.round (acc.1.add sh1.1)
        elementFrom p g P t (xs.drop 32) (r.1, acc.2 ||| sh1.2 ||| r.2) (Num.zero, 0) 0
      else elementFrom p g P t (xs.drop 32) acc sh1 (since + 1)
    else elementFrom p g P t (xs.drop 32) (step acc) sh since

def element (p : Pair) (g P : Nat) (cols : List (Option (List (Option Num)))) (xs : List Num) (acc : Num) : Num × Fl :=
  elementFrom p g P cols xs (acc, 0) (Num.zero, 0) 0

/-- An accumulator as the 32-bit word that CHAIN carries: an FP32 code, or a two's-complement integer. -/
def accWord (f : AccFmt) (x : Num) : U32 :=
  match f with
  | .int32 => BitVec.ofInt 32 (intRound .nearest (2 ^ 31) (2 ^ 31 - 1) x).1
  | _ => (toFp32 x).1

def accNum (f : AccFmt) (w : U32) : Num :=
  match f with
  | .int32 => Num.ofInt w.toInt
  | _ => fp32 w

/-! ### Weight streams and tiles (07 R349, R350, R358-R364) -/

structure WStream where
  d : Desc
  metaBase : Nat
  kmax : Nat
  strayBase : Nat
  sb : U32
  aFmt : Nat
  trans : Bool

/-- A weight stream from its descriptor and its extension (07 Table 7.3). -/
def wstream (d ext : BitVec 512) (trans : Bool) : WStream :=
  { d := decodeDesc d, metaBase := fld ext 0 47 0, kmax := nthD 0 [0, 4, 8, 16] (fld ext 6 1 0), strayBase := fld ext 8 47 0,
    sb := BitVec.ofNat 32 (fld ext 0x10 31 0), aFmt := fld ext 0x14 3 0, trans := trans }

def WStream.storedKT (w : WStream) : Nat := w.d.count 2
def WStream.storedNT (w : WStream) : Nat := w.d.count 3
def WStream.kt (w : WStream) : Nat := if w.trans then w.storedNT else w.storedKT
def WStream.nt (w : WStream) : Nat := if w.trans then w.storedKT else w.storedNT

/-- Packed size of 32 elements (07 Table 7.2). -/
def bytes32 (fmt : Nat) : Nat := packedBytes fmt 32

/-- The shape of a weight stream (07 R349, R351). -/
def WStream.ok (w : WStream) : Bool :=
  let d := w.d
  d.ndim == 4 && d.count 0 == 32 && d.count 1 == 32 && d.tile0 == 32 && d.tile1 == 32 && d.stride 0 == 0 && operandFmt d.fmt &&
    d.stride 1 == (bytes32 d.fmt : Int) && decide (w.kt ≤ 1024)

/-- k of a class (07 Table 7.4). -/
def classKept (cls : Nat) : Nat := nthD 0 [0, 4, 8, 16, 32] cls

/-- Eight times the K-steps a tile costs (07 R362, R364). -/
def tileCost8 (trans : Bool) (cls : Nat) : Nat := if trans then (if cls = 0 then 0 else 8) else nthD 0 [0, 1, 2, 4, 8] cls

/-- A weight tile as it serves a product: its columns along the product's K, none for an element not kept, and its strays
as (place along K, column, delta). -/
structure WTile where
  cls : Nat
  cols : List (List (Option Num))
  strays : List (Nat × Nat × Num)
  size : Nat

/-- The rows and columns of a 32 × 32 tile exchanged. -/
def transpose32 (l : List (List (Option Num))) : List (List (Option Num)) :=
  (List.range 32).map fun i => l.map fun c => nthD none c i

/-- A metadata record that passes the check of 07 R360: its class and its IDX bytes by column. -/
def checkMeta (kmax kt nt : Nat) (hdr idx : List Byte) : Option (Nat × List (List Nat)) :=
  let cls := fieldAt hdr 0 1 % 8
  let k := classKept cls
  let kk := if cls = 0 ∨ cls = 4 then 0 else k
  let cols := (List.range 32).map fun n => ((idx.drop (kk * n)).take kk).map fun b => b.toNat
  let rising := fun (l : List Nat) => (l.zip (l.drop 1)).all fun p => decide (p.1 < p.2)
  if cls ≤ 4 ∧ kk ≤ kmax ∧ fieldAt hdr 8 1 = k ∧ fieldAt hdr 4 2 = kt ∧ fieldAt hdr 6 2 = nt ∧ fieldAt hdr 0 1 < 8 ∧ fieldAt hdr 2 2 = 0 ∧
      fieldAt hdr 9 7 = 0 ∧ crc8 (hdr.take 1 ++ hdr.drop 2 ++ idx) = fieldAt hdr 1 1 ∧ (cols.all rising) = true ∧
      (cols.all fun l => l.all fun i => decide (i < 32)) = true then some (cls, cols) else none

/-- A stray block that passes the check of 04 R224: its records. -/
def checkStrays (blk : List Byte) : Option (List Nat) :=
  let n := fieldAt blk 0 1
  let recs := (List.range 15).map fun i => fieldAt blk (4 + 4 * i) 4
  let key := fun (r : Nat) => r % 32 * 32 + r / 32 % 32
  let used := recs.take n
  let ks := used.map key
  if n ≤ 15 ∧ fieldAt blk 2 2 = 0 ∧ (recs.drop n).all (fun r => r == 0) = true ∧ (used.all fun r => r / 1024 % 64 == 0) = true ∧
      ((ks.zip (ks.drop 1)).all fun p => decide (p.1 < p.2)) = true ∧ crc8 (blk.drop 4) = fieldAt blk 1 1 then some used else none

/-- A stray record as (place along the product's K, product column, delta) (04 Table 4.11, 07 R372). -/
def strayOf (trans : Bool) (r : Nat) : Nat × Nat × Num :=
  let k := r % 32
  let c := r / 32 % 32
  (if trans then c else k, if trans then k else c, fmtBf16.decode (r / 65536))

/-- A column of a SPARSE tile: its kept elements at their IDX places. -/
def sparseColumn (idx : List Nat) (vals : List Num) : List (Option Num) :=
  (List.range 32).map fun k => ((idx.zip vals).find? fun p => p.1 == k).map fun p => p.2

/-- The columns of a stored tile from its data, with the flags of reading it (07 R349, R359). -/
def tileColumns (fmt cls : Nat) (idx : List (List Nat)) (data : List Byte) (scales : Option (List Byte)) : List (List (Option Num)) × Fl :=
  let k := classKept cls
  let u := unpack fmt (32 * k) data
  let cols := (List.range 32).map fun n =>
    let vs := (u.1.drop (k * n)).take k
    let vs := match scales with
      | some bs => vs.map fun v => (mxValue fmt (nthD 0 bs n).toNat v).1
      | none => vs
    if cls = 4 then vs.map some else sparseColumn (nthD [] idx n) vs
  (cols, arrayFl u.2)

/-! ### The check column (07 R383, R384) -/

/-- bsum and babs of each K position of a tile. -/
def checkSums (p : Pair) (t : WTile) : List Num × List Num :=
  let at_ := fun (k : Nat) => t.cols.map fun c => (nthD none c k).getD Num.zero
  let sum := fun (vs : List Num) =>
    match vs with
    | [] => Num.zero
    | v :: r => r.foldl (fun a x => if p.acc = .int32 then (a.add x).1 else (AccFmt.fp32.round (a.add x)).1) v
  let ks := List.range 32
  if t.cls = 0 then (ks.map fun _ => Num.zero, ks.map fun _ => Num.zero)
  else (ks.map fun k => sum (at_ k), ks.map fun k => sum ((at_ k).map Num.abs))

/-- A sum of products accumulated as 07 R355 accumulates, in FP32. -/
def fpCheck (g : Nat) (xs ys : List Num) (acc : Num) : Num :=
  let ps := (xs.zip ys).map fun q => AccFmt.fp32.round (q.1.mul q.2)
  (kstepFrom .fp32 g (32 / g) ps (acc, 0)).1

/-- chk and mag of a row over the K tiles of a command, from those carried in. -/
def rowCheck (p : Pair) (g : Nat) : List WTile → List Num → Num × Num → Num × Num
  | [], _, cm => cm
  | t :: ts, xs, cm =>
    let b := checkSums p t
    let x := xs.take 32
    let chk :=
      if p.acc = .int32 then (x.zip b.1).foldl (fun (a : Num) q => (a.add (q.1.mul q.2).1).1) cm.1 else fpCheck g x b.1 cm.1
    rowCheck p g ts (xs.drop 32) (chk, fpCheck g (x.map Num.abs) (b.2.map fun v => (AccFmt.fp32.round (v, 0)).1) cm.2)

/-- The comparison of a row (07 R384): none when it is skipped. -/
def compareRow (p : Pair) (accs : List Num) (saturated : Bool) (cm : Num × Num) : Option Bool :=
  if p.acc = .int32 then
    if saturated then none else some ((accs.foldl (fun (a x : Num) => (a.add x).1) Num.zero).same cm.1)
  else
    let s := match accs with
      | [] => Num.zero
      | v :: r => r.foldl (fun a x => (AccFmt.fp32.round (a.add x)).1) v
    if s.isFin && cm.1.isFin && cm.2.isFin then
      some (!((cm.2.mul (.fin false 1 (-10))).1.lt (s.add cm.1.neg).1.abs))
    else none

/-! ### The exit path (07 R371-R375) -/

structure Exit where
  scale : Bool
  strays : Bool
  stats : Bool
  zmap : Bool
  conv : Bool
  stoch : Bool
  check : Bool

def exitOf (w : BitVec 512) : Exit :=
  let b := fun i => fld w 0x28 i i == 1
  { scale := b 48, strays := b 49, stats := b 50, zmap := b 51, conv := b 52, stoch := b 53, check := b 54 }

/-- Stage 2: out = fl32(fl32(acc × SA) × SB), or rn32(acc) (04 R211). -/
def scaleStage (on : Bool) (sa sb : U32) (acc : Num) : FV :=
  let a := toFp32 acc
  if on then
    let r := FV.mul (FV.mul (a.1, a.2) (FV.of sa)) (FV.of sb)
    (r.1, arrayFl r.2)
  else (a.1, arrayFl a.2)

/-- Stage 3: the correction of an element from the strays of its column, as (A element, delta) in order (07 R372). -/
def strayStage (sa : U32) (xs : List (Num × Num)) (out : FV) : FV :=
  let cor := xs.foldl (fun (c : Num × Fl) p =>
    let q := AccFmt.fp32.round (p.1.mul p.2)
    let r := AccFmt.fp32.round (c.1.add q.1)
    (r.1, c.2 ||| q.2 ||| r.2 ||| p.1.nf ||| p.2.nf)) (Num.zero, 0)
  let c32 := (toFp32 cor.1).1
  let m := fmul c32 sa
  let r := fadd out.1 m.1
  (r.1, out.2 ||| cor.2 ||| arrayFl (m.2 ||| r.2))

/-- The larger of two as row statistics compare (07 R373, 06 R320): a NaN makes the canonical NaN. -/
def statMax (a b : U32) : U32 :=
  let x := fp32 a
  let y := fp32 b
  if x = .nan ∨ y = .nan then 0x7FC00000
  else if x.lt y || (x.isZero && y.isZero && x.isNeg && !y.isNeg) then b else a

/-- ROWMAX and ROWSUM continued over a row's elements in column order. -/
def statFold (vs : List U32) (st : Option (U32 × U32)) : Option (U32 × U32) × Fl :=
  vs.foldl (fun acc v =>
    match acc.1 with
    | none => (some (statMax v v, v), acc.2)
    | some (m, q) => let r := fadd q v; (some (statMax m v, r.1), acc.2 ||| arrayFl r.2)) (st, 0)

/-- The running maximum of |x| over finite elements (04 R209, R210). -/
def amaxFold (vs : List U32) (a : U32) : U32 :=
  vs.foldl (fun a v => if (fp32 v).isFin && (fp32 a).lt (fp32 v).abs then v &&& 0x7FFFFFFF else a) a

end Sys2Proof.Machine
end

