-- ==== Sys2Proof/Machine/Weave.lean ====
section
/-! DEFINITION. The Weave's commands: WV_MATMUL, WV_EDGE and the tiles that arrive for them, the DONE handshake, the check
column's pattern test and the disabling of columns (chapter 07). -/

namespace Sys2Proof.Machine

def bumpWeave (s : State) (sess : U32) (i n : Nat) : State := setCtx s sess fun c => { c with weaveCtr := bump c.weaveCtr i n }

/-- The unit of the Weave as a whole in fault codes (03 R138). -/
def weaveUnit : Nat := EngineInst.weave.unit

/-- Why a Weave command stops before its end: an error, or a check that fails twice and waits for its test (07 R385). -/
inductive WStop where
  | err (e : CmdErr)
  | test (h : Half)

/-- What a product has come to: the state, the command's record, the weight buffer with its tiles least recently used first
and those ever loaded, the accumulators a chain passes on, and the zero-tile bits of both halves. -/
structure Work where
  st : State
  run : WeaveRun
  buf : List (Nat × WTile) := []
  seen : List Nat := []
  accs : List U32 := []
  saturated : List Nat := []
  zWest : List Bool := []
  zEast : List Bool := []

abbrev WRes (α : Type) := Except (WStop × Work) α

def Work.lift {α : Type} (x : Work) (v : Except CmdErr α) : WRes α :=
  match v with
  | .ok a => .ok a
  | .error e => .error (.err e, x)

def Work.mem {α : Type} (x : Work) (v : Except MemErr α) : WRes α := x.lift (memTry weaveUnit v)

def Work.bump (x : Work) (sess : U32) (i n : Nat) : Work := { x with st := bumpWeave x.st sess i n }

def Work.flags (x : Work) (sess : U32) (f : Fl) : Work := { x with st := setFlags x.st sess engWeave f }

/-! ### Weight tiles (07 R353, R358-R361) -/

/-- Read and check a weight tile, named by its product coordinates (07 R360, R363). -/
def loadTile (s : State) (c : Context) (w : WStream) (kt nt mt : Nat) : Except CmdErr (WTile × Fl) :=
  let skt := if w.trans then nt else kt
  let snt := if w.trans then kt else nt
  let t := skt + w.storedKT * snt
  let bad : CmdErr := .code 0x0001 weaveUnit (mt % 65536 + 65536 * snt + 2 ^ 32 * skt)
  let rd := fun va n => memTry weaveUnit (readVa s c .rd va n)
  do
    let m ← if w.metaBase = 0 then pure (some (4, [])) else do
      let va := w.metaBase + t * (16 + 32 * w.kmax)
      let hdr ← rd va 16
      let cls := fieldAt hdr 0 1 % 8
      let k := if cls = 0 ∨ 4 ≤ cls then 0 else classKept cls
      let idx ← if k ≤ w.kmax then rd (va + 16) (32 * k) else pure []
      pure (checkMeta w.kmax skt snt hdr idx)
    let strays ← if w.strayBase = 0 then pure (some []) else do
      let blk ← rd (w.strayBase + 64 * t) 64
      pure (checkStrays blk)
    match m, strays with
    | some (cls, idx), some recs =>
      let n := packedBytes w.d.fmt (32 * classKept cls)
      let size := n + (if w.metaBase = 0 then 0 else 16 + (if cls = 4 then 0 else 32 * classKept cls)) + (if w.strayBase = 0 then 0 else 64)
      let ss := recs.map (strayOf w.trans)
      if cls = 0 then pure ({ cls := 0, cols := [], strays := ss, size := size }, 0)
      else
        let data ← rd (toAddr (w.d.base + skt * w.d.stride 2 + snt * w.d.stride 3)) n
        let scales ← if w.d.mx then (rd (w.d.scaleBase + 32 * t) 32).map some else pure none
        let u := tileColumns w.d.fmt cls idx data scales
        pure ({ cls := cls, cols := if w.trans then transpose32 u.1 else u.1, strays := ss, size := size }, u.2)
    | _, _ => .error bad

/-- Drop the least recently used tiles while the buffer holds more than 32 MiB (07 R353). -/
def evictTiles : Nat → List (Nat × WTile) → List (Nat × WTile)
  | 0, l => l
  | n + 1, l => if 32 * mib < sumNat (l.map fun p => p.2.size) ∧ 1 < l.length then evictTiles n (l.drop 1) else l

/-- A use of a tile: from the buffer, or loaded into it; counted by class (07 R353, Table 7.8). -/
def useTile (x : Work) (c : Context) (w : WStream) (kt nt mt : Nat) : WRes (WTile × Work) := do
  let key := kt + w.kt * nt
  let r ← match x.buf.find? fun p => p.1 == key with
    | some p => pure (p.2, { x with buf := (x.buf.filter fun q => q.1 != key) ++ [p] })
    | none => do
      let t ← x.lift (loadTile x.st c w kt nt mt)
      let b := x.buf ++ [(key, t.1)]
      let y := { x with buf := evictTiles b.length b, seen := if x.seen.contains key then x.seen else key :: x.seen }
      let z := (y.bump c.sess 5 1).flags c.sess t.2
      let skt := if w.trans then nt else kt
      let snt := if w.trans then kt else nt
      let z1 := { z with st := tally z.st c.sess 0 (toAddr (w.d.base + skt * w.d.stride 2 + snt * w.d.stride 3)) (packedBytes w.d.fmt (32 * classKept t.1.cls)) }
      pure (t.1, if x.seen.contains key then z1.bump c.sess 6 1 else z1)
  let t := r.1
  pure (t, r.2.bump c.sess (if t.cls = 0 then 4 else if t.cls = 4 ∨ w.trans = true then 2 else 3) 1)

/-- The tiles of a group for all K tiles, in the order of 07 R352: per N tile, its K tiles. -/
def groupTiles (x : Work) (c : Context) (w : WStream) (mt : Nat) (grp : List Nat) : WRes (List (Nat × List WTile) × Work) := do
  let order := (List.range w.kt).flatMap fun kt => grp.map fun nt => (kt, nt)
  let r ← order.foldlM (fun (acc : List (Nat × WTile) × Work) p => do
    let u ← useTile acc.2 c w p.1 p.2 mt
    pure (acc.1 ++ [(p.2, u.1)], u.2)) ([], x)
  pure (grp.map fun nt => (nt, (r.1.filter fun p => p.1 == nt).map fun p => p.2), r.2)

/-! ### Operand A (07 R347, R348) -/

/-- A row of A in range, zero beyond its count, over KT K tiles. -/
def aRow (s : State) (c : Context) (d : Desc) (m kt : Nat) : Except MemErr (List Num × Fl) := do
  let r ← readRow s c d [m, 0, 0, 0]
  pure (r.1 ++ List.replicate (32 * kt - d.count 0) Num.zero, arrayFl r.2)

/-- Count the HBM traffic of n elements of a row of a matrix from i0 on. -/
def tallyRow (s : State) (sess : U32) (i : Nat) (d : Desc) (m i0 n : Nat) : State :=
  let idx := [m, 0, 0, 0]
  if n = 0 then s
  else if d.stride 0 = 0 then tally s sess i (d.place i0 idx).1 (ceilDiv (fmtWidth d.fmt * n) 8 + (if d.fmt = 0xC then n / 32 * 7 else 0))
  else (List.range n).foldl (fun st k => let p := d.place (i0 + k) idx; tally st sess i p.1 p.2.1) s

/-- The rows of the panel of an M tile: row in the tile, and elements. -/
def aPanel (x : Work) (c : Context) (d : Desc) (mt kt : Nat) : WRes (List (Nat × List Num) × Work) :=
  ((List.range 32).filter fun r => decide (32 * mt + r < d.count 1)).foldlM (fun (acc : List (Nat × List Num) × Work) r => do
    let v ← acc.2.mem (aRow acc.2.st c d (32 * mt + r) kt)
    let y := acc.2.flags c.sess v.2
    pure (acc.1 ++ [(r, v.1)], { y with st := tallyRow y.st c.sess 0 d (32 * mt + r) 0 (d.count 0) })) ([], x)

/-! ### Command plans -/

/-- The aux record (07 Table 7.7). -/
structure Aux where
  stat : Nat := 0
  zmap : Nat := 0
  operand : Nat := 0
  split : Nat := 0
  pieces : Nat := 0
  sem : Nat := 0
  base : Nat := 0

/-- What both Weave commands take from their words. C_FMT, or the format of C_DESC. -/
structure WPlan where
  exit : Exit
  g : Nat
  promo : Nat
  aux : Aux
  out : Option Desc
  fmt : Nat
  pipe : Nat

/-- Read the aux record (07 R376, R378; 03 R135). -/
def readAux (s : State) (c : Context) (a : Nat) (ex : Exit) : Except CmdErr Aux := do
  if a = 0 then
    mustBe .weave (!ex.stats && !ex.zmap)
    pure {}
  else
    mustBe .weave (a % 64 == 0)
    let b ← memTry weaveUnit (readVa s c .rd a 64)
    let x : Aux := { stat := fieldAt b 0 6, zmap := fieldAt b 8 6, operand := fieldAt b 0x10 1 % 4, split := fieldAt b 0x10 1 / 4 % 4,
                     pieces := fieldAt b 0x12 2, sem := fieldAt b 0x14 1 % 64, base := fieldAt b 0x18 4 }
    mustBe .weave (x.operand != 3 && x.split != 3)
    mustBe .weave (x.operand == 0 || (decide (2 ≤ x.pieces ∧ x.pieces ≤ 4096) && decide (x.sem < 48) &&
      (x.split == 2 || (x.operand == 1 && x.split == 0) || (x.operand == 2 && x.split == 1))))
    pure x

/-- The scales of a command, read once (04 R208, R212). -/
def readScales (s : State) (c : Context) (a : Nat) : Except CmdErr ((U32 × U32 × U32) × Fl) := do
  if a = 0 then pure ((0x3F800000, 0x3F800000, 0x3F800000), 0)
  else
    mustBe .weave (a % 32 == 0)
    let b ← memTry weaveUnit (readVa s c .rd a 12)
    let f := fun off => BitVec.ofNat 32 (fieldAt b off 4)
    pure ((f 0, f 4, f 8), (fp32 (f 0)).nf ||| (fp32 (f 4)).nf ||| (fp32 (f 8)).nf)

/-- The checks common to WV_MATMUL and WV_EDGE (07 R348, R351, R366, R372, R375, R376, R381). -/
def weavePlan (s : State) (c : Context) (r : Running) (group promo pipe : Nat) : Except CmdErr WPlan := do
  let w := r.word
  let ex := exitOf w
  if s.weave.outOfService then .error (.hw 0xFFFF) else .ok ()
  mustBe .weave (group != 3 && !(ex.strays && !ex.scale))
  let aux ← readAux s c (fld w 0x30 47 0) ex
  if pipe = 0 then
    match r.desc 0x20 with
    | none => .error (errBad .weave)
    | some d =>
      mustBe .weave (d.ndim == 2 && d.tile0 == 32 && d.tile1 == 32 && operandFmt d.fmt)
      pure { exit := ex, g := groupSize group, promo := promoPeriod promo, aux := aux, out := some d, fmt := d.fmt, pipe := 0 }
  else
    mustBe .weave (operandFmt (fld w 0x20 55 52))
    pure { exit := ex, g := groupSize group, promo := promoPeriod promo, aux := aux, out := none, fmt := fld w 0x20 55 52, pipe := pipe }

/-- N of a product (07 R351). -/
def WPlan.n (p : WPlan) (nt : Nat) : Nat := match p.out with | some d => d.count 0 | none => 32 * nt

def WPlan.fits (p : WPlan) (nt : Nat) : Bool :=
  (match p.out with | some d => ceilDiv (d.count 0) 32 == nt | none => true) && (!p.exit.stats || decide (p.n nt ≤ 512))

/-- The raw stream descriptor of a field, as read at the fetch. -/
def Running.raw (r : Running) (off : Nat) : Option (BitVec 512) := (r.descs.find? fun p => p.1 == off).map fun p => p.2

/-- The weight extension beside a descriptor (07 R350). -/
def readExt (s : State) (c : Context) (va : Nat) : Except CmdErr (BitVec 512) :=
  (memTry weaveUnit (readVa s c .rd (va + 64) 64)).map wordOf

/-! ### The exit path of one output tile (07 R371-R375) -/

/-- A row of an output tile: its place in the tile, the row that statistics and memory name it by, its accumulators, and
for each column the strays that meet it. -/
structure OutRow where
  r : Nat
  id : Nat
  accs : List Num
  strays : Option (List (List (Num × Num)))

/-- Stages 2 and 3 of a row. -/
def exitRow (p : WPlan) (run : WeaveRun) (sb : U32) (ncols : Nat) (o : OutRow) : List FV :=
  (List.range ncols).map fun n =>
    let a := scaleStage p.exit.scale run.sa sb (nthD Num.zero o.accs n)
    match o.strays with
    | some l => strayStage run.sa (nthD [] l n) a
    | none => a

/-- The rounding of an element with a stream and index (04 R214, 05 R270). -/
def exitRound (s : State) (ref : CmdRef) (p : WPlan) (base e : Nat) : Round :=
  if p.exit.stoch then
    match findProgress s ref with
    | some q => .stochastic (({ key := q.plaitKey, bases := q.bases } : PlaitState).dense base 0 e).toNat
    | none => .nearest
  else .nearest

/-- Stage 6 for a row bound for a pipe: its packed bytes (04 R213). -/
def packRow (s : State) (p : WPlan) (run : WeaveRun) (seq r : Nat) (vs : List U32) : List Byte × Fl × Nat :=
  if p.fmt = 0 ∧ p.exit.conv = false then (wordsBytes vs, 0, 0)
  else
    let q := if p.exit.conv then fp32 run.qmul else Num.ofNat 1
    let ks := ((List.range vs.length).zip vs).map fun v => convert p.fmt (exitRound s run.ref p 0 (seq * 65536 + 32 * r + v.1)) false q (fp32 v.2)
    (packCodes p.fmt (ks.map fun k => k.code), ks.foldl (fun a k => a ||| k.fl) 0, (ks.filter fun k => k.sat).length)

/-- Stage 6 for a row bound for memory. -/
def storeRow (s : State) (c : Context) (p : WPlan) (run : WeaveRun) (d : Desc) (row i0 : Nat) (vs : List U32) : Except MemErr Stored :=
  let q := if p.exit.conv then fp32 run.qmul else Num.ofNat 1
  let xs := ((List.range vs.length).zip vs).map fun v => (fp32 v.2, exitRound s run.ref p d.base (row * d.count 0 + i0 + v.1))
  (storeRun s c .wr d false q [row, 0, 0, 0] (vs.length + 1) i0 xs).map fun r =>
    if d.fmt = 0 ∧ p.exit.conv = false then { r with fl := 0, sat := 0 } else r

/-- Running row statistics by row. -/
abbrev Stats := List (Nat × (U32 × U32))

def stepStats (st : Stats) (id : Nat) (vs : List U32) : Stats × Fl :=
  let r := statFold vs ((st.find? fun p => p.1 == id).map fun p => p.2)
  match r.1 with
  | none => (st, r.2)
  | some v => ((st.filter fun p => p.1 != id) ++ [(id, v)], r.2)

/-- Write the statistics of rows (07 R373). -/
def writeStats (x : Work) (c : Context) (base : Nat) (st : Stats) : WRes Work :=
  st.foldlM (fun (x : Work) p => do
    let s1 ← x.mem (writeVa x.st c .wr (base + 8 * p.1) (leBytes 4 p.2.1.toNat ++ leBytes 4 p.2.2.toNat))
    pure { x with st := tally s1 c.sess 1 (base + 8 * p.1) 8 }) x

/-- Merge a converted row into the command's record of its scale (04 R209). -/
def noteRow (p : WPlan) (vs : List U32) (sat : Nat) (run : WeaveRun) : WeaveRun :=
  if p.exit.conv then { run with amax := amaxFold vs run.amax, sat := run.sat + sat } else run

/-- The exit path of an output tile for rows in range. tile gives the pipe tile to send, less its rows. -/
def exitTile (x : Work) (c : Context) (p : WPlan) (sb : U32) (nt n : Nat) (rows : List OutRow) (st : Stats) (tile : Option Tile) :
    WRes (Work × Stats) := do
  let ncols := Nat.min 32 (n - 32 * nt)
  let vals := rows.map fun o => (o, exitRow p x.run sb ncols o)
  let x1 := x.flags c.sess (vals.foldl (fun a v => v.2.foldl (fun a q => a ||| q.2) a) 0)
  let words := vals.map fun v => (v.1, v.2.map fun q => q.1)
  let sts := if p.exit.stats then
      words.foldl (fun (a : Stats × Fl) v => let r := stepStats a.1 v.1.id v.2; (r.1, a.2 ||| r.2)) (st, 0)
    else (st, 0)
  let zero := fun (east : Bool) => words.all fun v => (decide (16 ≤ v.1.r) != east) || v.2.all fun q => (fp32 q).isZero
  let x2 := { x1.flags c.sess sts.2 with zWest := x1.zWest ++ [zero false], zEast := x1.zEast ++ [zero true] }
  match p.out, tile with
  | some d, _ =>
    let y ← words.foldlM (fun (x : Work) v => do
      let r ← x.mem (storeRow x.st c p x.run d v.1.id (32 * nt) v.2)
      let z := { x with st := tallyRow r.st c.sess 1 d v.1.id (32 * nt) ncols, run := noteRow p v.2 r.sat x.run }
      pure (z.flags c.sess r.fl)) x2
    pure (y, sts.1)
  | none, some t =>
    let packed := words.map fun v => (v.1.r, v.2, packRow x2.st p x2.run t.seq v.1.r v.2)
    let rows' := ((List.range t.rows.length).zip t.rows).map fun q =>
      match packed.find? fun v => v.1 == q.1 with
      | some v => { q.2 with data := some v.2.2.1 }
      | none => { q.2 with data := some [] }
    let u := freshUid x2.st
    let y := { x2 with st := u.2, run := packed.foldl (fun (r : WeaveRun) (v : Nat × List U32 × List Byte × Fl × Nat) => noteRow p v.2.1 v.2.2.2.2 r) x2.run }
    let z := y.flags c.sess (packed.foldl (fun (a : Fl) (v : Nat × List U32 × List Byte × Fl × Nat) => a ||| v.2.2.2.1) 0)
    pure ({ z with st := sendTile z.st c.sess p.pipe { t with uid := u.1, rows := rows', colBase := 32 * nt, rowElems := n, fmt := p.fmt, raw := false } }, sts.1)
  | none, none => pure (x2, sts.1)

/-! ### A group of output tiles (07 R352, R384-R386) -/

/-- Where a product stands: its panel, the accumulators and checks carried in, and what the commands before it in the chain
add to strays and checks. -/
structure Group16 where
  pair : Pair
  w : WStream
  panel : List (Nat × List Num)
  carried : Nat → Nat → Nat → Num
  carriedSat : Nat → Nat → Nat → Bool
  earlier : List (List (Nat × List Num) × (Nat → WRes (List WTile)) × Bool)

/-- The check column of a half may be used: its spare is free (07 R386). -/
def checkFree (s : State) : Half → Bool
  | .west => s.weave.west.spare == 0x3F
  | .east => s.weave.east.spare == 0x3F

def halfOfRow (r : Nat) : Half := if r < 16 then .west else .east

/-- One output tile computed: by row, the 32 accumulators, whether one saturated, and the flags. -/
def computeTile (k : Group16) (g promo nt : Nat) (tiles : List WTile) : List (Nat × List Num × Bool) × Fl :=
  let rows := k.panel.map fun a =>
    let es := (List.range 32).map fun n =>
      element k.pair g promo (tiles.map fun t => if t.cls = 0 then none else some (nthD [] t.cols n)) a.2 (k.carried nt a.1 n)
    let sat := k.pair.acc == .int32 && ((es.any fun e => e.2 &&& flOF != 0) || (List.range 32).any fun n => k.carriedSat nt a.1 n)
    ((a.1, es.map fun e => e.1, sat), es.foldl (fun f e => f ||| e.2) 0)
  (rows.map fun r => r.1, rows.foldl (fun f r => f ||| r.2) 0)

/-- The outcome of the row checks of a tile: passed, skipped, failed in West and in East (07 R384). -/
def checkTile (s : State) (k : Group16) (g : Nat) (tiles : List WTile) (before : List (List (Nat × List Num) × List WTile))
    (rows : List (Nat × List Num × Bool)) : Nat × Nat × Nat × Nat :=
  rows.foldl (fun acc r =>
    if checkFree s (halfOfRow r.1) = false then acc
    else
      let row := fun (l : List (Nat × List Num)) => match l.find? fun a => a.1 == r.1 with | some a => a.2 | none => []
      let cm0 := before.foldl (fun cm b => rowCheck k.pair g b.2 (row b.1) cm) (Num.zero, Num.zero)
      match compareRow k.pair r.2.1 r.2.2 (rowCheck k.pair g tiles (row k.panel) cm0) with
      | none => (acc.1, acc.2.1 + 1, acc.2.2.1, acc.2.2.2)
      | some true => (acc.1 + 1, acc.2.1, acc.2.2.1, acc.2.2.2)
      | some false => if r.1 < 16 then (acc.1, acc.2.1, acc.2.2.1 + 1, acc.2.2.2) else (acc.1, acc.2.1, acc.2.2.1, acc.2.2.2 + 1)) (0, 0, 0, 0)

/-- The array cycles of a tile at the rate of its pair with the columns left (07 R362, R364, R382). -/
def tileCycles (s : State) (p : Pair) (trans : Bool) (tiles : List WTile) : Nat :=
  ceilDiv (sumNat (tiles.map fun t => tileCost8 trans t.cls) * 32) (p.rate8 * (32 - Nat.min 31 (disabledColumns s)))

/-- The strays that meet a row and each of its columns, over every command of the chain, when any has stray blocks (07 R372). -/
def rowStrays (on : Bool) (members : List (List (Nat × List Num) × List WTile × Bool)) (r : Nat) : Option (List (List (Num × Num))) :=
  if on && members.any fun m => m.2.2 then
    some ((List.range 32).map fun n => members.flatMap fun m =>
      let a := match m.1.find? fun a => a.1 == r with | some a => a.2 | none => []
      ((List.range m.2.1.length).zip m.2.1).flatMap fun t =>
        (t.2.strays.filter fun q => q.2.1 == n).map fun q => (nthD Num.zero a (32 * t.1 + q.1), q.2.2))
  else none

/-- A check mismatch that a recomputation clears counts for the half (13 Table 13.2 row 6). -/
def clearedCheck (s : State) (h : Half) : State := bucketEvent s 6 (BitVec.ofNat 16 h.num) 0 0

/-- One group of up to 16 output tiles: K-steps, checks, and the exit path in ascending N tile unless the command chains on.
outcome is what the check column met while the group ran; id names a row, tile gives a tile to send. -/
def runGroup (x : Work) (c : Context) (p : WPlan) (k : Group16) (chain : Bool) (sb : U32) (mt n : Nat) (grp : List Nat)
    (outcome : CheckOutcome) (id : Nat → Nat) (tile : Nat → Option Tile) : WRes Work := do
  let tl ← groupTiles x c k.w mt grp
  let res := tl.1.map fun t => (t.1, t.2, computeTile k p.g p.promo t.1 t.2)
  let cycles := sumNat (tl.1.map fun t => tileCycles x.st k.pair k.w.trans t.2)
  let busy := !k.panel.isEmpty
  let x1 := (tl.2.bump c.sess 0 (if busy then cycles else 0)).flags c.sess (res.foldl (fun f t => f ||| t.2.2.2) 0)
  if chain then
    let accs := res.flatMap fun t => t.2.2.1.flatMap fun r => r.2.1.map fun a => (32 * k.w.nt * (32 * mt + r.1) + 32 * t.1, accWord k.pair.acc a)
    let sats := res.flatMap fun t => (t.2.2.1.filter fun r => r.2.2).map fun r => 32 * k.w.nt * (32 * mt + r.1) + 32 * t.1
    pure { x1 with accs := x1.accs ++ accs.map (fun a => a.2), saturated := x1.saturated ++ sats }
  else
    let earlier := fun (nt : Nat) => k.earlier.foldlM (fun (l : List (List (Nat × List Num) × List WTile × Bool)) m => do
      let ts ← m.2.1 nt
      pure (l ++ [(m.1, ts, m.2.2)])) []
    let checks ← res.foldlM (fun (a : Nat × Nat × Nat × Nat) t => do
      if p.exit.check then
        let b ← earlier t.1
        let q := checkTile x1.st k p.g t.2.1 (b.map fun m => (m.1, m.2.1)) t.2.2.1
        pure (a.1 + q.1, a.2.1 + q.2.1, a.2.2.1 + q.2.2.1, a.2.2.2 + q.2.2.2)
      else pure a) (0, 0, 0, 0)
    let lost := p.exit.check && ((k.panel.any fun r => decide (r.1 < 16)) && !checkFree x1.st .west ||
      (k.panel.any fun r => decide (16 ≤ r.1)) && !checkFree x1.st .east)
    let x2 := { x1 with run := { x1.run with unavailable := x1.run.unavailable || lost } }
    let hit := fun (h : Half) => p.exit.check && checkFree x1.st h && k.panel.any fun r => halfOfRow r.1 == h
    let again := fun (y : Work) (m : Nat) => (y.bump c.sess 11 m).bump c.sess 0 cycles
    let x3 ←
      if 0 < checks.2.2.1 then .error (.test .west, again x2 checks.2.2.1)
      else if 0 < checks.2.2.2 then .error (.test .east, again x2 checks.2.2.2)
      else match outcome with
        | .clean => pure x2
        | .cleared h _ => if hit h then pure (let y := again x2 1; { y with st := clearedCheck y.st h }) else pure x2
        | .lasting h _ => if hit h then .error (.test h, again x2 1) else pure x2
    let x4 := (x3.bump c.sess 10 checks.1).bump c.sess 12 checks.2.1
    let z ← res.foldlM (fun (a : Work × Stats) t => do
      let before ← if p.exit.strays then earlier t.1 else pure []
      let members := before ++ [(k.panel, t.2.1, k.w.strayBase != 0)]
      let count := if p.exit.strays ∧ busy then sumNat ((members.filter fun m => m.2.2).map fun m => sumNat (m.2.1.map fun q => q.strays.length)) else 0
      let rows := t.2.2.1.map fun r => ({ r := r.1, id := id r.1, accs := r.2.1, strays := rowStrays p.exit.strays members r.1 } : OutRow)
      exitTile ((a.1.bump c.sess 1 (2 * (1 + count))).bump c.sess 7 count) c p sb t.1 n rows a.2 (tile t.1)) (x4, [])
    if p.exit.stats then writeStats z.1 c p.aux.stat z.2 else pure z.1

/-! ### WV_MATMUL (07 R351-R354, R376-R379) -/

/-- The chain that a command continues: its task's accumulators (07 R354). -/
def chainOf (s : State) (ref : CmdRef) : Option Chain := s.weave.chains.find? fun ch => ch.ref.list == ref.list && ch.ref.task == ref.task

def dropChain (s : State) (ref : CmdRef) : State :=
  { s with weave := { s.weave with chains := s.weave.chains.filter fun ch => !(ch.ref.list == ref.list && ch.ref.task == ref.task) } }

/-- Every piece of the piece operand is present (07 R378). A product is computed when its last piece has come. -/
def piecesHere (c : Context) (a : Aux) : Bool := a.operand == 0 || semReached (nthD 0 c.sems a.sem).toNat ((a.base + a.pieces) % 2 ^ 32)

/-- The extent in tiles along the split is a multiple of the pieces (07 R378). -/
def piecesFit (a : Aux) (mt nt kt : Nat) : Bool := a.operand == 0 || nthD 1 [mt, nt, kt] a.split % Nat.max 1 a.pieces == 0

def newRun (r : Running) (sc : U32 × U32 × U32) (rels : List (Nat × BitVec 512 × BitVec 512)) : WeaveRun :=
  { ref := r.ref, sa := sc.1, sb := sc.2.1, qmul := sc.2.2, amax := 0, sat := 0, rels := rels, unavailable := false, testing := false }

/-- A Weave command is under way: its record is kept, and neither half has finished it (07 R26). -/
def beginRun (s : State) (r : Running) (run : WeaveRun) : State :=
  markStarted { s with weave := { s.weave with runs := s.weave.runs ++ [run],
                                               west := { s.weave.west with doneSent := false },
                                               east := { s.weave.east with doneSent := false } } } .weave r.ref

def setRun (s : State) (ref : CmdRef) (f : WeaveRun → WeaveRun) : State :=
  { s with weave := { s.weave with runs := mapIf (fun x => x.ref == ref) f s.weave.runs } }

/-- The tags of a tile of a product whose A comes from memory (07 R377). -/
def productTile (mt nt ntCount rows : Nat) : Tile :=
  { uid := 0, chunk := mt, seq := nt, last := nt + 1 == ntCount, split := false, relation := 0, attempt := 0, colBase := 32 * nt,
    rowElems := 0, splitSeq := 0, destFirst := 32 * mt, destCount := rows, splitCount := 1, fmt := 0, raw := false,
    rows := (List.range 32).map fun r =>
      let v : U32 := if r < rows then BitVec.ofNat 32 (32 * mt + r) else 0xFFFFFFFF
      { dest := v, edge := v, data := some [] } }

/-- The effect of a stop (07 R385): the list ends, or the command waits for the pattern test of its half. -/
def weaveStop (e : WStop) (x : Work) (ref : CmdRef) : State :=
  let s := setRun x.st ref fun _ => x.run
  match e with
  | .err e => faultCommand s ref e
  | .test h => setRun { s with weave := { s.weave with pendingTest := s.weave.pendingTest ++ [(h, some ref)] } } ref fun y => { y with testing := true }

/-- The M tiles and groups of a product in the order of 07 R352. -/
def productGroups (mt nt : Nat) : List (Nat × List Nat) :=
  (List.range mt).flatMap fun m => (List.range (ceilDiv nt 16)).map fun g => (m, ((List.range nt).drop (16 * g)).take 16)

/-- The row of the check outcome lies in an M tile. -/
def outcomeIn (o : CheckOutcome) (mt : Nat) : CheckOutcome :=
  match o with
  | .clean => .clean
  | .cleared h r => if r / 32 = mt then .cleared h r else .clean
  | .lasting h r => if r / 32 = mt then .lasting h r else .clean

/-- The zero-tile bitmap of a half (07 R374). -/
def zbytes (zs : List Bool) : List Byte :=
  leBytes (ceilDiv zs.length 8) (zs.foldr (fun b acc => (if b then 1 else 0) + 2 * acc) 0)

/-- Run a whole product: A from memory. -/
def runProduct (x0 : Work) (c : Context) (r : Running) (p : WPlan) (ad : Desc) (w : WStream) (chain : Bool) (prior : Option Chain)
    (outcome : CheckOutcome) : WRes Work := do
  let m := ad.count 1
  let mts := ceilDiv m 32
  let n := p.n w.nt
  let pair := pairOf ad.fmt ad.mx w.d.fmt w.d.mx
  let sb := if w.sb = 0 then x0.run.sb else w.sb
  let at_ := fun (mt nt r n : Nat) => 32 * w.nt * (32 * mt + r) + 32 * nt + n
  let x ← (productGroups mts w.nt).foldlM (fun (x : Work) q => do
    let mt := q.1
    let pn ← aPanel x c ad mt w.kt
    let earlier ← match prior with
      | none => pure []
      | some ch => ch.operands.foldlM (fun (l : List (List (Nat × List Num) × (Nat → WRes (List WTile)) × Bool)) o => do
          let w' := wstream o.2.1 o.2.2 ch.trans
          let pa ← if p.exit.strays || p.exit.check then (aPanel pn.2 c (decodeDesc o.1) mt w'.kt).map fun y => y.1 else pure []
          let tiles := fun (nt : Nat) => (List.range w'.kt).foldlM (fun (l : List WTile) kt => do
            let t ← pn.2.lift (loadTile pn.2.st c w' kt nt mt)
            pure (l ++ [t.1])) []
          pure (l ++ [(pa, tiles, w'.strayBase != 0)])) []
    let k : Group16 :=
      { pair := pair, w := w, panel := pn.1
        carried := fun nt r n => match prior with | some ch => accNum pair.acc (nthD 0 ch.accs (at_ mt nt r n)) | none => Num.zero
        carriedSat := fun nt r _ => match prior with | some ch => ch.saturated.contains (at_ mt nt r 0) | none => false
        earlier := earlier }
    let rows := Nat.min 32 (m - 32 * mt)
    let first := match q.2 with | nt :: _ => nt | [] => 0
    let y ← runGroup pn.2 c p k chain sb mt n q.2 (if first = 0 then outcomeIn outcome mt else .clean) (fun r => 32 * mt + r)
      (fun nt => if p.pipe = 0 then none else some (productTile mt nt w.nt rows))
    pure (if chain then y else { y with st := unitsDone y.st r.ref (q.2.map fun nt => mt * w.nt + nt) })) x0
  if p.exit.zmap ∧ chain = false then
    let t := mts * w.nt
    let s1 ← x.mem (writeVa x.st c .wr p.aux.zmap (zbytes x.zWest))
    let s2 ← x.mem (writeVa s1 c .wr (p.aux.zmap + 32 * ceilDiv t 256) (zbytes x.zEast))
    pure { x with st := s2 }
  else pure x

/-- The accumulators of a chain in the order of their elements: groups give them tile by tile (07 R354). -/
def orderAccs (m nt : Nat) (accs : List U32) : List U32 :=
  let place := (productGroups (ceilDiv m 32) nt).flatMap fun q => q.2.flatMap fun t =>
    ((List.range 32).filter fun r => decide (32 * q.1 + r < m)).flatMap fun r => (List.range 32).map fun k => 32 * nt * (32 * q.1 + r) + 32 * t + k
  (sortBy (fun a b => decide (a.1 < b.1)) (place.zip accs)).map fun p => p.2

/-- WV_MATMUL with A in memory (07 R348-R354, R378). -/
def matmulMemory (s : State) (c : Context) (r : Running) (p : WPlan) (ra rb ext : BitVec 512) (sc : (U32 × U32 × U32) × Fl)
    (outcome : CheckOutcome) : Except CmdErr State := do
  let w := r.word
  let ad := decodeDesc ra
  let ws := wstream rb ext (fld w 0x18 48 48 == 1)
  let chain := cmdChain w
  let prior := chainOf s r.ref
  mustBe .weave (ad.ndim == 2 && ad.tile0 == 32 && ad.tile1 == 32 && operandFmt ad.fmt && ceilDiv (ad.count 0) 32 == ws.kt &&
    decide (packedBytes ad.fmt (alignUp (ad.count 0) 32) ≤ 65536))
  mustBe .weave (match p.out with | some d => d.count 1 == ad.count 1 | none => true)
  mustBe .weave (piecesFit p.aux (ceilDiv (ad.count 1) 32) ws.nt ws.kt)
  let pair := pairOf ad.fmt ad.mx ws.d.fmt ws.d.mx
  let group := fld w 0x18 50 49
  let promo := fld w 0x18 52 51
  mustBe .weave (match prior with
    | some ch => ch.m == ad.count 1 && ch.n == p.n ws.nt && ch.accFmt == pair.acc.code && ch.group == group && ch.promo == promo && ch.trans == ws.trans
    | none => true)
  if piecesHere c p.aux = false then .ok s
  else
    let s1 := dropChain (beginRun (setFlags s r.sess engWeave sc.2) r (newRun r sc.1 [])) r.ref
    match s1.weave.runs.find? fun x => x.ref == r.ref with
    | none => .ok s1
    | some run =>
      match runProduct { st := s1, run := run } c r p ad ws chain prior outcome with
      | .error (e, x) => .ok (weaveStop e x r.ref)
      | .ok x =>
        let s2 := setRun x.st r.ref fun _ => x.run
        if chain then
          let ops := (match prior with | some ch => ch.operands | none => []) ++ [(ra, rb, ext)]
          let ch : Chain := { ref := r.ref, m := ad.count 1, n := p.n ws.nt, accFmt := pair.acc.code, group := group, promo := promo, trans := ws.trans,
                              accs := orderAccs (ad.count 1) ws.nt x.accs, saturated := x.saturated, operands := ops }
          .ok { s2 with weave := { s2.weave with chains := s2.weave.chains ++ [ch] } }
        else .ok s2

/-- WV_MATMUL starts: with A from memory it runs at once and waits for the handshake; with A from a pipe it takes its tiles
as they arrive (07 R351, R354, R377). -/
def startMatmul (outcome : CheckOutcome) (s : State) (c : Context) (r : Running) : Except CmdErr State := do
  let w := r.word
  let p ← weavePlan s c r (fld w 0x18 50 49) (fld w 0x18 52 51) (fld w 0x20 50 48)
  let sc ← readScales s c (fld w 0x28 47 0)
  match r.raw 0x18 with
  | none => .error (errBad .weave)
  | some rb =>
    let ext ← readExt s c (fld w 0x18 47 0)
    let ws := wstream rb ext (fld w 0x18 48 48 == 1)
    mustBe .weave (ws.ok && p.fits ws.nt)
    if fld w 0x10 50 48 = 0 then
      match r.raw 0x10 with
      | some ra => matmulMemory s c r p ra rb ext sc outcome
      | none => .error (errBad .weave)
    else
      mustBe .weave (fld w 0x10 47 0 == 0 && !cmdChain w && (chainOf s r.ref).isNone && !p.exit.zmap && decide (p.n ws.nt ≤ 1024))
      .ok (beginRun (setFlags s r.sess engWeave sc.2) r (newRun r sc.1 [(256, rb, ext)]))

def execWvMatmul (check : CheckOutcome) (s : State) : Host.Outcome State Fault Refusal :=
  .next (withRunning s .weave (fun w => cmdOpcode w == 0x10) (startMatmul check))

/-! ### WV_EDGE (07 R365-R370) -/

/-- The entries of a weight table and the descriptor pairs they name, read and checked (07 R365, R350, R351). -/
def readRelations (s : State) (c : Context) (trans : Bool) (tab : List Byte) : List Nat → Except CmdErr (List (Nat × BitVec 512 × BitVec 512))
  | [] => .ok []
  | j :: rest => do
    let a := fieldAt tab (8 * j) 6
    if a = 0 then readRelations s c trans tab rest
    else
      mustBe .weave (a % 64 == 0)
      let d ← memTry weaveUnit (readVa s c .rd a 64)
      let ext ← readExt s c a
      mustBe .weave ((decodeDesc (wordOf d)).ok && (wstream (wordOf d) ext trans).ok)
      let t ← readRelations s c trans tab rest
      pure ((j, wordOf d, ext) :: t)

def startEdge (s : State) (c : Context) (r : Running) : Except CmdErr State := do
  let w := r.word
  let trans := fld w 0x18 48 48 == 1
  mustBe .weave (!cmdChain w && (chainOf s r.ref).isNone && decide (1 ≤ fld w 0x10 2 0) && fld w 0x18 47 0 % 64 == 0)
  let p ← weavePlan s c r (fld w 0x18 50 49) (fld w 0x18 52 51) (fld w 0x10 6 4)
  mustBe .weave (!p.exit.zmap)
  let sc ← readScales s c (fld w 0x28 47 0)
  let tab ← memTry weaveUnit (readVa s c .rd (fld w 0x18 47 0) 2048)
  let rels ← readRelations s c trans tab (List.range 256)
  let nts := rels.map fun x => (wstream x.2.1 x.2.2 trans).nt
  mustBe .weave (nts.all fun n => n == nthD 0 nts 0 && p.fits n && decide (p.n n ≤ 1024))
  .ok (beginRun (setFlags s r.sess engWeave sc.2) r (newRun r sc.1 rels))

def execWvEdge (s : State) : Host.Outcome State Fault Refusal :=
  .next (withRunning s .weave (fun w => cmdOpcode w == 0x11) startEdge)

/-- The output pipe, group and promotion of an edge-mode command. -/
def edgePlan (s : State) (c : Context) (r : Running) : Except CmdErr WPlan :=
  let w := r.word
  weavePlan s c r (fld w 0x18 50 49) (fld w 0x18 52 51) (if cmdOpcode w = 0x11 then fld w 0x10 6 4 else fld w 0x20 50 48)

/-- The unmasked rows of an edge tile as the A panel, with the flags of reading them. -/
def edgePanel (fmt k : Nat) (t : Tile) : List (Nat × List Num) × Fl :=
  let rows := ((List.range t.rows.length).zip t.rows).filter fun p => p.2.dest != 0xFFFFFFFF
  rows.foldl (fun acc p => let u := unpack fmt k (p.2.data.getD []); (acc.1 ++ [(p.1, u.1)], acc.2 ||| arrayFl u.2)) ([], 0)

/-- An edge tile is checked against its relation and computed (07 R367, R369, R370). -/
def edgeTile (s : State) (c : Context) (r : Running) (run : WeaveRun) (t : Tile) (outcome : CheckOutcome) : Except CmdErr State := do
  let p ← edgePlan s c r
  let rel := run.rels.find? fun x => x.1 == t.relation || x.1 == 256
  match rel with
  | none => .error (errBad .weave)
  | some x =>
    let ws := wstream x.2.1 x.2.2 (fld r.word 0x18 48 48 == 1)
    let k := 32 * ws.kt
    let live := t.rows.filter fun q => q.dest != 0xFFFFFFFF
    mustBe .weave (operandFmt ws.aFmt && (t.raw || t.fmt == ws.aFmt) &&
      live.all fun q => (q.data.getD []).length == packedBytes ws.aFmt k)
    mustBe .weave (match p.out with
      | some d => live.all fun q => decide (q.edge.toNat < d.count 1)
      | none => true)
    let pn := edgePanel ws.aFmt k t
    let n := p.n ws.nt
    let x0 : Work := { st := s, run := run }
    let x1 := ((x0.bump r.sess 8 1).bump r.sess 9 (32 - live.length)).flags r.sess pn.2
    let kk : Group16 := { pair := pairOf ws.aFmt false ws.d.fmt ws.d.mx, w := ws, panel := pn.1, carried := fun _ _ _ => Num.zero,
                          carriedSat := fun _ _ _ => false, earlier := [] }
    let sb := if ws.sb = 0 then run.sb else ws.sb
    let id := fun (r : Nat) => match t.rows[r]? with | some q => q.edge.toNat | none => 0
    let tile := fun (_ : Nat) => if p.pipe = 0 then none else some t
    let grps := (List.range (ceilDiv ws.nt 16)).map fun g => ((List.range ws.nt).drop (16 * g)).take 16
    let res : WRes Work :=
      if pn.1.isEmpty then
        (List.range ws.nt).foldlM (fun (x : Work) nt => (exitTile (x.bump r.sess 1 2) c p sb nt n [] [] (tile nt)).map fun y => y.1) x1
      else grps.foldlM (fun (x : Work) g =>
        runGroup x c p kk false sb 0xFFFF n g (match g with | 0 :: _ => outcome | _ => .clean) id tile) x1
    match res with
    | .error (e, y) => .ok (weaveStop e y r.ref)
    | .ok y =>
      let s1 := setRun y.st r.ref fun _ => y.run
      match findProgress s1 r.ref with
      | some q =>
        let u := q.units.length
        .ok (unitsDone s1 r.ref (if cmdOpcode r.word = 0x11 then [u] else (List.range ws.nt).map fun i => u + i))
      | none => .ok s1

/-- The edge-mode command of the Weave under way. -/
def edgeRunning (s : State) : Option Running :=
  (findEngine s .weave).running.find? fun r => r.started && inPipe r.word != 0 && (cmdOpcode r.word == 0x10 || cmdOpcode r.word == 0x11)

/-- EDGE_TILE_ARRIVAL: the next tile of the input pipe, when the output's consumer has fired (03 R136). -/
def edgeArrival (check : CheckOutcome) (s : State) : State :=
  match edgeRunning s with
  | none => s
  | some r =>
    match findCtx s r.sess, s.weave.runs.find? fun x => x.ref == r.ref with
    | some c, some run =>
      if run.testing || (outPipe r.word != 0 && !pipeReady c (outPipe r.word)) then s
      else
        match takeTile s c (inPipe r.word) with
        | none => s
        | some (t, s1) =>
          match findCtx s1 r.sess with
          | none => s1
          | some c1 =>
            match edgeTile s1 c1 r run t check with
            | .error e => faultCommand s1 r.ref e
            | .ok s2 => armWaits s2
    | _, _ => s

def execEdgeTileArrival (check : CheckOutcome) (s : State) : Host.Outcome State Fault Refusal := .next (edgeArrival check s)

/-! ### The handshake (01 R26, R28; 04 R209, R210) -/

/-- Merge the command's maximum and count into its scale record (04 R210). -/
def mergeScale (s : State) (c : Context) (a : Nat) (amax : U32) (sat : Nat) : Except MemErr State := do
  let b ← readVa s c .rd a 32
  let old := BitVec.ofNat 32 (fieldAt b 0xC 4)
  let s1 ← writeVa s c .wr (a + 0xC) (leBytes 4 (if (fp32 old).lt (fp32 amax) then amax else old).toNat)
  writeVa s1 c .wr (a + 0x10) (leBytes 4 (Nat.min 0xFFFFFFFF (fieldAt b 0x10 4 + sat)))

/-- Both halves have sent DONE: what the command merges is merged, and it completes. -/
def weaveComplete (s : State) (c : Context) (r : Running) (run : WeaveRun) : State :=
  let a := fld r.word 0x28 47 0
  let ex := exitOf r.word
  let merged := if ex.conv ∧ a ≠ 0 ∧ cmdChain r.word = false then mergeScale s c a run.amax run.sat else .ok s
  match merged with
  | .error e => faultCommand s r.ref (errMem weaveUnit e)
  | .ok s1 =>
    let s2 := if run.unavailable then bumpWeave s1 r.sess 13 1 else s1
    let s3 := shareDone s2 .weave r.ref
    armWaits { s3 with weave := { s3.weave with commandNumber := s3.weave.commandNumber + 1,
                                                west := { s3.weave.west with doneSent := false },
                                                east := { s3.weave.east with doneSent := false } } }

/-- A half finishes its rows of the command and sends DONE to the other (01 R26). A piped command is finished when its input
has ended (03 R717). -/
def weaveDone (s : State) (h : Half) : State :=
  match (findEngine s .weave).running.find? fun r => r.started && (cmdOpcode r.word == 0x10 || cmdOpcode r.word == 0x11) with
  | none => s
  | some r =>
    match findCtx s r.sess, s.weave.runs.find? fun x => x.ref == r.ref with
    | some c, some run =>
      if run.testing || (inPipe r.word != 0 && !pipeEnded c (inPipe r.word)) then s
      else
        let s1 := { s with weave := match h with
          | .west => { s.weave with west := { s.weave.west with doneSent := true } }
          | .east => { s.weave with east := { s.weave.east with doneSent := true } } }
        if s1.weave.west.doneSent && s1.weave.east.doneSent then weaveComplete s1 c r run else s1
    | _, _ => s

def execWeaveDoneHandshake (h : Half) (s : State) : Host.Outcome State Fault Refusal := .next (weaveDone s h)

/-! ### Failed cells (07 R380, R381, R385) -/

def columnsOf (s : State) : Half → Columns
  | .west => s.weave.west
  | .east => s.weave.east

def setColumns (s : State) (h : Half) (f : Columns → Columns) : State :=
  match h with
  | .west => { s with weave := { s.weave with west := f s.weave.west } }
  | .east => { s with weave := { s.weave with east := f s.weave.east } }

/-- A logical column is disabled for a cell of a half; a fifth takes the Weave out of service (07 R381). -/
def disableColumn (s : State) (h : Half) (col : Nat) : State :=
  let new := !((columnsOf s .west).disabled.getLsbD col || (columnsOf s .east).disabled.getLsbD col)
  let s1 := setColumns s h fun k => { k with disabled := k.disabled ||| BitVec.ofNat 32 (2 ^ col),
                                             steer := if k.steer.contains col then k.steer else k.steer ++ [col] }
  if new ∧ 4 ≤ disabledColumns s then { s1 with weave := { s1.weave with outOfService := true } } else s1

/-- A declared failure takes effect (07 R381): of a cell in a column that the spare has replaced, none; of the spare
column, the spare fails, and the column it served is disabled. -/
def applyFailure (s : State) (h : Half) (col : Nat) : State :=
  let k := columnsOf s h
  if col = 32 then
    if k.spare = 0x3E then s
    else
      let s1 := setColumns s h fun k => { k with spare := 0x3E }
      if k.spare = 0x3F then s1
      else let s2 := disableColumn s1 h k.spare; setColumns s2 h fun x => { x with steer := x.steer.filter fun y => y != k.spare }
  else if k.spare = col then s
  else disableColumn s h col

/-- No Weave command is running. -/
def weaveAtBoundary (s : State) : Bool := (findEngine s .weave).running.all fun r => r.isDelay

/-- COLUMN_DISABLE: at a command boundary the declared failures take effect (07 R381, 01 R33). -/
def columnDisable (s : State) : State :=
  if weaveAtBoundary s then
    s.weave.pendingDisable.foldl (fun st p => applyFailure st p.1 p.2) { s with weave := { s.weave with pendingDisable := [] } }
  else s

def execColumnDisable (s : State) : Host.Outcome State Fault Refusal := .next (columnDisable s)

/-- At a reset of a half its free spare is steered into the first column that waits for it, which is enabled again (07 R380,
R381). -/
def steerSpare (s : State) (h : Half) : State :=
  let k := columnsOf s h
  match k.spare == 0x3F, k.steer with
  | true, col :: rest => setColumns s h fun x => { x with spare := col, steer := rest, disabled := x.disabled &&& ~~~(BitVec.ofNat 32 (2 ^ col)) }
  | _, _ => s

/-- The unit that names a physical column (13 Table 13.1). -/
def columnUnit (h : Half) (col : Nat) : Nat := 0x2000 + 64 * h.num + col

/-- The logical column that a physical column of a half serves, for DETAIL (07 R385). -/
def logicalColumn (s : State) (h : Half) (col : Nat) : Nat := if col = 32 ∧ (columnsOf s h).spare < 32 then (columnsOf s h).spare else col

/-- WEAVE_PATTERN_TEST: the first test due on a half runs at its boundary; failing gives the physical columns that hold a
failing cell. A test that follows a mismatch ends the command's list (07 R385); one that finds nothing then counts for
the half. -/
def patternTest (s : State) (h : Half) (failing : List Nat) : State :=
  match s.weave.pendingTest.find? fun t => t.1 == h with
  | none => s
  | some t =>
    let bad := (failing.filter fun k => decide (k ≤ 32)).eraseDups
    let s1 := { s with weave := { s.weave with pendingTest := s.weave.pendingTest.erase t } }
    let s2 := bad.foldl (fun st k => bucketEvent st 7 (BitVec.ofNat 16 (columnUnit h k)) 0 0) s1
    match t.2 with
    | none => if weaveAtBoundary s then s2 else s
    | some ref =>
      match leastBy (fun a b => decide (a < b)) (bad.map (logicalColumn s h)) with
      | some k => faultCommand s2 ref (.hw (columnUnit h k))
      | none => bucketEvent (faultCommand s2 ref (.hw h.num)) 6 (BitVec.ofNat 16 h.num) 0 0

def execWeavePatternTest (h : Half) (failing : List Nat) (s : State) : Host.Outcome State Fault Refusal := .next (patternTest s h failing)

end Sys2Proof.Machine
end

