-- ==== Sys2Proof/Machine/Rim.lean ====
section
/-! DEFINITION. RM_OP: the element-wise, row and initialising operations of Rim, over memory and pipes (chapter 08). -/

namespace Sys2Proof.Machine

def bumpRim (s : State) (sess : U32) (i n : Nat) : State := setCtx s sess fun c => { c with rimCtr := bump c.rimCtr i n }

/-! ### How the halves divide a command (08 R396, R397) -/

/-- The elements of a stream that a half processes: those of its blocks of 8,192, a unit going whole to the half whose block
holds its first element. unit names the unit of an element. -/
def halfElems (d : Desc) (both : Bool) (h : Half) (unit : Nat × List Nat → Nat × List Nat) : List (Nat × List Nat) :=
  let es := d.elems
  if both = false then es
  else
    let cut := ceilDiv (ceilDiv es.length 8192) 2 * 8192
    if es.length ≤ cut then (if h = .west then es else [])
    else
      let west := es.take cut
      es.filter fun e => (west.any fun x => unit x == unit e) == (h == .west)

/-- A command of Rim names both halves. -/
def bothHalves (w : BitVec 512) : Bool := cmdHalves w == 3

/-- An MX block, or an MB8 block, is processed whole. -/
def blockUnit (d : Desc) (e : Nat × List Nat) : Nat × List Nat := if d.mx || d.fmt == 0xE then (e.1 / 32, e.2) else e

/-- The output tiles that are complete when a half has processed its elements. -/
def doneTiles (s : State) (ref : CmdRef) (d : Desc) (h : Half) (es : List (Nat × List Nat)) : List Nat :=
  let other := match findProgress s ref with
    | some p => !namesHalf p.halves h.other || (match h with | .west => p.eastDone | .east => p.westDone)
    | none => true
  let all := (List.range d.tiles.length).zip d.tiles
  if other then all.map fun t => t.1 else (all.filter fun t => (d.tileElems t.2).all fun e => es.contains e).map fun t => t.1

/-! ### Operations (08 Table 8.1, R393, R394, R398, R722) -/

def fvNf (x : U32) : Fl := (fp32 x).nf

/-- A function unit's result with its flags: inexact but where the operand is one of the exact points, and an underflow where it lies
below the normal range; a non-finite result of a finite operand overflows, or is an invalid operation (log entry 8). -/
def unitFv (f : U32 → U32) (exact : U32) (x : U32) : FV :=
  let r := f x
  let a := fp32 x
  let fl : Fl := match fp32 r with
    | .nan => if a = .nan then 0 else flNV
    | .inf _ => if a.isFin && !a.isZero then flOF ||| flNX else 0
    | .fin _ _ _ =>
      if a.isFin && !(a.same (fp32 exact)) then flNX ||| (if (fp32 r).abs.lt (Num.fin false 1 (-126)) then flUF else 0) else 0
  (r, fl ||| a.nf)

/-- MAX and MIN, with +0 above -0 and a NaN giving the canonical NaN (08 R722). -/
def rimExtreme (isMax : Bool) (x y : U32) : FV :=
  if fp32 x = .nan ∨ fp32 y = .nan then (canonNan, flNF)
  else if (if isMax then fAbove y x else fAbove x y) then (y, fvNf x ||| fvNf y)
  else (x, fvNf x ||| fvNf y)

/-- An element's result. y is the second operand or the row's value, bits the element's Plait bits, ls the loss scale. -/
def rimElem (op imm : Nat) (ls x y : U32) (bits : U16) : FV :=
  let lo : U32 := BitVec.ofNat 32 imm
  let hi : U32 := BitVec.ofNat 32 (imm / 2 ^ 32)
  match op with
  | 0x0000 => (x, fvNf x)
  | 0x0001 => rimExtreme true x 0
  | 0x0002 => if fp32 x ≠ .nan ∧ (fp32 x).lt Num.zero = false then (x, fvNf x) else fmul lo x
  | 0x0003 => unitFv Config.geluUnit 0 x
  | 0x0004 => unitFv Config.sigmoidUnit 0 x
  | 0x0005 => unitFv Config.tanhUnit 0 x
  | 0x0006 => unitFv Config.expUnit 0 x
  | 0x0007 => unitFv Config.logUnit 0x3F800000 x
  | 0x0008 => fsqrt x
  | 0x0009 => fdiv 0x3F800000 x
  | 0x0010 => fadd x y
  | 0x0011 => fsub x y
  | 0x0012 => fmul x y
  | 0x0013 => fdiv x y
  | 0x0014 => rimExtreme true x y
  | 0x0015 => rimExtreme false x y
  | 0x0020 => FV.add (fmul lo x) (FV.of y)
  | 0x0100 => let d := fsub x y; let e := unitFv Config.expUnit 0 d.1; (e.1, d.2 ||| arrayFl e.2)
  | 0x0101 => fmul x y
  | 0x0102 => fdiv x y
  | 0x0200 => if bits.toNat < imm / 65536 % 65536 then fmul x hi else (0, fvNf x)
  | 0x0301 => fmul x ls
  | _ => (x, fvNf x)

def isInit (op : Nat) : Bool := op == 0x400 || op == 0x401 || op == 0x402
def isRowOp (op : Nat) : Bool := op == 0x100 || op == 0x101 || op == 0x102

/-- An element of an initialisation (05 R268, R269, Table 5.8): element e of a destination. -/
def initElem (g : PlaitState) (op imm base e : Nat) : FV :=
  let lo : U32 := BitVec.ofNat 32 imm
  let hi : U32 := BitVec.ofNat 32 (imm / 2 ^ 32)
  if op = 0x400 then let r := uniformOn lo hi (g.uniformWord base 0 e); (r.1, r.2 ||| fvNf lo ||| fvNf hi)
  else
    let st := g.normalStream base e
    let z := if op = 0x401 then normalBoxMuller (plait g.key st (plaitPosition 0 e)) else normalZiggurat g.key st (plaitPosition 0 e)
    FV.add (FV.of lo) (fmul hi z)

/-! ### Operands (08 R395, R721) -/

structure RimPlan where
  op : Nat
  imm : Nat
  din : Option Desc
  dout : Option Desc
  aux : Option Desc
  auxAddr : Nat

def Desc.sameShape (a b : Desc) : Bool := a.ndim == b.ndim && a.counts == b.counts

/-- The operands that OP requires are there, and their shapes agree. -/
def rimPlan (r : Running) (inst : EngineInst) : Except CmdErr RimPlan := do
  let w := r.word
  let op := fld w 0x20 15 0
  let p : RimPlan := { op := op, imm := fld w 0x30 63 0, din := r.desc 0x10, dout := r.desc 0x18, aux := r.desc 0x28, auxAddr := fld w 0x28 47 0 }
  let one := fun (off : Nat) => (fld w off 47 0 != 0) != (fld w off 50 48 != 0)
  let none' := fun (off : Nat) => fld w off 47 0 == 0 && fld w off 50 48 == 0
  mustBe inst (if isInit op then none' 0x10 else one 0x10)
  mustBe inst (if op = 0x300 then none' 0x18 else one 0x18)
  mustBe inst (match p.din, p.dout with | some a, some b => a.sameShape b | _, _ => true)
  mustBe inst (match p.din, p.dout with | none, some b => isInit op || b.ndim == 2 | _, _ => true)
  mustBe inst (match p.din with
    | some a => outPipe w == 0 || (a.ndim == 2 && a.tile0 == 32 && a.tile1 == 32)
    | none => true)
  mustBe inst (match p.aux with
    | some y => (match p.din with | some a => a.sameShape y | none => y.ndim == 2) && y.fmt != 0xF
    | none => true)
  mustBe inst (if op = 0x20 then p.aux.isSome else if isRowOp op then p.auxAddr != 0 && p.auxAddr % (if op = 0x100 then 8 else 4) == 0
    else auxIsDesc op || p.auxAddr == 0)
  mustBe inst (op != 0x200 || p.imm / 65536 % 65536 != 0)
  mustBe inst (match p.din with | some a => a.fmt != 0xF | none => true)
  mustBe inst (match p.dout with | some b => b.fmt != 0xF | none => true)
  pure p

/-- y of an element: of the AUX stream, the immediate, or the row's entry (08 R721). -/
def rimY (s : State) (c : Context) (p : RimPlan) (i0 : Nat) (idx : List Nat) (row : Nat) : Except MemErr (U32 × Fl) :=
  match p.aux with
  | some d => (readElem s c .rd d i0 idx).map fun v => ((toFp32 v.1).1, v.2)
  | none =>
    if isRowOp p.op then
      (readVa s c .rd (p.auxAddr + (if p.op = 0x100 then 8 else 4) * row) 4).map fun b => (BitVec.ofNat 32 (leNat b), 0)
    else .ok (BitVec.ofNat 32 p.imm, 0)

/-- The drop-out bits of element e (05 R270), drawn with the generator state that stood when the command started. -/
def dropBits (s : State) (ref : CmdRef) (imm e : Nat) : U16 :=
  match findProgress s ref with
  | some q => ({ key := q.plaitKey, bases := q.bases } : PlaitState).dropout (imm % 65536) 0 e
  | none => 0

def lossScaleOf (c : Context) : U32 := c.rim.lsScale

/-- The result of the element of a memory input, or of an initialisation. e is its index in the destination. -/
def rimValue (s : State) (c : Context) (r : Running) (p : RimPlan) (i0 : Nat) (idx : List Nat) (e : Nat) : Except MemErr FV :=
  match p.din with
  | none =>
    match findProgress s r.ref, p.dout with
    | some q, some d => .ok (initElem { key := q.plaitKey, bases := q.bases } p.op p.imm d.base e)
    | _, _ => .ok (0, 0)
  | some d => do
    let x ← readElem s c .rd d i0 idx
    let y ← rimY s c p i0 idx (nthD 0 idx 0)
    let v := rimElem p.op p.imm (lossScaleOf c) (toFp32 x.1).1 y.1 (dropBits s r.ref p.imm e)
    pure (v.1, v.2 ||| x.2 ||| y.2)

/-- A non-finite value sets the context's latch and is counted (08 R408). -/
def noteNonfinite (s : State) (sess : U32) (n : Nat) : State :=
  if n = 0 then s else bumpRim (setCtx s sess fun c => { c with rim := { c.rim with latch := true } }) sess 5 n

def flOr (l : List FV) : Fl := l.foldl (fun a v => a ||| v.2) 0

/-- The elements of one memory-to-memory command that a half processes, valued and written. -/
def rimToMemory (s : State) (c : Context) (r : Running) (p : RimPlan) (h : Half) (d : Desc) : Except CmdErr State := do
  let unit := fun (e : Nat × List Nat) => if isRowOp p.op then (0, e.2) else blockUnit d e
  let es := halfElems d (bothHalves r.word) h unit
  let vs ← memTry h.num (es.mapM fun e => rimValue s c r p e.1 e.2 (d.linear e.1 e.2))
  let q ← memTry h.num (storeElems s c .wr d false (Num.ofNat 1) ((es.zip vs).map fun x => (x.1, (fp32 x.2.1, Round.nearest))))
  let s1 := match p.din with | some a => tallyElems q.st r.sess 0 a es | none => q.st
  let s2 := setFlags (tallyElems s1 r.sess 1 d es) r.sess engRim (flOr vs ||| q.fl)
  pure (shareDone (unitsDone s2 r.ref (doneTiles s2 r.ref d h es)) (.rim h) r.ref)

/-- TEST: every element is tested (08 R408). -/
def rimTest (s : State) (c : Context) (r : Running) (p : RimPlan) (h : Half) (d : Desc) : Except CmdErr State := do
  let es := halfElems d (bothHalves r.word) h (blockUnit d)
  let vs ← memTry h.num (es.mapM fun e => rimValue s c r p e.1 e.2 0)
  let s1 := setFlags (tallyElems s r.sess 0 d es) r.sess engRim (flOr vs)
  pure (shareDone (noteNonfinite s1 r.sess (vs.filter fun v => !(fp32 v.1).isFin).length) (.rim h) r.ref)

/-- A memory input with a piped output: its tiles are sent in visiting order with the tags of a product's (08 R721). -/
def rimToPipe (s : State) (c : Context) (r : Running) (p : RimPlan) (h : Half) (d : Desc) : Except CmdErr State := do
  let tileOf := fun (e : Nat × List Nat) => (e.1 / 32, [nthD 0 e.2 0 / 32])
  let es := halfElems d (bothHalves r.word) h tileOf
  let nts := ceilDiv (d.count 0) 32
  let vs ← memTry h.num (es.mapM fun e => (rimValue s c r p e.1 e.2 (e.1 / 32 * 65536 + nthD 0 e.2 0 % 32 * 32 + e.1 % 32)).map fun v => (e, v))
  let keys := (es.map tileOf).eraseDups
  let s1 := keys.foldl (fun (st : State) k =>
    let nt := k.1
    let mt := nthD 0 k.2 0
    let rows := Nat.min 32 (d.count 1 - 32 * mt)
    let mine := vs.filter fun v => tileOf v.1 == k
    let base := productTile mt nt nts rows
    let u := freshUid st
    let data := ((List.range 32).zip base.rows).map fun q =>
      { q.2 with data := some (wordsBytes ((mine.filter fun v => nthD 0 v.1.2 0 % 32 == q.1).map fun v => v.2.1)) }
    sendTile u.2 r.sess (outPipe r.word) { base with uid := u.1, rowElems := d.count 0, rows := data }) s
  let s2 := setFlags (tallyElems s1 r.sess 0 d es) r.sess engRim (flOr (vs.map fun v => v.2))
  pure (shareDone (unitsDone s2 r.ref (keys.map fun k => nthD 0 k.2 0 * nts + k.1)) (.rim h) r.ref)

/-- RM_OP starts: over memory it runs; with a piped input it takes its tiles as they arrive, with a piped output it waits
until the consumer has fired (03 R136). -/
def startOp (h : Half) (s : State) (c : Context) (r : Running) : Except CmdErr State := do
  let p ← rimPlan r (.rim h)
  if inPipe r.word ≠ 0 then .ok (markStarted s (.rim h) r.ref)
  else if outPipe r.word ≠ 0 then
    match p.din with
    | none => .error (errBad (.rim h))
    | some d => if pipeReady c (outPipe r.word) then rimToPipe s c r p h d else .ok s
  else
    match p.din, p.dout with
    | _, some d => rimToMemory s c r p h d
    | some d, none => rimTest s c r p h d
    | none, none => .error (errBad (.rim h))

def rimSel (op : Nat) (w : BitVec 512) : Bool := cmdOpcode w == 0x40 && fld w 0x20 15 0 == op

def runOp (op : Nat) (h : Half) (s : State) : State := withRunning s (.rim h) (rimSel op) (startOp h)

/-! ### Tiles from a pipe -/

/-- The elements of a row of a tile as FP32, with the flags of reading them. -/
def tileElems (t : Tile) (q : TileRow) : List U32 × Fl :=
  let bs := q.data.getD []
  let n := if fmtWidth t.fmt = 0 then bs.length / 7 * 32 else bs.length * 8 / fmtWidth t.fmt
  let u := unpack t.fmt n bs
  (u.1.map fun v => (toFp32 v).1, u.2)

/-- The results of the rows of a piped tile: place in the tile, edge, results (08 R395, R721). -/
def tileResults (s : State) (c : Context) (r : Running) (p : RimPlan) (t : Tile) : Except MemErr (List (Nat × Nat × List FV)) :=
  (((List.range t.rows.length).zip t.rows).filter fun q => q.2.dest != 0xFFFFFFFF).mapM fun q => do
    let edge := q.2.edge.toNat
    let xs := tileElems t q.2
    let vs ← ((List.range xs.1.length).zip xs.1).mapM fun x => do
      let y ← rimY s c p (t.colBase + x.1) [edge, 0, 0, 0] edge
      let e := match p.dout with
        | some d => edge * d.count 0 + t.colBase + x.1
        | none => t.seq * 65536 + 32 * q.1 + x.1
      let v := rimElem p.op p.imm (lossScaleOf c) x.2 y.1 (dropBits s r.ref p.imm e)
      pure ((v.1, v.2 ||| y.2 ||| xs.2) : FV)
    pure (q.1, edge, vs)

/-- A tile's rows lie within the counts of a stream (08 R721). -/
def tileFits (d : Desc) (t : Tile) : Bool :=
  t.rows.all fun q => q.dest == 0xFFFFFFFF || (decide (q.edge.toNat < d.count 1) && decide (t.colBase + (tileElems t q).1.length ≤ d.count 0))

/-- A tile is checked and processed (08 R393, R395, R721; 06 R313). -/
def rimTileWork (s : State) (c : Context) (r : Running) (h : Half) (t : Tile) : Except CmdErr State := do
  let p ← rimPlan r (.rim h)
  mustBe (.rim h) (!t.raw && operandFmt t.fmt)
  mustBe (.rim h) ((match p.dout with | some d => tileFits d t | none => true) && match p.aux with | some d => tileFits d t | none => true)
  let vs ← memTry h.num (tileResults s c r p t)
  let fl := flOr (vs.flatMap fun v => v.2.2)
  let s1 ← match p.dout with
    | some d => do
      let xs := vs.flatMap fun v => ((List.range v.2.2.length).zip v.2.2).map fun x =>
        ((t.colBase + x.1, [v.2.1, 0, 0, 0]), (fp32 x.2.1, Round.nearest))
      let q ← memTry h.num (storeElems s c .wr d false (Num.ofNat 1) xs)
      pure (setFlags (tallyElems q.st r.sess 1 d (xs.map fun x => x.1)) r.sess engRim (fl ||| q.fl))
    | none =>
      let s1 := setFlags s r.sess engRim fl
      if p.op = 0x300 then
        pure (noteNonfinite s1 r.sess (vs.flatMap fun v => v.2.2.filter fun x => !(fp32 x.1).isFin).length)
      else
        let rows := ((List.range t.rows.length).zip t.rows).map fun q =>
          match vs.find? fun v => v.1 == q.1 with
          | some v => { q.2 with data := some (wordsBytes (v.2.2.map fun x => x.1)) }
          | none => { q.2 with data := some [] }
        let u := freshUid s1
        pure (sendTile u.2 r.sess (outPipe r.word) { t with uid := u.1, rows := rows, fmt := 0, raw := false })
  match findProgress s1 r.ref with
  | some q => pure (if p.op = 0x300 then s1 else unitsDone s1 r.ref [q.units.length])
  | none => pure s1

/-- A tile arrives at Rim, or its input has ended (03 R717). -/
def rimTile (s : State) (h : Half) : State :=
  match (findEngine s (.rim h)).running.find? fun r => cmdOpcode r.word == 0x40 && inPipe r.word != 0 && r.started with
  | none => s
  | some r =>
    match findCtx s r.sess with
    | none => s
    | some c =>
      if pipeEnded c (inPipe r.word) then armWaits (shareDone s (.rim h) r.ref)
      else if outPipe r.word != 0 && !pipeReady c (outPipe r.word) then s
      else
        match takeTile s c (inPipe r.word) with
        | none => s
        | some (t, s1) =>
          match findCtx s1 r.sess with
          | none => s1
          | some c1 =>
            match rimTileWork s1 c1 r h t with
            | .error e => faultCommand s1 r.ref e
            | .ok s2 => armWaits s2

/-! ### The operations -/

def execCopy (h : Half) (s : State) : Host.Outcome State Fault Refusal := .next (runOp 0x0000 h s)
def execRelu (h : Half) (s : State) : Host.Outcome State Fault Refusal := .next (runOp 0x0001 h s)
def execLeakyRelu (h : Half) (s : State) : Host.Outcome State Fault Refusal := .next (runOp 0x0002 h s)
def execGelu (h : Half) (s : State) : Host.Outcome State Fault Refusal := .next (runOp 0x0003 h s)
def execSigmoid (h : Half) (s : State) : Host.Outcome State Fault Refusal := .next (runOp 0x0004 h s)
def execTanh (h : Half) (s : State) : Host.Outcome State Fault Refusal := .next (runOp 0x0005 h s)
def execExp (h : Half) (s : State) : Host.Outcome State Fault Refusal := .next (runOp 0x0006 h s)
def execLog (h : Half) (s : State) : Host.Outcome State Fault Refusal := .next (runOp 0x0007 h s)
def execSqrt (h : Half) (s : State) : Host.Outcome State Fault Refusal := .next (runOp 0x0008 h s)
def execRecip (h : Half) (s : State) : Host.Outcome State Fault Refusal := .next (runOp 0x0009 h s)
def execAdd (h : Half) (s : State) : Host.Outcome State Fault Refusal := .next (runOp 0x0010 h s)
def execSub (h : Half) (s : State) : Host.Outcome State Fault Refusal := .next (runOp 0x0011 h s)
def execMul (h : Half) (s : State) : Host.Outcome State Fault Refusal := .next (runOp 0x0012 h s)
def execDiv (h : Half) (s : State) : Host.Outcome State Fault Refusal := .next (runOp 0x0013 h s)
def execMax (h : Half) (s : State) : Host.Outcome State Fault Refusal := .next (runOp 0x0014 h s)
def execMin (h : Half) (s : State) : Host.Outcome State Fault Refusal := .next (runOp 0x0015 h s)
def execAxpy (h : Half) (s : State) : Host.Outcome State Fault Refusal := .next (runOp 0x0020 h s)
def execRowExpSub (h : Half) (s : State) : Host.Outcome State Fault Refusal := .next (runOp 0x0100 h s)
def execRowScale (h : Half) (s : State) : Host.Outcome State Fault Refusal := .next (runOp 0x0101 h s)
def execRowDiv (h : Half) (s : State) : Host.Outcome State Fault Refusal := .next (runOp 0x0102 h s)
def execDropout (h : Half) (s : State) : Host.Outcome State Fault Refusal := .next (runOp 0x0200 h s)
def execTest (h : Half) (s : State) : Host.Outcome State Fault Refusal := .next (runOp 0x0300 h s)
def execScaleLoss (h : Half) (s : State) : Host.Outcome State Fault Refusal := .next (runOp 0x0301 h s)
def execInitUniform (h : Half) (s : State) : Host.Outcome State Fault Refusal := .next (runOp 0x0400 h s)
def execInitNormalBm (h : Half) (s : State) : Host.Outcome State Fault Refusal := .next (runOp 0x0401 h s)
def execInitNormalZig (h : Half) (s : State) : Host.Outcome State Fault Refusal := .next (runOp 0x0402 h s)

/-- A tile arrives at a Rim or Splint consumer (06 R316, 08 R393). -/
def pipeTileArrival (s : State) (inst : EngineInst) : State :=
  match inst with
  | .rim h => rimTile s h
  | .splints h => scatterTile s h
  | _ => s

def execPipeTileArrival (inst : EngineInst) (s : State) : Host.Outcome State Fault Refusal := .next (pipeTileArrival s inst)

end Sys2Proof.Machine
end

