-- ==== Sys2Proof/Machine/Sampler.lean ====
section
/-! DEFINITION. The Sampler: neighbour choice, deduplication and renumbering, the sampled block, and sampling for other
modules (chapter 05). -/

namespace Sys2Proof.Machine

/-! ### Expanding a node (05 R229-R248) -/

/-- What an expansion needs: the graph, the generator and the fields of the command or the request. -/
structure Expander where
  st : State
  c : Context
  g : Graph
  gen : PlaitState
  mode : Nat
  salt : Nat
  step : Nat
  aliases : Nat
  coil : Option Coil
  withWeights : Bool

/-- A pick: position, neighbour, relation, weight as treated (05 R259). -/
structure Pick where
  pos : Nat
  nb : Nat
  rel : Nat
  w : U32
  deriving DecidableEq, Repr

/-- The result of an expansion with what it counts and the spans it reads. -/
structure Expansion where
  picks : List Pick
  short : Bool
  noAlias : Bool
  unreached : Bool
  badAlias : Nat
  fl : Fl
  reads : List (Nat × Nat)
  deriving DecidableEq, Repr

def noEdges : Expansion := { picks := [], short := false, noAlias := false, unreached := true, badAlias := 0, fl := 0, reads := [] }

def readNat (s : State) (c : Context) (va n : Nat) : Except MemErr Nat := (readVa s c .rd va n).map leNat

/-- Where a node of a graph lies (05 R230, R261). -/
def nodeOwner (me : Nat) (g : Graph) (n : Nat) : Owner :=
  match ownerOf me g.ownership (if g.ownership.isSome then 2 ^ 63 else g.nodes) n with
  | .here i => if i < g.nodes then .here i else .none
  | o => o

/-- Floyd's method (05 R242). -/
def floyd (word : Nat → U32) (d k : Nat) : List Nat :=
  (List.range k).foldl (fun acc i =>
    let j := d - k + i
    let t := (word i).toNat * (j + 1) / 2 ^ 32
    (if acc.contains t then j else t) :: acc) []

def allOf (k : Nat) : Bool := k == 0xFFFF

/-- Uniform mode: positions in ascending order (05 R242, R248). -/
def uniformPicks (word : Nat → U32) (d k : Nat) : List Nat :=
  if allOf k ∨ d ≤ k then List.range d else sortBy (fun a b => decide (a < b)) (floyd word d k)

/-- A stored weight as the Sampler treats it (05 Table 5.2). -/
def treatWeight (raw : U32) : U32 × Fl :=
  let v := fp32 raw
  if v.isFin = false then (0, flNF) else if v.isNeg && !v.isZero then (0, flNV) else (if v.isZero then 0 else raw, 0)

/-- The first remaining position whose running sum exceeds t. -/
def firstOver (t : U32) : List (Nat × U32) → U32 → Fl → Option Nat × Fl
  | [], _, fl => (none, fl)
  | (p, w) :: rest, run, fl =>
    let r := midAdd run w
    if (fp32 t).lt (fp32 r.1) then (some p, fl ||| r.2) else firstOver t rest r.1 (fl ||| r.2)

/-- Sequential draws over the weights of a small node (05 R243). -/
def drawSmall (word : Nat → U32) : Nat → Nat → List (Nat × U32) → List Nat → Fl → List Nat × Fl
  | 0, _, _, picks, fl => (picks, fl)
  | fuel + 1, j, rem, picks, fl =>
    let tot := fsumFrom 0 (rem.map fun p => p.2)
    if (fp32 tot.1).isZero then (picks, fl ||| tot.2)
    else
      let t := let m := fmul (uniform32 (word j)) tot.1; (m.1, arrayFl m.2)
      let f := firstOver t.1 rem 0 0
      let p := match f.1 with
        | some p => p
        | none => match (rem.filter fun x => !(fp32 x.2).isZero).getLast? with | some x => x.1 | none => 0
      drawSmall word fuel (j + 1) (rem.filter fun x => x.1 != p) (p :: picks) (fl ||| tot.2 ||| t.2 ||| f.2)

/-- Weighted mode on a small node. -/
def smallPicks (word : Nat → U32) (ws : List U32) (k : Nat) : List Nat × Fl :=
  let rows := (List.range ws.length).zip ws
  let pos := rows.filter fun p => !(fp32 p.2).isZero
  if allOf k ∨ pos.length ≤ k then (pos.map fun p => p.1, 0)
  else let r := drawSmall word k 0 rows [] 0; (sortBy (fun a b => decide (a < b)) r.1, r.2)

/-- Alias draws with rejection (05 R235, R236, R244): positions, and draws that took their column. -/
def drawAlias (x : Expander) (table d k : Nat) (word : Nat → U32) : Nat → Nat → List Nat → Nat → Except MemErr (List Nat × Nat)
  | 0, _, picks, bad => .ok (picks, bad)
  | fuel + 1, n, picks, bad =>
    if k ≤ picks.length then .ok (picks, bad)
    else
      let c := (word (2 * n)).toNat * d / 2 ^ 32
      match readNat x.st x.c (table + 8 * c) 8 with
      | .error e => .error e
      | .ok v =>
        let prob := v % 2 ^ 32
        let al := v / 2 ^ 32
        let own := decide ((word (2 * n + 1)).toNat < prob) || prob == 0xFFFFFFFF
        let p := if own then c else if al < d then al else c
        let bad' := if own ∨ al < d then bad else bad + 1
        drawAlias x table d k word fuel (n + 1) (if picks.contains p then picks else p :: picks) bad'

/-- Read one neighbour entry with its relation and weight. -/
def readPick (x : Expander) (first pos : Nat) : Except MemErr (Pick × Fl) := do
  let nb ← readNat x.st x.c (x.g.neighbours + 8 * (first + pos)) 8
  let rel ← if x.g.relations = 0 then pure 0 else readNat x.st x.c (x.g.relations + first + pos) 1
  let w ← if x.withWeights ∧ x.g.weights ≠ 0 then readNat x.st x.c (x.g.weights + 4 * (first + pos)) 4 else pure 0
  let t := treatWeight (BitVec.ofNat 32 w)
  pure ({ pos := pos, nb := nb % 2 ^ 40, rel := rel, w := t.1 }, t.2)

def readPicks (x : Expander) (first : Nat) : List Nat → Except MemErr (List Pick × Fl)
  | [] => .ok ([], 0)
  | p :: t => do
    let a ← readPick x first p
    let b ← readPicks x first t
    pure (a.1 :: b.1, a.2 ||| b.2)

def readWeights (x : Expander) (first d : Nat) : Except MemErr (List U32 × Fl) :=
  (List.range d).foldlM (fun acc i => do
    let w ← readNat x.st x.c (x.g.weights + 4 * (first + i)) 4
    let t := treatWeight (BitVec.ofNat 32 w)
    pure (acc.1 ++ [t.1], acc.2 ||| t.2)) ([], 0)

/-- The positions a mode takes, among d from a first entry: with SHORT judged by 05 R247. None when the node gets no edges. -/
def choosePositions (x : Expander) (node idx hop k first d : Nat) : Except MemErr (Option (List Nat × Bool × Nat × Fl)) := do
  let word := fun i => x.gen.sampleWord x.salt hop node x.step i
  match x.mode with
  | 2 =>
    match x.coil with
    | none => pure none
    | some img =>
      let n := fun (v : Nat) => BitVec.ofNat 64 v
      let regs := [0, n node, n idx, n d, n (x.g.neighbours + 8 * first), n x.step, n hop] ++ List.replicate 25 0
      match runWindow x.st x.c x.gen img 512 regs 0 with
      | none => pure none
      | some r =>
        let lo := (nthD 0 r 7).toNat
        let hi := (nthD 0 r 8).toNat
        if hi ≤ lo ∨ d < hi then pure none else pure (some ((uniformPicks word (hi - lo) k).map (fun p => lo + p), false, 0, 0))
  | 1 =>
    if d ≤ 64 then
      let ws ← readWeights x first d
      let r := smallPicks word ws.1 k
      pure (some (r.1, false, 0, r.2 ||| ws.2))
    else
      let table ← if x.aliases = 0 then pure 0 else readNat x.st x.c (x.aliases + 8 * idx) 8
      if table = 0 then pure (some (uniformPicks word d k, true, 0, 0))
      else if allOf k then pure (some (List.range d, false, 0, 0))
      else
        let r ← drawAlias x table d k word (8 * k) 0 [] 0
        pure (some (sortBy (fun a b => decide (a < b)) r.1, false, r.2, 0))
  | _ => pure (some (uniformPicks word d k, false, 0, 0))

/-- Expand a node held here (05 R231-R247). -/
def expandLocal (x : Expander) (node idx hop k : Nat) : Except MemErr Expansion := do
  let lo ← readNat x.st x.c (x.g.offsets + 8 * idx) 8
  let hi ← readNat x.st x.c (x.g.offsets + 8 * idx + 8) 8
  if hi < lo then pure noEdges
  else
    match ← choosePositions x node idx hop k lo (hi - lo) with
    | none => pure noEdges
    | some (ps, noAlias, bad, fl) =>
      let r ← readPicks x lo ps
      pure { picks := r.1, short := decide (ps.length < (if allOf k then hi - lo else Nat.min k (hi - lo))), noAlias := noAlias,
             unreached := false, badAlias := bad, fl := fl ||| r.2,
             reads := (x.g.offsets + 8 * idx, 16) :: ps.map fun p => (x.g.neighbours + 8 * (lo + p), 8) }

/-! ### The fan-out record (05 Table 5.4, R240) -/

structure FanOut where
  ks : List Nat
  salt : Nat
  group : Nat
  spillAddr : Nat
  spillBytes : Nat
  limit : Nat
  aliases : Nat
  blockBytes : Nat
  coil : Nat
  rel : Bool
  ew : Bool
  deriving DecidableEq, Repr

def decodeFanOut (hops : Nat) (bs : List Byte) : FanOut :=
  let f := fieldAt bs
  { ks := (List.range hops).map fun i => f (2 * i) 2, salt := f 0x10 2, group := f 0x14 3, spillAddr := f 0x18 6, spillBytes := f 0x20 4,
    limit := if f 0x24 4 = 0 then 2 ^ 26 else f 0x24 4, aliases := f 0x28 6, blockBytes := f 0x30 8, coil := f 0x38 3,
    rel := f 0x3B 1 % 2 == 1, ew := f 0x3B 1 / 2 % 2 == 1 }

def mHops (w : BitVec 512) : Nat := fld w 0x20 51 48
def mMode (w : BitVec 512) : Nat := fld w 0x20 55 52
def mStep (w : BitVec 512) : Nat := fld w 0x30 31 0

/-- The spill area lies in a Basket area near a half (05 R240). -/
def spillOk (c : Context) (h : Half) (f : FanOut) : Bool :=
  f.spillAddr == 0 || match findAlloc c f.spillAddr with
    | some a => decide (a.backing = (match h with | .west => .basketWest | .east => .basketEast)) &&
        decide (f.spillAddr + Nat.max f.spillBytes 1 ≤ a.base + a.size)
    | none => false

/-- The half that a command names: it runs on one (03 R129). -/
def namedHalf (w : BitVec 512) : Half := if cmdHalves w = 2 then .east else .west

/-- The checks of 05 R240 on the graph and the record. -/
def fanOutOk (c : Context) (w : BitVec 512) (g : Graph) (f : FanOut) : Bool :=
  (f.ks.all fun k => k != 0 && (decide (k ≤ 1024) || k == 0xFFFF)) && (mMode w != 1 || g.weights != 0) &&
    (mMode w != 2 || c.coils.any fun k => k.handle == f.coil && k.cls == 1) && spillOk c (namedHalf w) f &&
    decide (0x240 + 8 * f.limit ≤ f.blockBytes) && decide (f.limit ≤ 2 ^ 26) && f.spillBytes % 64 == 0

/-! ### Deduplication and the block (05 R249-R258) -/

/-- A hop as it is being built. -/
structure HopOut where
  dests : Nat
  start : Nat
  noRoom : Bool
  ptr : List Nat := [0]
  src : List Nat := []
  rels : List Nat := []
  ews : List U32 := []
  remote : Nat := 0
  short : Nat := 0
  dropped : Nat := 0
  noAlias : Nat := 0
  unreached : Nat := 0
  badAlias : Nat := 0

/-- The block as it is being built: nodes with the hop that found them, entries that have spilled, lookups served from the
spill area, the truncation. -/
structure BlockOut where
  nodes : List (Nat × Nat) := []
  spilled : List Nat := []
  served : Nat := 0
  trunc : Nat := 0
  cause : Nat := 0
  ends : List Nat := []
  hops : List HopOut := []
  badSeeds : Nat := 0
  seedDrops : Nat := 0
  used : Nat := 0
  fl : Fl := 0
  reads : List (Nat × Nat) := []

/-- The on-chip bucket of a node (05 R249; log entry 10). -/
def bucketOf (s : State) (h : Half) (node : Nat) : Nat := Config.dedupHash (nthD 0 s.dedupKeys h.num) node % 262144

/-- Look a node up: its index, and the block with the lookup counted when the spill area serves it. -/
def lookupNode (b : BlockOut) (node : Nat) : Option Nat × BlockOut :=
  let i := b.nodes.findIdx fun p => p.1 == node
  if i < b.nodes.length then (some i, if b.spilled.contains node then { b with served := b.served + 1 } else b) else (none, b)

/-- Add a node: none with the cause when NODE_LIMIT or the spill area stops it (05 R250, R258). -/
def addNode (s : State) (h : Half) (f : FanOut) (b : BlockOut) (node hop : Nat) : BlockOut ⊕ Nat :=
  if f.limit ≤ b.nodes.length then .inr 1
  else
    let k := bucketOf s h node
    let onChip := (b.nodes.filter fun p => !b.spilled.contains p.1 && bucketOf s h p.1 == k).length
    if onChip < 4 then .inl { b with nodes := b.nodes ++ [(node, hop)] }
    else if f.spillAddr = 0 ∨ f.spillBytes / 16 ≤ b.spilled.length then .inr 2
    else .inl { b with nodes := b.nodes ++ [(node, hop)], spilled := node :: b.spilled }

/-- Number the seeds (05 R253, R258, R260). -/
def numberSeeds (s : State) (h : Half) (f : FanOut) (g : Graph) (me : Nat) : List Nat → BlockOut → BlockOut
  | [], b => b
  | n :: t, b =>
    match lookupNode b n with
    | (some _, b1) => numberSeeds s h f g me t b1
    | (none, b1) =>
      let b2 :=
        if b1.trunc ≠ 0 then { b1 with seedDrops := b1.seedDrops + 1 }
        else match addNode s h f b1 n 0 with
          | .inr cause => { b1 with trunc := 1, cause := cause, seedDrops := 1 }
          | .inl b3 =>
            let bad := match nodeOwner me g n with | .none => true | .there _ => f.group == 0 | .here _ => false
            { b3 with badSeeds := b3.badSeeds + if bad then 1 else 0 }
      numberSeeds s h f g me t b2

/-- Offsets of a hop's arrays from its start, and the end of the last, for e edges (05 R255, Table 5.6). -/
def hopLayout (f : FanOut) (start dests e : Nat) : Nat × Nat × Nat × Nat × Nat :=
  let src := start + alignUp (4 * (dests + 1)) 64
  let e1 := src + 4 * e
  let rel := if f.rel then alignUp e1 64 else 0
  let e2 := if f.rel then rel + e else e1
  let ew := if f.ew then alignUp e2 64 else 0
  let e3 := if f.ew then ew + 4 * e else e2
  (start, src, rel, ew, e3)

/-- One pick of a destination becomes an edge, or is dropped (05 R232, R253, R258). -/
def takePick (s : State) (h : Half) (f : FanOut) (g : Graph) (me hop : Nat) (acc : BlockOut × HopOut) (p : Pick) : BlockOut × HopOut :=
  let b := acc.1
  let o := acc.2
  let drop := (b, { o with dropped := o.dropped + 1 })
  if (g.relations ≠ 0 ∧ g.relationCount ≤ p.rel) ∨ nodeOwner me g p.nb = .none then drop
  else if b.cause = 3 ∨ f.blockBytes < (hopLayout f o.start o.dests (o.src.length + 1)).2.2.2.2 then
    ({ b with trunc := hop, cause := if b.cause = 0 then 3 else b.cause }, { o with dropped := o.dropped + 1 })
  else
    let edge := fun (b : BlockOut) (i : Nat) => (b, { o with src := o.src ++ [i], rels := o.rels ++ [p.rel], ews := o.ews ++ [p.w] })
    match lookupNode b p.nb with
    | (some i, b1) => edge b1 i
    | (none, b1) =>
      if b1.trunc ≠ 0 then (b1, { o with dropped := o.dropped + 1 })
      else match addNode s h f b1 p.nb hop with
        | .inr cause => ({ b1 with trunc := hop, cause := cause }, { o with dropped := o.dropped + 1 })
        | .inl b2 => edge b2 b1.nodes.length

/-- Expand a destination of a hop and take its picks. -/
def expandDest (x : Expander) (h : Half) (f : FanOut) (ref : CmdRef) (me hop k : Nat) (acc : BlockOut × HopOut) (node : Nat) :
    Except MemErr (BlockOut × HopOut) := do
  let close := fun (a : BlockOut × HopOut) => (a.1, { a.2 with ptr := a.2.ptr ++ [a.2.src.length] })
  let lost := close (acc.1, { acc.2 with unreached := acc.2.unreached + 1 })
  if acc.1.trunc ≠ 0 then pure lost
  else
    let run := fun (e : Expansion) (far : Bool) =>
      let o := { acc.2 with
        remote := acc.2.remote + (if far then 1 else 0), short := acc.2.short + (if e.short then 1 else 0),
        noAlias := acc.2.noAlias + (if e.noAlias then 1 else 0), unreached := acc.2.unreached + (if e.unreached then 1 else 0),
        badAlias := acc.2.badAlias + e.badAlias }
      close (e.picks.foldl (takePick x.st h f x.g me hop) ({ acc.1 with fl := acc.1.fl ||| e.fl, reads := acc.1.reads ++ e.reads }, o))
    match nodeOwner me x.g node with
    | .none => pure lost
    | .here i => let e ← expandLocal x node i hop k; pure (run e false)
    | .there _ =>
      match x.st.remotePicks.find? fun q => q.ref == ref && q.hop == hop && q.node == node with
      | none => pure lost
      | some q =>
        let ps := q.picks.map fun p => { pos := p.1, nb := p.2.1, rel := p.2.2.1, w := p.2.2.2 : Pick }
        pure (run { noEdges with picks := ps, unreached := q.unreached } true)

/-- The nodes of a hop that their owners have still to expand: node, owner. -/
def missingNodes (x : Expander) (f : FanOut) (ref : CmdRef) (me hop : Nat) (b : BlockOut) : List (Nat × Nat) :=
  if b.trunc ≠ 0 ∨ f.group = 0 then []
  else b.nodes.filterMap fun p =>
    match nodeOwner me x.g p.1 with
    | .there m => if x.st.remotePicks.any fun q => q.ref == ref && q.hop == hop && q.node == p.1 then none else some (p.1, m)
    | _ => none

/-- Sample the hops from one on (05 R253, R258): the block, or the hop and the nodes that must first be expanded elsewhere. -/
def sampleHops (x : Expander) (h : Half) (f : FanOut) (ref : CmdRef) (me : Nat) : List Nat → Nat → BlockOut →
    Except MemErr (BlockOut ⊕ (Nat × List (Nat × Nat)))
  | [], _, b => .ok (.inl b)
  | k :: ks, hop, b =>
    if b.trunc ≠ 0 ∧ b.trunc < hop then .ok (.inl b)
    else
      let start := alignUp (if hop = 1 then 0x240 + 8 * f.limit else b.used) 64
      let d := b.nodes.length
      let noRoom := decide (f.blockBytes < start + 4 * (d + 1))
      let b1 := if noRoom then { b with trunc := hop, cause := if b.cause = 0 then 3 else b.cause } else b
      match missingNodes x f ref me hop b1 with
      | m :: ms => .ok (.inr (hop, m :: ms))
      | [] =>
        let o : HopOut := { dests := d, start := start, noRoom := noRoom, dropped := if hop = 1 then b.seedDrops else 0 }
        match (b1.nodes.map fun p => p.1).foldlM (expandDest x h f ref me hop k) (b1, o) with
        | .error e => .error e
        | .ok (b2, o2) =>
          let used := if noRoom then b2.used else (hopLayout f start d o2.src.length).2.2.2.2
          sampleHops x h f ref me ks (hop + 1) { b2 with ends := b2.ends ++ [b2.nodes.length], hops := b2.hops ++ [o2], used := used }

/-- The 64 bytes of a hop record (05 Table 5.6). -/
def hopRecord (f : FanOut) (o : HopOut) : List Byte :=
  let l := hopLayout f o.start o.dests o.src.length
  let off := fun (v : Nat) => leBytes 8 (if o.noRoom then 0 else v)
  leBytes 4 o.src.length ++ leBytes 4 o.dests ++ off l.1 ++ off l.2.1 ++ off l.2.2.1 ++ off l.2.2.2.1 ++ leBytes 4 o.remote ++
    leBytes 4 o.short ++ leBytes 4 o.dropped ++ leBytes 4 o.noAlias ++ leBytes 4 o.unreached ++ leBytes 4 o.badAlias

/-- The arrays of a hop with their offsets in the block. -/
def hopArrays (f : FanOut) (o : HopOut) : List (Nat × List Byte) :=
  if o.noRoom then []
  else
    let l := hopLayout f o.start o.dests o.src.length
    [(l.1, o.ptr.flatMap fun v => leBytes 4 v), (l.2.1, o.src.flatMap fun v => leBytes 4 v)] ++
      (if f.rel then [(l.2.2.1, o.rels.map fun v => BitVec.ofNat 8 v)] else []) ++
      (if f.ew then [(l.2.2.2.1, wordsBytes o.ews)] else [])

/-- The block header (05 Table 5.5). -/
def blockHeader (hops step seeds : Nat) (b : BlockOut) : List Byte :=
  let last := b.ends.getLast?.getD 0
  [3, BitVec.ofNat 8 hops] ++ leBytes 2 (b.trunc + 16 * b.cause) ++ leBytes 4 seeds ++
    ((List.range 9).flatMap fun i => leBytes 4 (nthD last b.ends i)) ++ leBytes 4 b.served ++ leBytes 4 b.badSeeds ++ leBytes 4 step ++
    leBytes 8 b.used

/-- Every piece of the block in the order in which it is written, the header last (05 R255-R257). -/
def blockPieces (hops step seeds : Nat) (f : FanOut) (b : BlockOut) : List (Nat × List Byte) :=
  let recs := b.hops.flatMap (hopRecord f)
  (b.hops.flatMap (hopArrays f)) ++
    [(0x240, b.nodes.flatMap fun p => leBytes 8 (p.1 + p.2 * 2 ^ 48)), (0x40, recs ++ List.replicate (512 - recs.length) 0),
     (0, blockHeader hops step seeds b)]

/-! ### SM_SAMPLE -/

/-- The seeds of a command (05 R237). -/
def readSeeds (s : State) (c : Context) (d : Desc) : Except MemErr (List Nat) :=
  (readIndices s c d 0 (d.count 1)).map fun l => l.map fun w => w % 2 ^ 40

/-- Groups of at most 32. -/
def inThirties {α : Type} : Nat → List α → List (List α)
  | 0, _ => []
  | n + 1, l => if l.isEmpty then [] else l.take 32 :: inThirties n (l.drop 32)

/-- Send the nodes of a hop that other modules expand, at most 32 in a request (05 R259, R264). -/
def askOwners (s : State) (c : Context) (r : Running) (h : Half) (g : Group) (f : FanOut) (hop k : Nat) (ms : List (Nat × Nat)) :
    Except CmdErr State :=
  let owners := (ms.map fun p => p.2).eraseDups
  owners.foldlM (fun st m =>
    (inThirties ms.length ((ms.filter fun p => p.2 == m).map fun p => p.1)).foldlM (fun st ns =>
      let u := freshUid st
      let q : RemoteReq := { msg := u.1, ref := r.ref, sess := r.sess, group := g.handle, type := 0x08, hop := hop, items := ns, peer := m,
                             targetIncarn := incarnOfModule st m, sentAt := st.now, stopped := false }
      let s1 := setCtx { u.2 with remoteReqs := u.2.remoteReqs ++ [q] } c.sess fun c => { c with fabricCtr := bump c.fabricCtr 9 1 }
      let p := { newPacket s1 g 0x08 m with
        msg := BitVec.ofNat 32 u.1, step := BitVec.ofNat 32 (mStep r.word),
        a := BitVec.ofNat 64 (k + mMode r.word * 2 ^ 16 + f.salt * 2 ^ 20), data := ns.flatMap fun n => leBytes 8 (n + hop * 2 ^ 48) }
      let t := sendFrom s1 c h p
      if t.2 then Except.ok t.1 else Except.error (.hw (cutPort st m))) st) s

/-- Write the finished block and complete the command. -/
def writeBlock (s : State) (c : Context) (r : Running) (inst : EngineInst) (unit seeds : Nat) (f : FanOut) (b : BlockOut) :
    Except CmdErr State := do
  let base := fld r.word 0x28 47 0
  let s1 ← (blockPieces (mHops r.word) (mStep r.word) seeds f b).foldlM (fun st p =>
    match writeVa st c .wr (base + p.1) p.2 with
    | .ok st' => Except.ok (tally st' r.sess 1 (base + p.1) p.2.length)
    | .error e => Except.error (errMem unit e)) s
  let s2 := b.reads.foldl (fun st p => tally st r.sess 0 p.1 p.2) s1
  let s3 := setFlags s2 r.sess engSampler b.fl
  pure (shareDone { s3 with remotePicks := s3.remotePicks.filter fun q => q.ref != r.ref } inst r.ref)

/-- Run an SM_SAMPLE as far as the picks known from other modules allow (05 R237-R259). -/
def runSample (inst : EngineInst) (s : State) (c : Context) (r : Running) : Except CmdErr State := do
  let w := r.word
  let h := inst.half.getD .west
  let unit := 0x4000 + servingHalf s 4 h.num
  let fa := fld w 0x20 47 0
  let ba := fld w 0x28 47 0
  let seedDesc := indexDesc r 0x18
  mustBe inst (decide (1 ≤ mHops w) && decide (mHops w ≤ 8) && decide (mMode w ≤ 2) && fa != 0 && fa % 64 == 0 && ba != 0 && ba % 64 == 0 &&
    seedDesc.isSome)
  match c.graphs.find? (fun g => g.handle == fld w 0x10 23 0), seedDesc with
  | some g, some sd =>
    let bs ← memTry unit (readVa s c .rd fa 64)
    let f := decodeFanOut (mHops w) bs
    mustBe inst (fanOutOk c w g f)
    if sd.count 1 = 0 then pure (shareDone s inst r.ref)
    else
      let seeds ← memTry unit (readSeeds s c sd)
      let me := myNumber s
      let gen : PlaitState := match findProgress s r.ref with | some p => { key := p.plaitKey, bases := p.bases } | none => c.plaitState
      let x : Expander := { st := s, c := c, g := g, gen := gen, mode := mMode w, salt := f.salt, step := mStep w, aliases := f.aliases,
                            coil := c.coils.find? fun k => k.handle == f.coil, withWeights := f.ew }
      let b0 := numberSeeds s (namedHalf w) f g me seeds { used := 0x240 + 8 * f.limit }
      let b1 := { b0 with ends := [b0.nodes.length] }
      let res ← memTry unit (sampleHops x (namedHalf w) f r.ref me f.ks 1 b1)
      match res with
      | .inl b => writeBlock s c r inst unit seeds.length f b
      | .inr (hop, ms) =>
        match findGroup c f.group with
        | none => .error (errBad inst)
        | some grp => askOwners (markStarted s inst r.ref) c r h grp f hop (nthD 0 f.ks (hop - 1)) ms
  | _, _ => .error (errBad inst)

def execSmSample (h : Half) (s : State) : Host.Outcome State Fault Refusal :=
  .next (withRunning s (.sampler h) (fun w => cmdOpcode w == 0x30) (runSample (.sampler h)))

/-- Go on with an SM_SAMPLE whose requests have all been answered. -/
def resumeSample (s : State) (ref : CmdRef) : State :=
  if s.remoteReqs.any fun q => q.ref == ref && q.type == 0x08 then s
  else
    match s.engines.find? fun e => (e.running ++ e.suspended.flatMap fun p => p.2).any fun r => r.ref == ref, runningOfRef s ref with
    | some e, some r =>
      match findCtx s r.sess with
      | none => s
      | some c => match runSample e.inst s c r with | .ok s1 => armWaits s1 | .error err => faultCommand s ref err
    | _, _ => s

/-! ### Sampling for other modules (05 R259, R262; 11 Table 11.6) -/

/-- The graph that a context serves a group from: the one whose map it had set last when it joined (05 R262). -/
def servedGraph (c : Context) (g : Group) : Option Graph :=
  leastBy (fun a b => decide (b.mapOrder < a.mapOrder)) (c.graphs.filter fun x => x.ownership.isSome && decide (x.mapOrder ≤ g.order))

/-- The nodes of a request: node and hop. -/
def requestNodes (p : Packet) : List (Nat × Nat) :=
  (List.range (Nat.min 32 (p.data.length / 8))).map fun i => let v := fieldAt p.data (8 * i) 8; (v % 2 ^ 40, v / 2 ^ 48 % 16)

/-- One node of a request expanded here; what cannot be read is answered empty (log entry 23). -/
def serveNode (x : Expander) (me k : Nat) (n : Nat × Nat) : Expansion :=
  match nodeOwner me x.g n.1 with
  | .here i => match expandLocal x n.1 i n.2 k with | .ok e => e | .error _ => noEdges
  | _ => noEdges

/-- The data of a reply: 32 counts, then the picks. -/
def replyData (es : List Expansion) : List Byte :=
  ((List.range 32).flatMap fun i => leBytes 2 (match es[i]? with | some e => e.picks.length | none => 0)) ++
    es.flatMap fun e => e.picks.flatMap fun p =>
      leBytes 16 (p.nb + p.pos % 2 ^ 40 * 2 ^ 40 + p.rel % 256 * 2 ^ 80 + p.w.toNat * 2 ^ 96)

/-- The Sampler that serves other modules, West's or the one that does its work, is fenced (13 R644). -/
def samplerFenced (s : State) : Bool := unitResetting s (0x4000 + servingHalf s 4 0) || unitResetting s (servingHalf s 4 0)

/-- A sample request is served by the context of its group; a fenced Sampler refuses it (13 R644). -/
def sampleReq (s : State) (p : Packet) : State :=
  withPacket s p 0x08 fun s1 c g => withResident s1 p c fun s2 c =>
    if samplerFenced s2 then refusePacket s2 c.tenant p faultTargetFenced
    else
    let ns := requestNodes p
    let a := p.a.toNat
    let es : List Expansion :=
      match servedGraph c g with
      | none => ns.map fun _ => noEdges
      | some gr =>
        let x : Expander := { st := s2, c := c, g := gr, gen := c.plaitState, mode := a / 2 ^ 16 % 16, salt := a / 2 ^ 20 % 2 ^ 16,
                              step := p.step.toNat, aliases := 0, coil := none, withWeights := true }
        ns.map (serveNode x (myNumber s2) (a % 2 ^ 16))
    let fl := es.foldl (fun f e => f ||| e.fl) 0
    let s3 := setCtx (setFlags s2 c.sess engSampler fl) c.sess fun c => { c with fabricCtr := bump c.fabricCtr 10 1 }
    let s4 := (es.flatMap fun e => e.reads).foldl (fun st q => tally st c.sess 0 q.1 q.2) s3
    (sendMessage s4 c .west { newPacket s4 g 0x09 p.srcMod.toNat with msg := p.msg, step := p.step } (replyData es)).1

def execSampleReq (p : Packet) (s : State) : Host.Outcome State Fault Refusal := .next (sampleReq s p)

/-- The picks of each node of a reply. -/
def replyPicks (n : Nat) (bs : List Byte) : List (List (Nat × Nat × Nat × U32)) :=
  let counts := (List.range n).map fun i => fieldAt bs (2 * i) 2
  let starts := counts.foldl (fun (acc : List Nat × Nat) c => (acc.1 ++ [acc.2], acc.2 + c)) ([], 0)
  (starts.1.zip counts).map fun q => (List.range q.2).map fun i =>
    let v := fieldAt bs (64 + 16 * (q.1 + i)) 16
    (v / 2 ^ 40 % 2 ^ 40, v % 2 ^ 40, v / 2 ^ 80 % 256, BitVec.ofNat 32 (v / 2 ^ 96))

/-- A sample reply: its picks are kept, and the command goes on when no request of it is outstanding. A node answered empty
counts as UNREACHED (05 R262). -/
def sampleReply (s : State) (p : Packet) : State :=
  withPacket s p 0x09 fun s1 c _ =>
    match wholeMessage s1 p with
    | none => keepPacket s1 p
    | some (bs, s2) =>
      match s2.remoteReqs.find? fun q => q.sess == c.sess && q.type == 0x08 && q.msg == p.msg.toNat && q.peer == p.srcMod.toNat with
      | none => s2
      | some q =>
        let s3 := { s2 with remoteReqs := s2.remoteReqs.filter fun x => !(x.type == 0x08 && x.msg == q.msg) }
        if q.stopped then s3
        else
          let ps := q.items.zip (replyPicks q.items.length bs)
          let new := ps.map fun x => { ref := q.ref, hop := q.hop, node := x.1, picks := x.2, unreached := x.2.isEmpty : RemotePicks }
          resumeSample { s3 with remotePicks := s3.remotePicks ++ new } q.ref

def execSampleReply (p : Packet) (s : State) : Host.Outcome State Fault Refusal := .next (sampleReply s p)

end Sys2Proof.Machine
end

