-- ==== Sys2Proof/Machine/RimTensor.lean ====
section
/-! DEFINITION. RM_REDUCE, RM_CONVERT, RM_PRUNE and ALIAS_BUILD (chapters 04 and 08). -/

namespace Sys2Proof.Machine

/-- The other half has finished its share of a command. -/
def otherDone (s : State) (h : Half) (ref : CmdRef) : Bool :=
  match findProgress s ref with
  | some p => namesHalf p.halves h.other && (match h with | .west => p.eastDone | .east => p.westDone)
  | none => false

/-- A command that is not divided by elements: the half that comes to it first performs it, the other's share is empty. -/
def onceOp (h : Half) (f : State → Context → Running → Except CmdErr State) (s : State) (c : Context) (r : Running) : Except CmdErr State :=
  if otherDone s h r.ref then .ok (shareDone s (.rim h) r.ref)
  else (f s c r).map fun s1 => shareDone s1 (.rim h) r.ref

/-! ### RM_REDUCE (08 R402-R408) -/

/-- A piece of a destination: its header's fields (06 Table 6.7) and its values and winners. -/
structure Piece where
  dest : Nat
  edges : Nat
  seq : Nat
  count : Nat
  elems : Nat
  op : Nat
  h2 : Bool
  split : Bool
  step : Nat
  vals : List (U32 × Nat)

def readPiece (s : State) (c : Context) (va : Nat) (withVals : Bool) : Except MemErr Piece := do
  let b ← readVa s c .rd va 64
  let e := fieldAt b 0xC 2
  let op := fieldAt b 0xE 1 % 8
  let split := fieldAt b 0xE 1 / 16 % 2 == 1
  let vs ← if withVals ∧ split = true then readWords s c (va + 64) e else pure []
  let ws ← if withVals ∧ split = true ∧ opHasWin op = true then readWords s c (va + 64 + 4 * e) e else pure (vs.map fun _ => 0)
  pure { dest := fieldAt b 0 4, edges := fieldAt b 4 4, seq := fieldAt b 8 2, count := fieldAt b 0xA 2, elems := e, op := op,
         h2 := fieldAt b 0xE 1 / 8 % 2 == 1, split := split, step := fieldAt b 0x10 4, vals := (vs.zip ws).map fun p => (p.1, p.2.toNat) }

/-- The destinations of a list of records, each with its pieces in order; none when one is broken (08 R404). -/
def groupPieces : Nat → List Piece → Option (List (List Piece))
  | 0, _ => some []
  | _ + 1, [] => some []
  | fuel + 1, p :: t =>
    if p.split = false then groupPieces fuel t
    else
      let rest := t.take (p.count - 1)
      let ok := p.seq == 0 && decide (1 ≤ p.count) && rest.length + 1 == p.count &&
        ((List.range rest.length).zip rest).all fun q => q.2.split && q.2.dest == p.dest && q.2.seq == q.1 + 1 && q.2.count == p.count && q.2.h2 == p.h2
      if ok then (groupPieces fuel (t.drop (p.count - 1))).map fun r => (p :: rest) :: r else none

/-- ⊕ of 08 R405 over a row. -/
def combineRows (op : Nat) (a b : List (U32 × Nat)) : List (U32 × Nat) × Fl :=
  let rs := (a.zip b).map fun p =>
    if opHasWin op then pick (opIsMax op) p.1 p.2.1 p.2.2 else let r := midAdd p.1.1 p.2.1; ((r.1, p.1.2), r.2)
  (rs.map fun r => r.1, rs.foldl (fun f r => f ||| r.2) 0)

/-- One level of the fixed tree: adjacent pairs, an unpaired last piece unchanged. -/
def treeLevel (op : Nat) : List (List (U32 × Nat)) → List (List (U32 × Nat)) × Fl
  | a :: b :: t => let r := combineRows op a b; let q := treeLevel op t; (r.1 :: q.1, r.2 ||| q.2)
  | l => (l, 0)

def treeCombine (op : Nat) : Nat → List (List (U32 × Nat)) → List (U32 × Nat) × Fl
  | 0, l => (nthD [] l 0, 0)
  | n + 1, l => if l.length ≤ 1 then (nthD [] l 0, 0) else let r := treeLevel op l; let q := treeCombine op n r.1; (q.1, r.2 ||| q.2)

/-- The native combine or the fixed tree (08 R405). -/
def combine (op : Nat) (h2 : Bool) (l : List (List (U32 × Nat))) : List (U32 × Nat) × Fl :=
  if h2 then treeCombine op l.length l
  else match l with
    | [] => ([], 0)
    | x :: t => t.foldl (fun a b => let r := combineRows op a.1 b; (r.1, a.2 ||| r.2)) (x, 0)

/-- Apply a destination's combined value to its row, and its winners to the winner plane (08 R406). -/
def applyPieces (s : State) (c : Context) (d : Desc) (ps : List Piece) : Except MemErr (State × Fl × Nat) := do
  match ps with
  | [] => pure (s, 0, 0)
  | p :: _ =>
    let v := combine p.op p.h2 (ps.map fun q => q.vals)
    let rd := ps.foldl (fun f q => q.vals.foldl (fun g y => g ||| fvNf y.1) f) v.2
    let sum : ChunkSum := ⟨p.dest, v.1.map fun x => x.1, v.1.map fun x => x.2, sumNat (ps.map fun q => q.edges)⟩
    let va := toAddr (d.rowBase [p.dest, 0, 0, 0])
    let acc ← if opIsSet p.op then pure (List.replicate p.elems 0) else readWords s c va p.elems
    let r := applyOp p.op acc sum
    let s1 ← writeVa s c .wr va (wordsBytes r.1)
    let s2 := tally s1 c.sess 1 va (4 * p.elems)
    let bad := (sum.elems.filter fun x => !(fp32 x).isFin).length
    if opHasWin p.op then
      let wa := toAddr (d.rowBase [p.dest, 1, 0, 0])
      let old ← readWords s2 c wa p.elems
      let new := (old.zip r.2.1).map fun q => match q.2 with | some w => BitVec.ofNat 32 w | none => q.1
      let s3 ← writeVa s2 c .wr wa (wordsBytes new)
      pure (s3, rd ||| r.2.2, bad)
    else pure (s2, rd ||| r.2.2, bad)

/-- RECORDS mode (08 R403-R406). -/
def reduceRecords (h : Half) (s : State) (c : Context) (r : Running) : Except CmdErr State := do
  let w := r.word
  let inst := EngineInst.rim h
  let part := fld w 0x10 47 0
  let n := fld w 0x18 31 0
  match r.desc 0x20 with
  | none => .error (errBad inst)
  | some d =>
    mustBe inst (fld w 0x28 2 2 == 0 && d.fmt == 0 && d.stride 0 == 0 && !d.mx && (d.ndim == 2 || d.ndim == 3))
    if n = 0 then .ok (shareDone s inst r.ref)
    else
      let first ← memTry h.num (readPiece s c part false)
      let st := partStride first.elems
      let ps ← memTry h.num ((List.range n).mapM fun i => readPiece s c (part + i * st) true)
      mustBe inst (ps.all fun p => p.elems == first.elems && p.op == first.op && p.step == first.step)
      mustBe inst (d.count 0 == first.elems)
      mustBe inst (if opHasWin first.op then d.ndim == 3 && d.count 2 == 2 else true)
      match groupPieces n ps with
      | none => .error (errBad inst)
      | some gs =>
        mustBe inst (gs.all fun g => g.all fun p => decide (p.dest < d.count 1))
        let rowUnit := fun (e : Nat × List Nat) => (0, [nthD 0 e.2 0, 0, 0, 0])
        let mine := (halfElems d (bothHalves w) h rowUnit).filter fun e => e.1 == 0
        let rows := mine.map fun e => nthD 0 e.2 0
        let ours := gs.filter fun g => match g with | p :: _ => rows.contains p.dest | [] => false
        let q ← memTry h.num (ours.foldlM (fun (a : State × Fl × Nat) g => do
          let x ← applyPieces a.1 c d g
          pure (x.1, a.2.1 ||| x.2.1, a.2.2 + x.2.2)) (s, 0, 0))
        let s1 := bumpRim (setFlags (tally q.1 r.sess 0 part (n * st)) r.sess engRim q.2.1) r.sess 2 ours.length
        pure (shareDone (if fld w 0x28 3 3 = 1 then noteNonfinite s1 r.sess q.2.2 else s1) inst r.ref)

def execRmReduceRecords (h : Half) (s : State) : Host.Outcome State Fault Refusal :=
  .next (withRunning s (.rim h) (fun w => cmdOpcode w == 0x41 && fld w 0x28 1 0 == 0) (reduceRecords h))

/-- DENSE_SUM mode (08 R407). With no tensor the sum is +0. -/
def reduceDense (h : Half) (s : State) (c : Context) (r : Running) : Except CmdErr State := do
  let w := r.word
  let inst := EngineInst.rim h
  let part := fld w 0x10 47 0
  let n := fld w 0x18 31 0
  match r.desc 0x20 with
  | none => .error (errBad inst)
  | some d =>
    mustBe inst (d.fmt != 0xF)
    let f := alignUp (4 * d.size) 64
    let es := halfElems d (bothHalves w) h (blockUnit d)
    let vs ← memTry h.num (es.mapM fun e => do
      let xs ← (List.range n).mapM fun i => readWords s c (part + i * f + 4 * d.linear e.1 e.2) 1
      let v := combine 0 (fld w 0x28 2 2 == 1) (xs.map fun x => x.map fun y => (y, 0))
      let fl := xs.foldl (fun f x => x.foldl (fun g y => g ||| fvNf y) f) v.2
      pure ((match v.1 with | [] => (0, fl) | p :: _ => (p.1, fl)) : FV))
    let q ← memTry h.num (storeElems s c .wr d false (Num.ofNat 1) ((es.zip vs).map fun x => (x.1, (fp32 x.2.1, Round.nearest))))
    let s1 := (List.range n).foldl (fun st i => tallyRuns st r.sess 0 (es.flatMap fun e => (List.range 4).map fun k => part + i * f + 4 * d.linear e.1 e.2 + k)) q.st
    let s2 := setFlags (tallyElems s1 r.sess 1 d es) r.sess engRim (flOr vs ||| q.fl)
    let bad := (vs.filter fun v => !(fp32 v.1).isFin).length
    pure (shareDone (if fld w 0x28 3 3 = 1 then noteNonfinite s2 r.sess bad else s2) inst r.ref)

def execRmReduceDenseSum (h : Half) (s : State) : Host.Outcome State Fault Refusal :=
  .next (withRunning s (.rim h) (fun w => cmdOpcode w == 0x41 && fld w 0x28 1 0 == 1) (reduceDense h))

/-! ### RM_CONVERT (04 R207-R224) -/

/-- The strays of a tile: those of largest magnitude, at most 15, and how many candidates were turned away (04 R220). Each is
(KIDX, COL, value). -/
def chooseStrays (thresh : Num) (es : List ((Nat × List Nat) × Num)) : List (Nat × Nat × Num) × Nat :=
  let cand := (es.filter fun e => thresh.lt e.2.abs).map fun e => (e.1.1 % 32, nthD 0 e.1.2 0 % 32, e.2)
  let bySize := sortBy (fun (a b : Nat × Nat × Num) => b.2.2.abs.lt a.2.2.abs || (!(a.2.2.abs.lt b.2.2.abs) &&
    (decide (a.1 < b.1) || (a.1 == b.1 && decide (a.2.1 < b.2.1))))) cand
  (sortBy (fun a b => decide (a.1 * 32 + a.2.1 < b.1 * 32 + b.2.1)) (bySize.take 15), cand.length - 15)

/-- The stray block of a tile (04 Tables 4.10, 4.11), with the flags of rounding to BF16. -/
def strayBlock (ss : List (Nat × Nat × Num)) : List Byte × Fl :=
  let rs := ss.map fun x =>
    let k := fmtBf16.encode .nearest false x.2.2
    (k.code * 65536 + x.2.1 * 32 + x.1, k.fl)
  let body := (rs.flatMap fun r => leBytes 4 r.1) ++ List.replicate (60 - 4 * rs.length) 0
  ([BitVec.ofNat 8 ss.length, BitVec.ofNat 8 (crc8 body), 0, 0] ++ body, rs.foldl (fun a r => a ||| r.2) 0)

/-- Merge what a command converted into a scale record (04 R209, R210). -/
def mergeRecord (s : State) (c : Context) (a : Nat) (amax : U32) (sat strays spill : Nat) : Except MemErr State := do
  let b ← readVa s c .rd a 32
  let old := BitVec.ofNat 32 (fieldAt b 0xC 4)
  let cnt := fun off n => leBytes 4 (Nat.min 0xFFFFFFFF (fieldAt b off 4 + n))
  writeVa s c .wr (a + 0xC) (leBytes 4 (if (fp32 old).lt (fp32 amax) then amax else old).toNat ++ cnt 0x10 sat ++ cnt 0x14 strays ++ cnt 0x18 spill)

def convertRound (s : State) (ref : CmdRef) (w : BitVec 512) (d : Desc) (e : Nat × List Nat) : Round :=
  match fld w 0x28 1 0 with
  | 0 => .nearest
  | 1 =>
    match findProgress s ref with
    | some q => .stochastic (({ key := q.plaitKey, bases := q.bases } : PlaitState).dense d.base (fld w 0x38 31 0) (d.linear e.1 e.2)).toNat
    | none => .nearest
  | _ => .zero

/-- RM_CONVERT on a half. -/
def convertStream (h : Half) (s : State) (c : Context) (r : Running) : Except CmdErr State := do
  let w := r.word
  let inst := EngineInst.rim h
  match r.desc 0x10, r.desc 0x18 with
  | some a, some d =>
    let sa := fld w 0x20 47 0
    let stray := fld w 0x30 47 0
    let thresh := fmtBf16.decode (fld w 0x30 63 48)
    mustBe inst (a.sameShape d && a.fmt != 0xF && d.fmt != 0xF && sa % 32 == 0)
    mustBe inst (stray == 0 || ((d.fmt == 7 || d.fmt == 8 || d.fmt == 0xA || d.fmt == 0xB || d.fmt == 0xC) && d.tile0 == 32 && d.tile1 == 32 &&
      thresh.isFin && !thresh.isNeg && !thresh.isZero))
    let q ← if sa = 0 then pure (0x3F800000 : U32) else (memTry h.num (readWords s c (sa + 8) 1)).map fun l => nthD 0 l 0
    let tileOf := fun (e : Nat × List Nat) => (e.1 / 32, match e.2 with | i :: t => i / 32 :: t | [] => [])
    let unit := fun (e : Nat × List Nat) => if stray ≠ 0 then tileOf e else blockUnit d e
    let es := halfElems d (bothHalves w) h unit
    let xs ← memTry h.num (es.mapM fun e => (readElem s c .rd a e.1 e.2).map fun v => (e, (toFp32 v.1).1, v.2))
    let amax := amaxFold (xs.map fun x => x.2.1) 0
    let tiles := if stray = 0 then [] else
      ((List.range d.tiles.length).zip d.tiles).filterMap fun t =>
        let key := (t.2.1 / 32, t.2.2.1 / 32 :: t.2.2.2)
        let mine := xs.filter fun x => tileOf x.1 == key
        if mine.isEmpty then none else some (t.1, key, chooseStrays thresh (mine.map fun x => (x.1, fp32 x.2.1)))
    let isStray := fun (e : Nat × List Nat) =>
      match tiles.find? fun t => t.2.1 == tileOf e with
      | some t => t.2.2.1.any fun k => k.1 == e.1 % 32 && k.2.1 == nthD 0 e.2 0 % 32
      | none => false
    let vals := xs.map fun x => (x.1, (if isStray x.1 then Num.zero else fp32 x.2.1, convertRound s r.ref w d x.1))
    let o ← memTry h.num (storeElems s c .wr d (fld w 0x28 2 2 == 1) (fp32 q) vals)
    let s1 ← memTry h.num (tiles.foldlM (fun (st : State × Fl) t => do
      let b := strayBlock t.2.2.1
      let s' ← writeVa st.1 c .wr (stray + 64 * t.1) b.1
      pure (tally s' r.sess 1 (stray + 64 * t.1) 64, st.2 ||| b.2)) (o.st, 0))
    let written := sumNat (tiles.map fun t => t.2.2.1.length)
    let spill := sumNat (tiles.map fun t => t.2.2.2)
    let s2 ← if sa = 0 then pure s1.1 else memTry h.num (mergeRecord s1.1 c sa amax o.sat written spill)
    let fl := xs.foldl (fun f x => f ||| x.2.2) (o.fl ||| s1.2 ||| fvNf q)
    let s3 := setFlags (tallyElems (tallyElems s2 r.sess 0 a es) r.sess 1 d es) r.sess engRim fl
    pure (shareDone s3 inst r.ref)
  | _, _ => .error (errBad inst)

def execRmConvert (h : Half) (s : State) : Host.Outcome State Fault Refusal :=
  .next (withRunning s (.rim h) (fun w => cmdOpcode w == 0x42) (convertStream h))

/-! ### RM_PRUNE (08 R419, R420) -/

/-- The k elements of largest magnitude of a group, ascending; a NaN counts as larger than any number (08 R419). -/
def keptOf (k : Nat) (xs : List Num) : List Nat :=
  let big := fun (a b : Num) => if a = .nan then b ≠ .nan else if b = .nan then false else b.abs.lt a.abs
  let ranked := sortBy (fun (a b : Nat × Num) => big a.2 b.2 || (!big b.2 a.2 && decide (a.1 < b.1))) ((List.range xs.length).zip xs)
  sortBy (fun a b => decide (a < b)) ((ranked.take k).map fun p => p.1)

/-- A weight stream for pruning has the shape of 07 R349. -/
def weightShape (d : Desc) : Bool :=
  d.ndim == 4 && d.count 0 == 32 && d.count 1 == 32 && d.tile0 == 32 && d.tile1 == 32 && d.stride 0 == 0 && operandFmt d.fmt &&
    d.stride 1 == (bytes32 d.fmt : Int)

/-- The metadata record of a tile (07 Table 7.4). -/
def metaRecord (cls k kt nt : Nat) (idx : List (List Nat)) : List Byte :=
  let rest := leBytes 2 0 ++ leBytes 2 kt ++ leBytes 2 nt ++ [BitVec.ofNat 8 k] ++ List.replicate 7 0 ++
    idx.flatMap fun l => l.map fun i => BitVec.ofNat 8 i
  let b0 : Byte := BitVec.ofNat 8 cls
  b0 :: BitVec.ofNat 8 (crc8 (b0 :: rest)) :: rest

/-- The kept elements of a tile in the format of the output, packed, and their scales for an MX stream. -/
def packKept (d : Desc) (cols : List (List Num)) : List Byte × List Byte × Fl :=
  if d.mx then
    let es := cols.map fun c => mxEncode d.fmt (c.map fun x => (x, Round.nearest))
    (packCodes d.fmt (es.flatMap fun e => e.2.1), es.map (fun e => BitVec.ofNat 8 e.1), es.foldl (fun f e => f ||| e.2.2.1) 0)
  else
    let ks := cols.flatten.map fun x => convert d.fmt .nearest false (Num.ofNat 1) x
    (packCodes d.fmt (ks.map fun k => k.code), [], ks.foldl (fun f k => f ||| k.fl) 0)

/-- One tile pruned: class bumped, metadata and kept elements written. -/
def pruneTile (s : State) (c : Context) (a d : Desc) (metaAddr k kt nt : Nat) : Except MemErr (State × Fl) := do
  let cols ← (List.range 32).mapM fun n => readElems s c a ((List.range 32).map fun i => (i, [n, kt, nt, 0]))
  let xs := cols.map fun x => x.1
  let fl := cols.foldl (fun f x => f ||| x.2 ||| (if x.1.any fun v => v == .nan then flNV else 0)) 0
  let t := kt + a.count 2 * nt
  let va := metaAddr + t * (16 + 32 * k)
  if xs.all fun l => l.all fun x => x.isZero then
    let s1 ← writeVa s c .wr va (metaRecord 0 0 kt nt [])
    pure (bumpRim (tally s1 c.sess 1 va 16) c.sess 3 1, fl)
  else
    let idx := xs.map (keptOf k)
    let kept := (idx.zip xs).map fun p => p.1.map fun i => nthD Num.zero p.2 i
    let b := packKept d kept
    let cls := if k = 4 then 1 else if k = 8 then 2 else 3
    let s1 ← writeVa s c .wr va (metaRecord cls k kt nt idx)
    let slot := toAddr (d.rowBase [0, kt, nt, 0])
    let s2 ← writeVa s1 c .wr slot b.1
    let s3 ← if d.mx then writeVa s2 c .wr (d.scaleBase + 32 * t) b.2.1 else pure s2
    pure (bumpRim (tally (tally s3 c.sess 1 va (16 + 32 * k)) c.sess 1 slot b.1.length) c.sess 4 1, fl ||| b.2.2)

/-- RM_PRUNE on a half: its blocks are whole tiles. -/
def pruneStream (h : Half) (s : State) (c : Context) (r : Running) : Except CmdErr State := do
  let w := r.word
  let inst := EngineInst.rim h
  match r.desc 0x10, r.desc 0x28 with
  | some a, some d =>
    mustBe inst (weightShape a && weightShape d && a.sameShape d)
    let n := a.count 2 * a.count 3
    let cut := ceilDiv (ceilDiv n 8) 2 * 8
    let ts := if bothHalves w then (if h = .west then (List.range n).take cut else (List.range n).drop cut) else List.range n
    let k := nthD 4 [4, 8, 16] (fld w 0x20 1 0)
    let q ← memTry h.num (ts.foldlM (fun (x : State × Fl) t => do
      let y ← pruneTile x.1 c a d (fld w 0x18 47 0) k (t % Nat.max 1 (a.count 2)) (t / Nat.max 1 (a.count 2))
      pure (y.1, x.2 ||| y.2)) (s, 0))
    let s1 := ts.foldl (fun st t => tally st r.sess 0 (toAddr (a.rowBase [0, t % Nat.max 1 (a.count 2), t / Nat.max 1 (a.count 2), 0])) (packedBytes a.fmt 1024)) q.1
    pure (shareDone (setFlags s1 r.sess engRim q.2) inst r.ref)
  | _, _ => .error (errBad inst)

def execRmPrune (h : Half) (s : State) : Host.Outcome State Fault Refusal :=
  .next (withRunning s (.rim h) (fun w => cmdOpcode w == 0x44) (pruneStream h))

/-! ### ALIAS_BUILD (08 R399-R401) -/

structure Vose where
  small : List Nat
  large : List Nat
  p : List U32
  entries : List (Nat × U32 × Nat)
  fl : Fl

/-- The pairing loop of 08 R401. -/
def voseLoop : Nat → Vose → Vose
  | 0, v => v
  | n + 1, v =>
    match v.small, v.large with
    | s :: st, l :: lt =>
      let a := FV.sub (FV.add (nthD 0 v.p l, 0) (nthD 0 v.p s, 0)) (0x3F800000, 0)
      let p := modifyAt (fun _ => a.1) l v.p
      let below := (fp32 a.1).lt (Num.ofNat 1)
      voseLoop n { small := if below then st ++ [l] else st, large := if below then lt else l :: lt, p := p,
                   entries := (s, nthD 0 v.p s, l) :: v.entries, fl := v.fl ||| a.2 }
    | _, _ => v

/-- PROB of an entry: a fraction of 2^32. -/
def probWord (p : U32) : Nat :=
  match fp32 p with
  | .fin false m e => if (Num.ofNat 1).lt (fp32 p) || (Num.ofNat 1).same (fp32 p) then 0xFFFFFFFF else m * pow2Num (e + 32) / pow2Den (e + 32)
  | _ => 0

/-- The table of a node, or none when its weights sum to 0, with the flags (08 R401). -/
def voseTable (ws : List U32) : Option (List Byte) × Fl :=
  match ws with
  | [] => (none, 0)
  | w :: t =>
    let sum := fsumFrom w t
    if (fp32 sum.1).isZero then (none, sum.2)
    else
      let d := fofNat ws.length
      let ps := ws.map fun x => FV.div (FV.mul (x, 0) (d, 0)) (sum.1, 0)
      let pos := List.range ws.length
      let isSmall := fun i => (fp32 (nthD (0, 0) ps i).1).lt (Num.ofNat 1)
      let v := voseLoop ws.length { small := pos.filter isSmall, large := pos.filter fun i => !isSmall i, p := ps.map fun p => p.1, entries := [],
                                    fl := ps.foldl (fun f p => f ||| p.2) sum.2 }
      let entry := fun i => match v.entries.find? fun e => e.1 == i with
        | some e => leBytes 4 (probWord e.2.1) ++ leBytes 4 e.2.2
        | none => leBytes 4 0xFFFFFFFF ++ leBytes 4 i
      (some (pos.flatMap entry), v.fl)

/-- Where a build stands: the state, the bytes used, tables built, nodes of no weight, the flags, and whether it has stopped. -/
structure Build where
  st : State
  used : Nat
  built : Nat
  zero : Nat
  fl : Fl
  stopped : Bool

/-- One node of a build. -/
def buildNode (c : Context) (g : Graph) (minDegree ptr area room : Nat) (b : Build) (i : Nat) : Except MemErr Build := do
  let lo ← readNat b.st c (g.offsets + 8 * i) 8
  let hi ← readNat b.st c (g.offsets + 8 * i + 8) 8
  let d := hi - lo
  let none' := fun (b : Build) => do
    let s1 ← writeVa b.st c .wr (ptr + 8 * i) (leBytes 8 0)
    pure { b with st := s1 }
  if b.stopped ∨ d < minDegree ∨ d = 0 then none' b
  else
    let ws ← (List.range d).mapM fun k => readNat b.st c (g.weights + 4 * (lo + k)) 4
    let ts := ws.map fun w => treatWeight (BitVec.ofNat 32 w)
    let t := voseTable (ts.map fun x => x.1)
    let fl := ts.foldl (fun f x => f ||| x.2) (b.fl ||| t.2)
    match t.1 with
    | none => none' { b with zero := b.zero + 1, fl := fl }
    | some bytes =>
      if room < b.used + 8 * d then none' { b with stopped := true }
      else
        let s1 ← writeVa b.st c .wr (area + b.used) bytes
        let s2 ← writeVa s1 c .wr (ptr + 8 * i) (leBytes 8 (area + b.used))
        pure { b with st := tally s2 c.sess 1 (area + b.used) (8 * d), used := b.used + 8 * d, built := b.built + 1, fl := fl }

def aliasBuild (h : Half) (s : State) (c : Context) (r : Running) : Except CmdErr State := do
  let w := r.word
  let inst := EngineInst.rim h
  let rec' := fld w 0x28 47 0
  mustBe inst (fld w 0x10 47 0 == 0 && fld w 0x10 50 48 == 0 && fld w 0x18 47 0 == 0 && fld w 0x18 50 48 == 0 && rec' != 0 && rec' % 64 == 0)
  let b ← memTry h.num (readVa s c .rd rec' 64)
  match c.graphs.find? fun g => g.handle == fieldAt b 0 3 with
  | none => .error (errBad inst)
  | some g =>
    let first := fieldAt b 4 4
    let count := fieldAt b 8 4
    let min := if fieldAt b 0xC 4 = 0 then 65 else fieldAt b 0xC 4
    let area := fieldAt b 0x18 6
    mustBe inst (g.weights != 0 && decide (first + count ≤ g.nodes) && area % 8 == 0)
    let x ← memTry h.num (((List.range count).map fun i => first + i).foldlM (buildNode c g min (fieldAt b 0x10 6) area (fieldAt b 0x20 8))
      { st := s, used := 0, built := 0, zero := 0, fl := 0, stopped := false })
    let s1 ← memTry h.num (writeVa x.st c .wr (rec' + 0x28) (leBytes 4 x.built ++ leBytes 4 x.zero ++ leBytes 8 x.used))
    pure (bumpRim (setFlags s1 r.sess engRim x.fl) r.sess 15 x.built)

def execAliasBuild (h : Half) (s : State) : Host.Outcome State Fault Refusal :=
  .next (withRunning s (.rim h) (rimSel 0x500) (onceOp h (aliasBuild h)))

end Sys2Proof.Machine
end

