-- ==== Sys2Proof/Machine/PoolService.lean ====
section
/-! DEFINITION. Remote pool service: rows, bags and contributions of other modules, replicas, refusals and the timeouts of
remote requests (chapters 06, 08, 09 and 11). -/

namespace Sys2Proof.Machine

def faultTimeoutColl : Nat := 0x0005

/-- The collective timeout of a group, in ns (11 R573). -/
def Group.timeoutNs (g : Group) : Nat := g.timeoutMs * 10 ^ 6

/-! ### Serving rows at their owner (09 R491; 08 R428) -/

/-- What the owner of a row can answer. -/
inductive Served where
  | bytes (bs : List Byte)
  | refuse (code : Nat)
  | wait (forStep : Bool)
  deriving DecidableEq, Repr

/-- The address that serves a row here, for the counters. -/
def rowVa (t : Table) (idx : Nat) : Nat :=
  match findWay t idx with
  | some w => wayVa t w
  | none => t.recordVa idx

/-- The row that a pool address names at its owner, n bytes of it: the committed version after the hold of 08 R428 and the
promotion of 09 R485. A row that memory has lost is refused (log entry 24). -/
def serveRow (s : State) (c : Context) (pool step n : Nat) : State × Served :=
  match findTable c (poolTable pool) with
  | none => (s, .refuse faultTranslation)
  | some t =>
    match ownerOf (myNumber s) t.ownership t.rows (poolRow pool) with
    | .here idx =>
      if lookupHeld c t step then (s, .wait true)
      else if t.tier.isSome then
        match findWay t idx with
        | some w =>
          let s1 := setTier s c.sess t.handle fun x => { x with ways := touchWays idx x.ways }
          (tally (setCtx s1 c.sess fun c => { c with memCtr := bump c.memCtr 5 1 }) c.sess 0 (wayVa t w) n, .bytes (rowPrefix t n w.committed))
        | none => (startPromotion s c.sess t idx, .wait false)
      else if (plainPoison s c t idx).isSome then (s, .refuse faultTranslation)
      else (tally s c.sess 0 (t.recordVa idx) n, .bytes (rowPrefix t n (plainRecord s c t idx)))
    | _ => (s, .bytes (rowPrefix t n t.defaultRow))

/-- Serve rows in turn; the first refusal or wait decides, with every promotion they need asked for. -/
def serveRows (step n : Nat) : List Nat → State → U32 → State × Served × List (List Byte)
  | [], s, _ => (s, .bytes [], [])
  | w :: ws, s, sess =>
    match findCtx s sess with
    | none => (s, .refuse faultTranslation, [])
    | some c =>
      let r := serveRow s c w step n
      let q := serveRows step n ws r.1 sess
      match r.2 with
      | .bytes b => (q.1, q.2.1, b :: q.2.2)
      | .refuse k => (q.1, .refuse k, [])
      | .wait f => (q.1, (match q.2.1 with | .refuse k => .refuse k | .wait g => .wait (f || g) | .bytes _ => .wait f), [])

/-- Keep a lookup until its rows can be served. -/
def holdLookup (s : State) (h : HeldLookup) : State :=
  { s with heldLookups := s.heldLookups ++ [h] }

/-- Answer a row request. -/
def serveRowReq (s : State) (c : Context) (g : Group) (h : HeldLookup) : State :=
  let p := h.pkt
  let r := serveRow s c p.a.toNat p.step.toNat (p.b.toNat % 8192)
  match r.2 with
  | .refuse k => refusePacket r.1 c.tenant p k
  | .wait f => holdLookup r.1 { h with forStep := f }
  | .bytes bs =>
    let s1 := setCtx r.1 c.sess fun c => { c with memCtr := bump c.memCtr 8 1, fabricCtr := bump c.fabricCtr 10 1 }
    (sendFrom s1 c .west { newPacket s1 g 0x05 p.srcMod.toNat with msg := p.msg, step := p.step, data := bs }).1

/-- The rows of a bag request, as pool addresses: a row index of 8 B each, of the table in A. -/
def bagWords (p : Packet) : List Nat :=
  (List.range (p.data.length / 8)).map fun i => p.a.toNat % 2 ^ 24 * 2 ^ 40 + poolRow (fieldAt p.data (8 * i) 8)

/-- Answer a bag request with the FP32 sum of its rows in order (06 R295). -/
def serveBagReq (s : State) (c : Context) (g : Group) (h : HeldLookup) : State :=
  let p := h.pkt
  match findTable c (p.a.toNat % 2 ^ 24) with
  | none => refusePacket s c.tenant p faultTranslation
  | some t =>
    let r := serveRows p.step.toNat t.rowBytes (bagWords p) s c.sess
    match r.2.1 with
    | .refuse k => refusePacket r.1 c.tenant p k
    | .wait f => holdLookup r.1 { h with forStep := f }
    | .bytes _ =>
      let vs := r.2.2.map fun b => rowElems t.fmt t.elems b
      let sum := sumRows (vs.map fun v => v.1)
      let fl := vs.foldl (fun a v => a ||| v.2) sum.2
      let s1 := setCtx (setFlags r.1 c.sess engSplints fl) c.sess fun c =>
        { c with memCtr := bump c.memCtr 9 1, fabricCtr := bump c.fabricCtr 10 1 }
      (sendMessage s1 c .west { newPacket s1 g 0x07 p.srcMod.toNat with msg := p.msg, step := p.step } (wordsBytes sum.1)).1

def serveLookup (s : State) (c : Context) (g : Group) (h : HeldLookup) : State :=
  if h.pkt.type = 0x04 then serveRowReq s c g h else serveBagReq s c g h

/-- A lookup held for a step is counted (08 Table 8.9). -/
def countHeld (before after : State) (sess : U32) : State :=
  let n := fun (st : State) => (st.heldLookups.filter fun h => h.sess == sess && h.forStep).length
  setCtx after sess fun c => { c with rimCtr := bump c.rimCtr 12 (n after - n before) }

def rowReq (s : State) (p : Packet) : State :=
  withPacket s p 0x04 fun s1 c g => withResident s1 p c fun s2 c =>
    countHeld s2 (serveRowReq s2 c g { sess := c.sess, pkt := p, since := s.now, forStep := false }) c.sess

def execRowReq (p : Packet) (s : State) : Host.Outcome State Fault Refusal := .next (rowReq s p)

def bagReq (s : State) (p : Packet) : State :=
  withPacket s p 0x06 fun s1 c g => withResident s1 p c fun s2 c =>
    match wholeMessage s2 p with
    | none => keepPacket s2 p
    | some (bs, s3) =>
      countHeld s3 (serveBagReq s3 c g { sess := c.sess, pkt := { p with data := bs, index := 0, packets := 1, last := true },
                                         since := s.now, forStep := false }) c.sess

def execBagReq (p : Packet) (s : State) : Host.Outcome State Fault Refusal := .next (bagReq s p)

/-! ### Releasing what was held (08 R428; 09 R486) -/

/-- Issue again a request of this module that was held, in its place. -/
def reissueHeld (s : State) (r : Request) : State :=
  match findCtx s r.sess with
  | none => s
  | some c =>
    match findTable c r.table with
    | none => s
    | some t =>
      if lookupHeld c t r.step then s
      else
        let s1 := { s with requests := s.requests.filter fun q => q.id != r.id }
        let i : Issue := { ref := r.ref, sess := r.sess, splint := r.splint, step := r.step, position := r.position, dest := r.dest }
        let s2 := issueLocal s1 c i t r.row r.bytes
        let k := newRequests s1 s2
        if r.stopped then { s2 with requests := mapIf (fun q => s1.nextUid ≤ q.id) (fun q => { q with stopped := true }) s2.requests }
        else addOutstanding s2 r.ref (Request.key r) (k - 1)

/-- Serve every lookup of a context that no longer waits. -/
def releaseHeld (s : State) (sess : U32) : State :=
  let mine := s.heldLookups.filter fun h => h.sess == sess
  let s1 := { s with heldLookups := s.heldLookups.filter fun h => h.sess != sess }
  let s2 := mine.foldl (fun st h =>
    match findCtx st sess with
    | none => st
    | some c =>
      match c.groups.find? fun g => g.gid == h.pkt.groupId.toNat && g.jobTag == h.pkt.jobTag with
      | none => st
      | some g => serveLookup st c g h) s1
  (s2.requests.filter fun r => r.sess == sess && r.state == .held).foldl reissueHeld s2

/-! ### Replies (06 R290, R291; 11 R566) -/

/-- The request of this module that a reply answers. -/
def requestOf (s : State) (sess : U32) (p : Packet) : Option Request :=
  s.requests.find? fun r => r.sess == sess && r.state == .remote && r.id % 2 ^ 32 == p.msg.toNat && r.owner == p.srcMod.toNat

/-- A reply to a request of an older incarnation of its sender is dropped and counted (11 R566, 13 R645). -/
def staleReply (s : State) (target : Byte) (owner : Nat) : Bool := target != incarnOfModule s owner

def countStale (s : State) (sess : U32) : State := setCtx s sess fun c => { c with fabricCtr := bump c.fabricCtr 15 1 }

def rowReply (s : State) (p : Packet) : State :=
  withPacket s p 0x05 fun s1 c _ =>
    match requestOf s1 c.sess p with
    | none => s1
    | some r =>
      if staleReply s1 r.targetIncarn r.owner then countStale s1 c.sess
      else deliver s1 { r with state := .returned, data := p.data, bytes := p.data.length }

def execRowReply (p : Packet) (s : State) : Host.Outcome State Fault Refusal := .next (rowReply s p)

/-- FP32 words of a byte string. -/
def bytesWords (bs : List Byte) : List U32 := (List.range (bs.length / 4)).map fun i => BitVec.ofNat 32 (fieldAt bs (4 * i) 4)

/-- An owner's sum of a bag (06 R295). -/
def takeBag (s : State) (r : Request) (bag : Nat) (bs : List Byte) : State :=
  let s1 := { s with requests := s.requests.filter fun q => q.id != r.id }
  if r.stopped then bumpSplint s1 r.sess 11 1
  else
    let s2 := setJob s1 r.ref fun j => { j with sums := j.sums ++ [(bag, r.owner, bytesWords bs)] }
    let a := answered s2 r.ref bag
    if a.2 then rowComplete a.1 r else a.1

def bagReply (s : State) (p : Packet) : State :=
  withPacket s p 0x07 fun s1 c _ =>
    match wholeMessage s1 p with
    | none => keepPacket s1 p
    | some (bs, s2) =>
      match requestOf s2 c.sess p with
      | none => s2
      | some r =>
        if staleReply s2 r.targetIncarn r.owner then countStale s2 c.sess
        else match r.dest with
          | .bag b _ _ _ => takeBag s2 r b bs
          | _ => s2

def execBagReply (p : Packet) (s : State) : Host.Outcome State Fault Refusal := .next (bagReply s p)

/-! ### Contributions (09 R494-R497, 11 R581) -/

/-- Tell a sender that its contribution is stored. -/
def sendAccept (s : State) (c : Context) (g : Group) (dst : Nat) (msg step : Nat) : State :=
  (sendFrom s c .west { newPacket s g 0x10 dst with msg := BitVec.ofNat 32 msg, step := BitVec.ofNat 32 step }).1

def contrib (s : State) (p : Packet) : State :=
  withPacket s p 0x0A fun s1 c g => withResident s1 p c fun s2 c =>
    match findTable c (poolTable p.a.toNat) with
    | none => refusePacket s2 c.tenant p faultTranslation
    | some t =>
      match ownerOf (myNumber s2) t.ownership t.rows (poolRow p.a.toNat) with
      | .here idx =>
        if t.optimiser = 0 then sendAccept s2 c g p.srcMod.toNat p.msg.toNat p.step.toNat
        else
          let x : Contribution := { table := t.handle, row := idx, step := p.step.toNat, sender := p.srcMod.toNat, seq := p.msg.toNat,
                                    grad := bytesWords p.data }
          let r := storeContribution s2 c.sess x p.jobTag p.groupId.toNat none
          if r.2 then sendAccept r.1 c g p.srcMod.toNat p.msg.toNat p.step.toNat else r.1
      | _ => sendAccept s2 c g p.srcMod.toNat p.msg.toNat p.step.toNat

def execContrib (p : Packet) (s : State) : Host.Outcome State Fault Refusal := .next (contrib s p)

/-- One contribution fewer that a command waits for. -/
def contribDone (s : State) (ref : CmdRef) : State :=
  finishJob (setJob s ref fun j => { j with contribsDue := j.contribsDue - 1 }) ref

/-- The oldest contribution that waits for the store is stored once it fits (09 R496): its sender is told, or the local
command goes on. -/
def contribStoreWaitDone (s : State) (sess : U32) : State :=
  match findCtx s sess with
  | none => s
  | some c =>
    match c.waiting with
    | [] => s
    | w :: rest =>
      if storeRoom c w.item then
        let s1 := setCtx s sess fun c => { c with waiting := rest, contributions := c.contributions ++ [w.item], memCtr := bump c.memCtr 10 1 }
        match w.ref, c.groups.find? fun g => g.gid == w.gid && g.jobTag == w.jobTag with
        | some ref, _ => contribDone s1 ref
        | none, some g => sendAccept s1 c g w.item.sender w.item.seq w.item.step
        | none, none => s1
      else s

def execContribStoreWaitDone (sess : U32) (s : State) : Host.Outcome State Fault Refusal := .next (contribStoreWaitDone s sess)

def isContribFor (sess : U32) (p : Packet) (q : RemoteReq) : Bool :=
  q.sess == sess && q.type == 0x0A && q.msg == p.msg.toNat && q.peer == p.srcMod.toNat && q.hop == p.step.toNat

/-- ACCEPT: the owner holds the contribution (11 R581). -/
def acceptPacket (s : State) (p : Packet) : State :=
  withPacket s p 0x10 fun s1 c _ =>
    match s1.remoteReqs.find? (isContribFor c.sess p) with
    | none => s1
    | some q =>
      if staleReply s1 q.targetIncarn q.peer then countStale s1 c.sess
      else
        let s2 := { s1 with remoteReqs := s1.remoteReqs.erase q }
        if q.stopped then s2 else contribDone s2 q.ref

def execAccept (p : Packet) (s : State) : Host.Outcome State Fault Refusal := .next (acceptPacket s p)

/-- The group that a request of this module names. -/
def groupOfReq (s : State) (sess : U32) (handle : Nat) : Option Group := (findCtx s sess).bind fun c => findGroup c handle

/-- A remote contribution of a command on a half's Splints that the owner has not accepted within the pool group's timeout
ends the command's list with TIMEOUT_COLL (09 R496). -/
def contribTimeout (s : State) (h : Half) : State :=
  let late := fun (q : RemoteReq) => q.type == 0x0A && !q.stopped &&
    ((findEngine s (.splints h)).running.any fun r => r.ref == q.ref) &&
    (match groupOfReq s q.sess q.group with | some g => decide (q.sentAt + g.timeoutNs ≤ s.now) | none => true)
  match s.remoteReqs.find? late with
  | none => s
  | some q => faultCommand s q.ref (.group faultTimeoutColl (myNumber s) h.num)

def execContribAcceptTimeout (h : Half) (s : State) : Host.Outcome State Fault Refusal := .next (contribTimeout s h)

/-! ### Replicas (09 R498, R499; 11 R582) -/

def bumpTriple (a b : Nat) (l : List (Nat × Nat × Nat)) : List (Nat × Nat × Nat) :=
  if l.any fun x => x.1 == a && x.2.1 == b then mapIf (fun x => x.1 == a && x.2.1 == b) (fun x => (x.1, x.2.1, x.2.2 + 1)) l
  else l ++ [(a, b, 1)]

/-- The elements of a row from its owner, over the record this member holds; the stored state stays (09 R500). -/
def replicaRecord (t : Table) (rec data : List Byte) : List Byte := data.take t.rowBytes ++ rec.drop (data.take t.rowBytes).length

/-- A replica write is a provisional write of its step at this member's copy (09 R498): it waits while another step is pending
(08 R425), while a granule or way it would write is not settled (R439), and for the promotion of a row of a tiered table. One of
a decided step is dropped. -/
def replicaWrite (s : State) (p : Packet) : State :=
  withPacket s p 0x0B fun s1 c _ => withResident s1 p c fun s2 c =>
    match findTable c (poolTable p.a.toNat) with
    | none => refusePacket s2 c.tenant p faultTranslation
    | some t =>
      let step := p.step.toNat
      let counted := fun (st : State) => setCtx st c.sess fun c => { c with replicaApplied := bumpTriple p.srcMod.toNat step c.replicaApplied }
      let mark := fun (st : State) => setCtx st c.sess fun c => { c with rim := { c.rim with pending := step } }
      if stepDecided c step then counted s2
      else if c.rim.pending ≠ 0 ∧ c.rim.pending ≠ step then keepPacket s2 p
      else
        match ownerOf (myNumber s2) t.ownership t.rows (poolRow p.a.toNat), t.tier, tableRegion c t.handle with
        | .here idx, none, some r =>
          let va := t.recordVa idx
          if r.unsettledIn va p.data.length then keepPacket s2 p
          else counted (mark (tally (optWrite s2 c.sess r va (p.data.take t.rowBytes)) c.sess 1 (r.inactive va) p.data.length))
        | .here idx, some _, _ =>
          match findWay t idx with
          | none => keepPacket (startPromotion s2 c.sess t idx) p
          | some w =>
            if w.previous.isSome then keepPacket s2 p
            else
              let rec' := replicaRecord t (w.provisional.getD w.committed) p.data
              counted (mark (setTier s2 c.sess t.handle fun x =>
                { x with ways := mapIf (fun y => y.row == idx) (fun y => { y with provisional := some rec' }) x.ways }))
        | _, _, _ => counted s2

def execReplicaWrite (p : Packet) (s : State) : Host.Outcome State Fault Refusal := .next (replicaWrite s p)

/-- An owner's mark: how many writes of the step it has sent here. -/
def replicaMark (s : State) (p : Packet) : State :=
  withPacket s p 0x0C fun s1 c _ => withResident s1 p c fun s2 c =>
    setCtx s2 c.sess fun c => { c with marks := c.marks ++ [(p.srcMod.toNat, p.step.toNat, p.a.toNat % 2 ^ 32)] }

def execReplicaMark (p : Packet) (s : State) : Host.Outcome State Fault Refusal := .next (replicaMark s p)

/-- A member holds an owner's mark for a step (11 R582): the mark has come and as many writes have been applied. -/
def markHeldFrom (c : Context) (owner step : Nat) : Bool :=
  c.marks.any fun m => m.1 == owner && m.2.1 == step &&
    decide (m.2.2 ≤ (match c.replicaApplied.find? fun x => x.1 == owner && x.2.1 == step with | some x => x.2.2 | none => 0))

/-! ### Refusals and timeouts (11 R566, R580; 05 R264) -/

/-- The command of this module that a refusal concerns, and what it was doing. -/
def refusedCommand (s : State) (c : Context) (g : Group) (p : Packet) : Option (CmdRef × Nat × Nat) :=
  let t := p.a.toNat / 65536 % 256
  if t = 0x04 ∨ t = 0x06 then
    (requestOf s c.sess p).bind fun r => if r.stopped then none else some (r.ref, CoreId.unit r.splint, r.table * 2 ^ 40 + r.row)
  else if t = 0x02 ∨ t = 0x03 then
    ((findEngine s .fabric).running.find? fun r => r.sess == c.sess && cmdOpcode r.word == 0x51 && fld r.word 0x10 23 0 == g.handle).map
      fun r => (r.ref, 0xFFFF, 0)
  else
    let mine := fun (q : RemoteReq) => q.sess == c.sess && q.type == t && q.msg == p.msg.toNat && q.peer == p.srcMod.toNat && !q.stopped &&
      (t != 0x01 || q.items == [p.stream.toNat])
    (s.remoteReqs.find? mine).map fun q => (q.ref, (if t = 0x01 then 0xFFFF else 0), nthD 0 q.items 0)

/-- REFUSAL: the command it concerns faults with the code it carries (09 R491; 11 R566, R580). -/
def refusal (s : State) (p : Packet) : State :=
  withPacket s p 0x0F fun s1 c g =>
    let code := p.a.toNat % 65536
    let r := refusedCommand s1 c g p
    let t := p.a.toNat / 65536 % 256
    let s2 := { (setCtx s1 c.sess fun c => { c with fabricCtr := bump c.fabricCtr 12 1 }) with
      requests := s1.requests.filter fun q => !((t == 0x04 || t == 0x06) && some q.id == (requestOf s1 c.sess p).map fun x => x.id)
      remoteReqs := s1.remoteReqs.filter fun q => !(q.sess == c.sess && q.type == t && q.msg == p.msg.toNat && q.peer == p.srcMod.toNat) }
    match r with
    | some (ref, unit, info) => faultCommand s2 ref (.code code unit info)
    | none => s2

def execRefusal (p : Packet) (s : State) : Host.Outcome State Fault Refusal := .next (refusal s p)

/-- The timeout that bounds a local lookup held for a step: its table's pool group's, else the group's of the step. -/
def heldGroup (c : Context) (r : Request) : Option Group :=
  match (findTable c r.table).bind fun t => t.poolGroup.bind (findGroup c) with
  | some g => some g
  | none => c.vote.bind fun v => findGroup c v.group

/-- A remote request, or a lookup held here, that has no answer within the group's timeout ends its command with TIMEOUT_COLL
(05 R264, 08 R428). -/
def replyTimeout (s : State) (id : Nat) : State :=
  match s.requests.find? fun r => r.id == id && !r.stopped && (r.state == ReqState.remote || r.state == ReqState.held) with
  | some r =>
    let g := match findCtx s r.sess with
      | none => none
      | some c => if r.state = ReqState.remote then findGroup c r.group else heldGroup c r
    match g with
    | some g => if r.issuedAt + g.timeoutNs ≤ s.now then faultCommand s r.ref (.group faultTimeoutColl (myNumber s) (CoreId.unit r.splint)) else s
    | none => s
  | none =>
    match s.remoteReqs.find? fun q => q.type == 0x08 && q.msg == id && !q.stopped with
    | none => s
    | some q =>
      match groupOfReq s q.sess q.group with
      | some g => if q.sentAt + g.timeoutNs ≤ s.now then faultCommand s q.ref (.group faultTimeoutColl (myNumber s) 0x4000) else s
      | none => s

def execRemoteReplyTimeout (req : Nat) (s : State) : Host.Outcome State Fault Refusal := .next (replyTimeout s req)

/-- A reserved TYPE is dropped and counted (11 R564). -/
def unknownPacket (s : State) (p : Packet) : State :=
  if (classOf p.type.toNat).isNone ∧ p.dstMod.toNat = myNumber s then
    let s1 := takePacket s p
    { s1 with fabric := { s1.fabric with typeDrops := s1.fabric.typeDrops + 1 } }
  else s

def execUnknownPacket (p : Packet) (s : State) : Host.Outcome State Fault Refusal := .next (unknownPacket s p)

end Sys2Proof.Machine
end

