-- ==== Sys2Proof/Machine/Tier.lean ====
section
/-! DEFINITION. The flash tier: reads, promotions, folds, staging programs, syncs, wear, and the care of blocks
(chapter 10). -/

namespace Sys2Proof.Machine

/-! ### Blocks and locations (10 Table 10.1, R540, R541) -/

/-- Units in an erase block of 24 MiB, blocks of a die, and dies of a channel. -/
def unitsPerBlock : Nat := 6144
def blocksPerDie : Nat := 4960
def diesPerChannel : Nat := 12

/-- Block number times dies plus die of a location, which is (block × 12 + die) × 6144 + slot (the model's own order of
what Table 10.3 leaves to the tier). -/
def blockOfLocation (loc : Nat) : Nat := loc / unitsPerBlock

def findBlock (s : State) (ch die block : Nat) : Option Block :=
  s.tier.blocks.find? fun b => b.channel == ch && b.die == die && b.block == block

/-- Change a block's record, which stands at no reads and no erase until something happens to it. -/
def setBlock (s : State) (ch die block : Nat) (f : Block → Block) : State :=
  let same := fun (b : Block) => b.channel == ch && b.die == die && b.block == block
  { s with tier := { s.tier with
      blocks := if s.tier.blocks.any same then mapIf same f s.tier.blocks
                else s.tier.blocks ++ [f { channel := ch, die := die, block := block, reads := 0, erases := 0, retired := false }] } }

/-- Every written unit of a channel, with the context and table that own it. -/
def unitsOnChannel (s : State) (ch : Nat) : List (U32 × Nat × FlashUnit) :=
  s.contexts.flatMap fun c => c.tables.flatMap fun t =>
    ((tierOf t).units.filter fun u => u.channel == ch && u.written).map fun u => (c.sess, t.handle, u)

/-- A location may take a unit: not in use, and on a die in service and a block not retired (10 R541, R542). -/
def locationFree (s : State) (ch : Nat) (used : List Nat) (loc : Nat) : Bool :=
  let die := blockOfLocation loc % diesPerChannel
  let block := blockOfLocation loc / diesPerChannel
  !used.contains loc && !isRetired s (BitVec.ofNat 16 (0xA000 + 16 * ch + die)) &&
    !(match findBlock s ch die block with | some b => b.retired | none => false)

/-- The first free location from one on, in the order of locations. -/
def seekLocation (s : State) (ch : Nat) (used : List Nat) : Nat → Nat → Nat
  | 0, loc => loc
  | fuel + 1, loc =>
    if locationFree s ch used loc then loc
    else seekLocation s ch used fuel ((loc + 1) % (blocksPerDie * diesPerChannel * unitsPerBlock))

/-- A place for a unit, which is the tier's choice (10 R507; log entry 5). -/
def chooseLocation (s : State) (ch : Nat) : Nat × State :=
  let total := blocksPerDie * diesPerChannel * unitsPerBlock
  let p := choose s
  (seekLocation s ch ((unitsOnChannel s ch).map fun x => x.2.2.location) total (p.1 % total), p.2)

/-! ### Wear (10 R535-R537) -/

def wearCapacity : Nat := 64 * 10 ^ 12

/-- The bytes in the wear bucket now: it drains 64 TB in 24 h. -/
def wearNow (s : State) : Nat := s.tier.wearBytes - (s.now - s.tier.wearAt) * wearCapacity / (86400 * 10 ^ 9)

/-- Meter bytes of records programmed. A full bucket raises WEAR_THROTTLE, once until it ends. -/
def meterWear (s : State) (n : Nat) : State :=
  let w := Nat.min wearCapacity (wearNow s + n)
  let s1 := { s with tier := { s.tier with wearBytes := w, wearAt := s.now, lifeBytes := s.tier.lifeBytes + n } }
  if w = wearCapacity ∧ s.tier.throttle = false then
    addLog (telemetryEvent { s1 with tier := { s1.tier with throttle := true } } 0x000A 0xFFFF) 0x0B 0 { arg0 := w / 10 ^ 9, code := 0x000A }
  else s1

/-- WEAR_THROTTLE_END (10 R537). -/
def throttleEnd (s : State) : State :=
  if wearNow s * 10 < wearCapacity * 9 then { s with tier := { s.tier with throttle := false } } else s

def execWearThrottleEnd (s : State) : Host.Outcome State Fault Refusal := .next (throttleEnd s)

/-! ### Spare space of a channel (10 R543) -/

/-- Bytes of retained copies of a channel. -/
def retainedOnChannel (s : State) (ch : Nat) : Nat := 4096 * ((unitsOnChannel s ch).filter fun x => x.2.2.synced.isSome).length

/-- Spare space in GB: 125 GB for each die but one, less 1,000 GB of user data (1/32 of 32 TB) and the retained copies. -/
def spareGbOf (s : State) (c : Channel) : Nat := 125 * (c.diesLive - 1) - 1000 - ceilDiv (retainedOnChannel s c.num) (10 ^ 9)

/-- A channel becomes read-only below 60 GB of spare space, and is recorded. -/
def checkSpare (s : State) (ch : Nat) : State :=
  match s.tier.channels.find? fun c => c.num == ch with
  | none => s
  | some c =>
    if c.state = 0 ∧ spareGbOf s c < 60 then
      addLog (setChannel s ch fun c => { c with state := 1 }) 0x0C 2 { unit := BitVec.ofNat 16 (0x9000 + ch), arg0 := 1, arg1 := ch }
    else s

/-! ### Programming (10 R512, R530, R535, R545) -/

/-- Bytes of records to be placed in a unit: the unit's records with a row's part replaced. -/
def unitWith (t : Table) (u row : Nat) (rec : List Byte) : List Byte :=
  if t.stride ≤ 4096 then putAt (unitData t u) (offsetInUnit t row) rec
  else (rec.drop (4096 * (u - firstUnit t row))).take 4096

/-- Program one unit at a new location. The copy of the last sync is kept while the table is protected (R530). -/
def programUnit (s : State) (sess : U32) (h u : Nat) (data : List Byte) : State :=
  match (findCtx s sess).bind fun c => findTable c h with
  | none => s
  | some t =>
    let ch := channelOf t u
    let p := chooseLocation s ch
    let keep := (tierOf t).everSynced && (tierOf t).isProtected
    let old := findUnit t u
    let kept : Option (List Byte) := match old with
      | some x => if x.synced.isSome then x.synced else if keep then some x.data else none
      | none => if keep then some [] else none
    let x : FlashUnit := { unit := u, channel := ch, location := p.1, written := true, poison := false, data := data, synced := kept }
    setTier p.2 sess h fun y => { y with units := (y.units.filter fun z => z.unit != u) ++ [x] }

/-- Bytes of parity that a program of k units costs besides them: open, at most a page for each unit (10 Table 10.1). -/
def parityBytes (s : State) (k : Nat) : Nat × State :=
  let p := choose s
  (p.1 % (16384 * k + 1), p.2)

/-- The bytes programmed to NAND for k units (10 Table 10.8). -/
def countProgram (s : State) (sess : U32) (k : Nat) : State :=
  let p := parityBytes s k
  bumpTier p.2 sess 2 (4096 * k + p.1)

/-- Release the retained copies of the context's table that holds the most, once they reach 1/8 of the tier quota
(10 R530). -/
def releaseRetained (s : State) (sess : U32) : State :=
  match findCtx s sess with
  | none => s
  | some c =>
    let size := fun (t : Table) => 4096 * ((tierOf t).units.filter fun u => u.synced.isSome).length
    let total := sumNat (c.tables.map size)
    let limit := quotaLimit s c.tenant 0x06
    if total = 0 ∨ limit = unlimited ∨ 8 * total < limit * 10 ^ 9 then s
    else
      match leastBy (fun (a b : Table) => decide (size b < size a)) c.tables with
      | none => s
      | some t =>
        let s1 := setTier s sess t.handle fun x =>
          { x with isProtected := false, units := x.units.map fun u => { u with synced := none } }
        addLog (bumpTier s1 sess 15 1) 0x0C 2 { sess := sess, tenant := c.tenant, handle := t.handle, arg0 := 0 }

/-- Program staged rows of one table that share their units, oldest copy last staged, and take them out of staging. -/
def programRows (s : State) (sess : U32) (h : Nat) (rows : List Staged) : State :=
  match (findCtx s sess).bind fun c => findTable c h with
  | none => { s with tier := { s.tier with staging := s.tier.staging.filter fun x => !rows.contains x } }
  | some t =>
    let one := fun (st : State) (x : Staged) =>
      (unitsOf t x.row).foldl (fun st u =>
        match (findCtx st sess).bind fun c => findTable c h with
        | none => st
        | some t' => programUnit st sess h u (unitWith t' u x.row x.record)) st
    let units := (rows.flatMap fun x => unitsOf t x.row).eraseDups
    let s1 := rows.foldl one s
    let s2 := { s1 with tier := { s1.tier with staging := s1.tier.staging.filter fun x => !rows.contains x } }
    let s3 := countProgram (bumpTier (meterWear s2 (t.stride * rows.length)) sess 1 rows.length) sess units.length
    (units.map (channelOf t)).eraseDups.foldl checkSpare (releaseRetained s3 sess)

/-- The channel takes programs: in service, and main power present (10 R533, R543). -/
def channelWritable (s : State) (ch : Nat) : Bool :=
  !s.tier.powerLoss && (s.tier.channels.any fun c => c.num == ch && c.state == 0)

/-- The table of a staged row. -/
def tableOfStaged (s : State) (x : Staged) : Option Table := (findCtx s x.sess).bind fun c => findTable c x.table

/-- STAGING_PROGRAM: the oldest staged row of a half that its channels can take, with the staged rows of its units
(10 R512). Under WEAR_THROTTLE only what the drain has made room for (R536). -/
def stagingProgram (s : State) (h : Half) : State :=
  let can := fun (x : Staged) => x.half == h && (match tableOfStaged s x with
    | some t => (unitsOf t x.row).all fun u => channelWritable s (channelOf t u)
    | none => false)
  match s.tier.staging.find? can with
  | none => s
  | some x =>
    match tableOfStaged s x with
    | none => s
    | some t =>
      let units := unitsOf t x.row
      let rows := s.tier.staging.filter fun y => y.sess == x.sess && y.table == x.table && (unitsOf t y.row).any fun u => units.contains u
      if s.tier.throttle = true ∧ wearCapacity < wearNow s + t.stride * rows.length then s
      else programRows s x.sess x.table rows

def execStagingProgram (h : Half) (s : State) : Host.Outcome State Fault Refusal := .next (stagingProgram s h)

/-! ### Reading a row at rest, and folds (10 R511, R516, R517, R544) -/

/-- Read a row from staging or flash: counted, and a POISON row recorded (10 R544). -/
def readResting (s : State) (sess : U32) (t : Table) (row : Nat) : List Byte × Bool × State :=
  let s1 := bumpTier s sess 0 1
  match findStaged s sess t.handle row with
  | some x => (x.record, false, bumpTier s1 sess 13 1)
  | none =>
    if rowPoisoned t row then
      let tenant := match findCtx s sess with | some c => c.tenant | none => 0
      (flashRecord t row, true, addLog (bumpTier s1 sess 11 1) 0x09 2 { sess := sess, tenant := tenant, handle := t.handle, code := 7, arg0 := row })
    else (flashRecord t row, false, s1)

/-- The entries of a row that a fold may apply: of final steps (10 R516). -/
def finalEntries (s : State) (c : Context) (t row : Nat) : List LogEntry := (logOf s c.sess t row).filter fun e => stepFinal c e.step

/-- Fold a row's final entries and stage the record; a row being promoted waits, and so does one that staging cannot take
unless it is programmed at once. ctr is the counter of rows folded. -/
def foldRow (s : State) (sess : U32) (h row : Nat) (ctr : Option Nat) (force : Bool) : State :=
  match findCtx s sess with
  | none => s
  | some c =>
    match findTable c h with
    | none => s
    | some t =>
      let es := finalEntries s c h row
      if es = [] ∨ promotingRow t row = true ∨ (force = false ∧ stagingRoom s (rowHalf t row) t.stride = false) then s
      else
        let r := readResting s sess t row
        let f := foldEntries c t (myNumber s) row es r.1
        let s1 := dropEntries (stage r.2.2 sess t row f.1) sess h row fun e => es.contains e
        let s2 := bumpTier (setFlags s1 sess engTier f.2) sess 4 es.length
        match ctr with
        | some i => bumpTier s2 sess i 1
        | none => s2

/-- The rows of a context that have log entries, each once, in the order of their oldest entry. -/
def loggedRows (s : State) (sess : U32) : List (Nat × Nat) :=
  ((sortBy (fun (a b : LogEntry) => decide (a.step < b.step)) (s.tier.log.filter fun e => e.sess == sess)).map fun e => (e.table, e.row)).eraseDups

/-- BACKGROUND_FOLD: the row of a half whose oldest entry is furthest behind its context's newest ring entry, by 32 steps
or more (10 R525). -/
def backgroundFold (s : State) (h : Half) : State :=
  if s.tier.throttle then s
  else
    let gap := fun (c : Context) (e : LogEntry) => (c.ring.foldl (fun m r => Nat.max m r.step) 0) - e.step
    let cands := s.contexts.flatMap fun c => (loggedRows s c.sess).filterMap fun k =>
      match findTable c k.1, logOf s c.sess k.1 k.2 with
      | some t, e :: _ =>
        if rowHalf t k.2 = h ∧ 32 ≤ gap c e ∧ finalEntries s c k.1 k.2 ≠ [] then some (gap c e, c.sess, k) else none
      | _, _ => none
    match leastBy (fun (a b : Nat × U32 × Nat × Nat) => decide (b.1 < a.1)) cands with
    | none => s
    | some x => foldRow s x.2.1 x.2.2.1 x.2.2.2 (some 7) false

def execBackgroundFold (h : Half) (s : State) : Host.Outcome State Fault Refusal := .next (backgroundFold s h)

/-! ### Forced folds (10 R522-R524) -/

def logBytes (l : List LogEntry) : Nat := sumNat (l.map LogEntry.size)

/-- The context's share, and the module's log, can take n more bytes (10 R513, R523). -/
def shareFits (s : State) (c : Context) (n : Nat) : Bool :=
  let lim := quotaLimit s c.tenant 0x07
  lim == unlimited || decide (logBytes (s.tier.log.filter fun e => e.sess == c.sess) + n ≤ lim * mib)

def logFits (s : State) (n : Nat) : Bool := decide (logBytes s.tier.log + n ≤ s.power.config.logGib * gib)

def clearLogWait (s : State) (sess : U32) : State := setCtx s sess fun c => { c with logWait := none }

/-- FORCED_FOLD_AGE: fold every row that holds an entry of the step waited for or an earlier one, oldest first. -/
def forcedAge (s : State) (sess : U32) : State :=
  match (findCtx s sess).bind fun c => c.logWait with
  | none => s
  | some w =>
    match w.age with
    | none => s
    | some a =>
      let old := fun (st : State) => st.tier.log.any fun e => e.sess == sess && decide (e.step ≤ a)
      let rows := (loggedRows s sess).filter fun k => s.tier.log.any fun e => e.sess == sess && e.table == k.1 && e.row == k.2 && decide (e.step ≤ a)
      let s1 := rows.foldl (fun st k => foldRow st sess k.1 k.2 (some 8) false) s
      if old s1 then s1 else clearLogWait s1 sess

def execForcedFoldAge (sess : U32) (s : State) : Host.Outcome State Fault Refusal := .next (forcedAge s sess)

/-- The rows a full pass may fold: of the context when its share binds, else of every context. -/
def fullRows (s : State) (c : Context) (n : Nat) : List (U32 × Nat × Nat) :=
  if shareFits s c n then
    ((sortBy (fun (a b : LogEntry) => decide (a.step < b.step)) s.tier.log).map fun e => (e.sess, e.table, e.row)).eraseDups
  else (loggedRows s c.sess).map fun k => (c.sess, k.1, k.2)

/-- FORCED_FOLD_FULL: fold rows, oldest entry first, until the append fits; when every entry of the context is of a step
that is not final, the list ends with NO_MEMORY (10 R523). -/
def forcedFull (s : State) (sess : U32) : State :=
  match findCtx s sess with
  | none => s
  | some c =>
    match c.logWait with
    | none => s
    | some w =>
      if w.age.isSome then s
      else
        let fits := fun (st : State) => shareFits st c w.bytes && logFits st w.bytes
        let s1 := (fullRows s c w.bytes).foldl (fun st k => if fits st then st else foldRow st k.1 k.2.1 k.2.2 (some 9) false) s
        let foldable := (fullRows s1 c w.bytes).any fun k => match findCtx s1 k.1 with
          | some d => !(finalEntries s1 d k.2.1 k.2.2).isEmpty
          | none => false
        if fits s1 then clearLogWait s1 sess
        else if foldable then s1
        else
          match findList s1 w.ref.list with
          | none => clearLogWait s1 sess
          | some l =>
            let off := cmdOffset l w.ref
            let e : ListEnd := { cls := 3, reason := 1, detail := if shareFits s1 c w.bytes then 0 else 7, res0 := some (BitVec.ofNat 64 off),
                                 fault := 0, faultOffset := BitVec.ofNat 32 off, faultInfo := 0, endedAt := s.now }
            addLog (endList (clearLogWait s1 sess) w.ref.list e) 0x0C 2 { sess := sess, tenant := c.tenant, arg0 := 4 }

def execForcedFoldFull (sess : U32) (s : State) : Host.Outcome State Fault Refusal := .next (forcedFull s sess)

/-! ### Fetches (10 R538-R542) -/

/-- A unit read counts for its block (10 R540). -/
def countUnitRead (s : State) (t : Table) (u : Nat) : State :=
  match findUnit t u with
  | some x =>
    if x.written then
      setBlock s x.channel (blockOfLocation x.location % diesPerChannel) (blockOfLocation x.location / diesPerChannel)
        fun b => { b with reads := b.reads + 1 }
    else s
  | none => s

/-- FLASH_FETCH_DONE: the units of a row being promoted have been read, rebuilt from parity, or lost. -/
def fetchDone (s : State) (sess : U32) (h row : Nat) (o : FetchOutcome) : State :=
  match (findCtx s sess).bind fun c => findTable c h with
  | none => s
  | some t =>
    if (tierOf t).promoting.contains (row, false) = false then s
    else
      let s1 := (unitsOf t row).foldl (fun st u => countUnitRead st t u) s
      let s2 := setTier s1 sess h fun x => { x with promoting := mapIf (fun p => p.1 == row) (fun p => (p.1, true)) x.promoting }
      let first := findUnit t (firstUnit t row)
      match o, first with
      | .hard, _ => s2
      | .retried, _ => s2
      | .rebuilt, some x =>
        let die := blockOfLocation x.location % diesPerChannel
        bucketEvent s2 16 (BitVec.ofNat 16 (0xA000 + 16 * x.channel + die)) 0 x.location
      | .uncorrectable, some x => loseUnit s2 sess h x.unit
      | _, none => s2

def execFlashFetchDone (sess : U32) (table : BitVec 24) (row : Nat) (outcome : FetchOutcome) (s : State) : Host.Outcome State Fault Refusal :=
  .next (fetchDone s sess table.toNat row outcome)

/-! ### Promotion (09 R485, R486; 10 R518, R519) -/

/-- Fold a row for its promotion: the committed record, the version before an unsettled step, and the provisional one of the
pending step (10 R518). -/
def promoteRecord (s : State) (c : Context) (t : Table) (row : Nat) (rec : List Byte) :
    List Byte × Option (List Byte) × Option (Nat × List Byte) × Fl :=
  let es := logOf s c.sess t.handle row
  let me := myNumber s
  let fin := es.filter fun e => stepFinal c e.step
  let unsettled := es.filter fun e => !stepFinal c e.step && e.step != c.rim.pending
  let pend := es.filter fun e => e.step == c.rim.pending
  let a := foldEntries c t me row fin rec
  let b := foldEntries c t me row unsettled a.1
  let prev := unsettled.head?.map fun e => (e.step, a.1)
  match pend, c.ringProvisional with
  | e :: _, some h =>
    let p := foldEntry c t me row h.hyper b.1 e
    (b.1, some p.1, prev, a.2 ||| b.2 ||| p.2)
  | _, _ => (b.1, none, prev, a.2 ||| b.2)

/-- Serve the requests of this module that waited for a promotion (09 R486). -/
def answerPromoted (s : State) (sess : U32) (t : Table) (row : Nat) (rec : List Byte) (poisoned : Bool) : State :=
  (s.requests.filter fun r => r.sess == sess && r.state == .tier && r.table == t.handle && r.row == row).foldl
    (fun st r => answerRequest st r.id (rowPrefix t r.bytes rec) poisoned) s

/-- The row enters a way. -/
def promoteInto (s : State) (c : Context) (t : Table) (row slot : Nat) (victim : Option CacheWay) : State :=
  let r := readResting s c.sess t row
  let es := logOf s c.sess t.handle row
  let f := promoteRecord s c t row r.1
  let w : CacheWay := { row := row, set := setOf t row, slot := slot, committed := f.1, provisional := f.2.1, previous := f.2.2.1,
                        dirty := !es.isEmpty, pending := false, lru := 16 }
  let s1 := setTier r.2.2 c.sess t.handle fun x =>
    { x with promoting := x.promoting.filter fun p => p.1 != row
             ways := touchWays row ((x.ways.filter fun y => match victim with | some v => y.row != v.row | none => true) ++ [w]) }
  let s2 := dropEntries s1 c.sess t.handle row fun _ => true
  let s3 := if es = [] then s2 else bumpTier (bumpTier (setFlags s2 c.sess engTier f.2.2.2) c.sess 4 es.length) c.sess 6 1
  releaseHeld (answerPromoted s3 c.sess t row f.1 r.2.1) c.sess

/-- PROMOTION: waits for the read of flash, for the older of two steps that are not final (10 R519), for a way, and for room
in staging when the victim is dirty (R512). -/
def promotion (s : State) (sess : U32) (h row : Nat) : State :=
  match findCtx s sess with
  | none => s
  | some c =>
    match findTable c h with
    | none => s
    | some t =>
      let open_ := (logOf s sess h row).filter fun e => !stepFinal c e.step
      if (tierOf t).promoting.contains (row, true) = false ∨ 2 ≤ open_.length then s
      else
        match chooseWay t row with
        | none => s
        | some (slot, victim) =>
          let wb := match victim with | some v => writeBack s sess t v | none => (s, true)
          if wb.2 = false then s
          else
            match (findCtx wb.1 sess).bind fun c => (findTable c h).map fun t => (c, t) with
            | none => s
            | some ct => promoteInto wb.1 ct.1 ct.2 row slot victim

def execPromotion (sess : U32) (table : BitVec 24) (row : Nat) (s : State) : Host.Outcome State Fault Refusal :=
  .next (promotion s sess table.toNat row)

/-- WRITE_BACK_STAGE: a dirty victim of a waiting promotion is written into staging when there is room (10 R511). -/
def writeBackStage (s : State) (sess : U32) (h row : Nat) : State :=
  match (findCtx s sess).bind fun c => findTable c h with
  | none => s
  | some t =>
    let victims := (tierOf t).promoting.filterMap fun p => (chooseWay t p.1).bind fun k => k.2
    match victims.find? fun w => w.row == row with
    | some w => (writeBack s sess t w).1
    | none => s

def execWriteBackStage (sess : U32) (table : BitVec 24) (row : Nat) (s : State) : Host.Outcome State Fault Refusal :=
  .next (writeBackStage s sess table.toNat row)

/-! ### TR_FOLD, TR_SYNC and TIER_SYNC (10 R526, R528, R529) -/

/-- The tiered tables that a handle covers: all of the context's for 0, else one; none when it names no tiered table. -/
def coveredTables (c : Context) (h : Nat) : Option (List Table) :=
  if h = 0 then some (c.tables.filter fun t => t.tier.isSome)
  else match findTable c h with
    | some t => if t.tier.isSome then some [t] else none
    | none => none

def trFold (s : State) (c : Context) (r : Running) : Except CmdErr State :=
  let h := fld r.word 0x10 23 0
  let first := fld r.word 0x18 39 0
  let count := fld r.word 0x20 40 0
  match coveredTables c h with
  | none => .error (errBad .tier)
  | some ts =>
    let mine := fun (k : Nat × Nat) => (ts.any fun t => t.handle == k.1) && (h == 0 || (decide (first ≤ k.2) && (count == 0 || decide (k.2 < first + count))))
    let s1 := ((loggedRows s c.sess).filter mine).foldl (fun st k => foldRow st c.sess k.1 k.2 (some 7) false) s
    let left := ((loggedRows s1 c.sess).filter mine).any fun k => match findCtx s1 c.sess with
      | some d => !(finalEntries s1 d k.1 k.2).isEmpty
      | none => false
    .ok (if left then s1 else shareDone s1 .tier r.ref)

def execTrFold (s : State) : Host.Outcome State Fault Refusal :=
  .next (withRunning s .tier (fun w => cmdOpcode w == 0x60) trFold)

/-- A channel that covers some unit of a table is in a state. -/
def coversState (s : State) (t : Table) (st : Nat) : Option Nat :=
  (s.tier.channels.find? fun c => c.state == st && (List.range (unitCount t.stride t.rows)).any fun u => channelOf t u == c.num).map fun c => c.num

/-- What a sync finds: it waits, it fails, or it has programmed so many rows. -/
inductive SyncResult where
  | wait
  | media
  | hw (unit : Nat)
  | done (rows : Nat) (s : State)

/-- Stage every dirty way of a table, committed version only. -/
def stageDirty (s : State) (sess : U32) (h : Nat) : State :=
  match (findCtx s sess).bind fun c => findTable c h with
  | none => s
  | some t =>
    let s1 := ((tierOf t).ways.filter fun w => w.dirty && (replicatedAt t w.row).isNone).foldl (fun st w => stage st sess t w.row w.committed) s
    setTier s1 sess h fun x => { x with ways := x.ways.map fun w => { w with dirty := false } }

/-- Program every staged row of a table, the rows of one unit together; the count of rows. -/
def programTable : Nat → State → U32 → Nat → Nat × State
  | 0, s, _, _ => (0, s)
  | fuel + 1, s, sess, h =>
    match s.tier.staging.find? fun x => x.sess == sess && x.table == h with
    | none => (0, s)
    | some x =>
      match tableOfStaged s x with
      | none => (0, s)
      | some t =>
        let units := unitsOf t x.row
        let rows := s.tier.staging.filter fun y => y.sess == sess && y.table == h && (unitsOf t y.row).any fun u => units.contains u
        let q := programTable fuel (programRows s sess h rows) sess h
        (rows.length + q.1, q.2)

/-- Sync one table: fold, stage, program (10 R528). -/
def syncTable (s : State) (sess : U32) (h : Nat) : Nat × State :=
  let s1 := ((loggedRows s sess).filter fun k => k.1 == h).foldl (fun st k => foldRow st sess k.1 k.2 none true) s
  let s2 := stageDirty s1 sess h
  let p := programTable s2.tier.staging.length s2 sess h
  (p.1, setTier p.2 sess h fun x =>
    { x with everSynced := true, isProtected := true, units := x.units.map fun u => { u with synced := none } })

/-- A sync of tables of a context: it waits while a committed step is not final or a row is being promoted (10 R529,
R486); a read-only channel that it covers ends it with MEDIA (R528). -/
def syncTables (s : State) (c : Context) (ts : List Table) : SyncResult :=
  if (ts.any fun t => (coversState s t 1).isSome) then .media
  else
    match ts.findSome? fun t => coversState s t 2 with
    | some ch => .hw (0x9000 + ch)
    | none =>
      if c.settles ≠ [] ∨ (ts.any fun t => !(tierOf t).promoting.isEmpty) = true ∨ s.tier.powerLoss = true then .wait
      else
        let r := ts.foldl (fun (a : Nat × State) t => let q := syncTable a.2 c.sess t.handle; (a.1 + q.1, q.2)) (0, s)
        .done r.1 (bumpTier r.2 c.sess 12 r.1)

def trSync (s : State) (c : Context) (r : Running) : Except CmdErr State :=
  match coveredTables c (fld r.word 0x10 23 0) with
  | none => .error (errBad .tier)
  | some ts =>
    match syncTables s c ts with
    | .wait => .ok s
    | .media => .ok (endList s r.ref.list { cls := 3, reason := 6, detail := 0, res0 := none, fault := 0, faultOffset := 0, faultInfo := 0, endedAt := s.now })
    | .hw u => .error (.hw u)
    | .done _ s1 => .ok (shareDone s1 .tier r.ref)

def execTrSync (s : State) : Host.Outcome State Fault Refusal :=
  .next (withRunning s .tier (fun w => cmdOpcode w == 0x61) trSync)

def tierSync (s : State) (fn : Nat) (tag : U16) (o : Outstanding) : State :=
  match findCtx s o.sub.session with
  | none => complete s fn tag stNoSession
  | some c =>
    match coveredTables c (P0 o % 2 ^ 24) with
    | none => complete s fn tag (stBadParam 0x10)
    | some ts =>
      match syncTables s c ts with
      | .wait => markHeld s fn tag
      | .media => complete s fn tag stMedia
      | .hw u => complete s fn tag (stHwError u)
      | .done n s1 => complete s1 fn tag (stOk0 n)

def execTierSync (fn : Nat) (tag : U16) (s : State) : Host.Outcome State Fault Refusal :=
  .next (withCommand s fn tag (isOp 0x40) fun s o => tierSync s fn tag o)

/-! ### The care of blocks (10 R527, R539-R541) -/

/-- The units stored in a block. -/
def unitsInBlock (s : State) (ch die block : Nat) : List (U32 × Nat × FlashUnit) :=
  (unitsOnChannel s ch).filter fun x => blockOfLocation x.2.2.location == block * diesPerChannel + die

/-- Move a unit to another place of its channel. -/
def moveUnit (ch : Nat) (s : State) (x : U32 × Nat × FlashUnit) : State :=
  let p := chooseLocation s ch
  countProgram (setTier p.2 x.1 x.2.1 fun t => { t with units := mapIf (fun u => u.unit == x.2.2.unit) (fun u => { u with location := p.1 }) t.units })
    x.1 1

/-- The erase counts of a channel that TIER_CH shows after an erase, whose start is restored at mount (10 Table 10.9; log
entry 5). -/
def recountErases (s : State) (ch : Nat) : State :=
  let p := choose s
  let q := choose p.2
  setChannel q.2 ch fun c => { c with eraseMean := p.1 % 65536, eraseSpread := q.1 % 65536 }

/-- Relocate a block's valid units, which leave it first, and erase it (10 R527, R540). -/
def relocateBlock (s : State) (ch die block : Nat) : State :=
  let us := unitsInBlock s ch die block
  let s1 := setBlock s ch die block fun b => { b with retired := true }
  let s2 := us.foldl (moveUnit ch) s1
  let was := match findBlock s ch die block with | some b => b.retired | none => false
  recountErases (setBlock s2 ch die block fun b => { b with retired := was, reads := 0, erases := b.erases + 1 }) ch

/-- RECLAMATION: the tier chooses a block of the channel (10 R527; log entry 5). -/
def reclamation (s : State) (ch : Nat) : State :=
  if channelWritable s ch then
    let p := choose s
    relocateBlock p.2 ch (p.1 % diesPerChannel) (p.1 / diesPerChannel % blocksPerDie)
  else s

def execReclamation (ch : Fin 32) (s : State) : Host.Outcome State Fault Refusal := .next (reclamation s ch.val)

/-- FLASH_PATROL reads the written pages of a block, four units each, and relocates it when a codeword needed soft decoding
or more than 60 % of the correction capacity (10 R539). -/
def flashPatrol (s : State) (ch die block : Nat) (relocate : Bool) : State :=
  let pages := ceilDiv (unitsInBlock s ch die block).length 4
  let s1 := if pages = 0 then s else setBlock s ch die block fun b => { b with reads := b.reads + pages }
  if relocate && channelWritable s1 ch then relocateBlock s1 ch die block else s1

def execFlashPatrol (ch : Fin 32) (die : Fin 12) (block : Nat) (relocate : Bool) (s : State) : Host.Outcome State Fault Refusal :=
  .next (flashPatrol s ch.val die.val block relocate)

/-- READ_DISTURB_RELOCATE: at 50,000 reads since its erase a block's units are relocated (10 R540). -/
def readDisturb (s : State) (ch die block : Nat) : State :=
  match findBlock s ch die block with
  | some b => if 50000 ≤ b.reads ∧ channelWritable s ch = true then relocateBlock s ch die block else s
  | none => s

def execReadDisturbRelocate (ch : Fin 32) (die : Fin 12) (block : Nat) (s : State) : Host.Outcome State Fault Refusal :=
  .next (readDisturb s ch.val die.val block)

/-- PROGRAM_ERASE_FAIL: the block is retired at once, its valid units are rebuilt where needed and relocated, and the event
counts for the die (10 R541, 13 Table 13.2 row 15). -/
def programEraseFail (s : State) (ch die block : Nat) : State :=
  let us := unitsInBlock s ch die block
  let s1 := setBlock s ch die block fun b => { b with retired := true }
  bucketEvent (us.foldl (moveUnit ch) s1) 15 (BitVec.ofNat 16 (0xA000 + 16 * ch + die)) 0 block

def execProgramEraseFail (ch : Fin 32) (die : Fin 12) (block : Nat) (s : State) : Host.Outcome State Fault Refusal :=
  .next (programEraseFail s ch.val die.val block)

end Sys2Proof.Machine
end

