-- ==== Sys2Proof/Machine/Optimiser.lean ====
section
/-! DEFINITION. RM_OPT: the dense optimiser and table mode (chapter 08, with chapters 09 and 10 for pool rows). -/

namespace Sys2Proof.Machine

/-! ### Gates (08 R425, R436) -/

/-- Whether provisional writes of a step may begin: a decided step is BAD_COMMAND, another pending step makes the command
wait. -/
inductive OptGate where
  | run
  | wait
  | bad
  deriving DecidableEq, Repr

def optGate (c : Context) (step : Nat) : OptGate :=
  if step = 0 ∨ stepDecided c step = true then .bad
  else if c.rim.pending ≠ 0 ∧ c.rim.pending ≠ step then .wait
  else .run

def setPending (s : State) (sess : U32) (step : Nat) : State :=
  setCtx s sess fun c => { c with rim := { c.rim with pending := step } }

/-- The hyperparameters of a command, with inv_scale of the loss scale in force (08 R410, R411). -/
def readHyper (s : State) (c : Context) (w : BitVec 512) : Except MemErr Hyper :=
  (readVa s c .rd (fld w 0x38 47 0 + 64 * fld w 0x28 15 8) 64).map fun b => Hyper.ofBytes b (invScale c.rim.lsScale)

/-- NF_IN of the hyperparameters that an optimiser uses (08 R410). -/
def hyperFl (code : Nat) (h : Hyper) : Fl :=
  let m := [h.lr, h.wd] ++ (if code = 2 ∨ code = 3 ∨ code = 7 ∨ code = 8 then [h.b1] else []) ++
    (if code = 6 ∨ code = 7 ∨ code = 8 then [h.b2] else []) ++ (if hasV code then [h.eps] else []) ++
    (if code = 7 ∨ code = 8 then [h.bc1, h.bc2] else [])
  m.foldl (fun a x => a ||| (fp32 x).nf) 0

/-- The generator state that stood when a command started (05 R274). -/
def plaitAt (s : State) (c : Context) (ref : CmdRef) : PlaitState :=
  match findProgress s ref with
  | some q => { key := q.plaitKey, bases := q.bases }
  | none => c.plaitState

/-! ### Dense RM_OPT (08 R411-R414) -/

/-- The MB8 modes of an optimiser's moment tensors, m before v; true is square-root (08 Table 8.3). -/
def momentModes (code : Nat) : List Bool := (if hasM code then [false] else []) ++ (if hasV code then [true] else [])

/-- The shapes and formats of 08 R414. -/
def denseOk (code : Nat) (p g : Desc) (st : Option Desc) : Bool :=
  let n := p.count 0 * p.count 1
  p.ndim == 2 && g.ndim == 2 && p.counts == g.counts && n % 32 == 0 && decide (p.fmt ≤ 7) && !p.mx && g.fmt != 0xE && g.fmt != 0xF &&
    (match st with
     | none => (momentModes code).isEmpty
     | some d => !(momentModes code).isEmpty && d.fmt == 0xE && d.count 0 == (if code = 5 then alignUp (p.count 1) 32 else n) &&
        d.count 1 == (momentModes code).length && d.count 2 == 1 && d.count 3 == 1 && d.count 4 == 1)

/-- An element to update: its place in the visiting order, its indices, weight, gradient and moments. -/
structure DenseElem where
  k : Nat
  at_ : Nat × List Nat
  w : U32
  g : U32
  m : U32
  v : U32

/-- The bytes that a store of codes would write, taken from the state after it. -/
def storedBytes (before after : State) (c : Context) (as : List Nat) : List (Nat × Byte) :=
  as.filterMap fun a => match readByte after c .inner a with
    | .ok b => some (a, b)
    | .error _ => match readByte before c .inner a with | .ok b => some (a, b) | .error _ => none

/-- The context with its regions taken away: every span of it has one version. -/
def flatCtx (c : Context) : Context := { c with regions := [] }

/-- Where the committed bytes of a set of addresses are, copied to their own addresses in a scratch state, so that a store
of part of a byte finds its neighbours. -/
def scratch (s : State) (c : Context) (as : List Nat) : State :=
  as.foldl (fun st a => match readByte s c .rd a with
    | .ok b => putByte st (flatCtx c) .inner a b
    | .error _ => st) s

/-- A write waits while a granule of it is not settled (08 R439). -/
def writesWait (c : Context) (ws : List (Nat × Byte)) : Bool :=
  ws.any fun p => match findRegion c p.1 with | some r => r.unsettledIn p.1 1 | none => false

/-- Perform the optimiser's writes run by run. -/
def optPut (s : State) (sess : U32) (ws : List (Nat × Byte)) : State :=
  (runsOf (ws.map fun p => p.1)).foldl (fun st run =>
    match findCtx st sess with
    | none => st
    | some c =>
      let bs := (ws.filter fun p => decide (run.1 ≤ p.1) && decide (p.1 < run.1 + run.2)).map fun p => p.2
      match findRegion c run.1 with
      | some r =>
        let inside := Nat.min run.2 (r.base + r.bytes - run.1)
        putBytes (optWrite st sess r run.1 (bs.take inside)) c .opt (run.1 + inside) (bs.drop inside)
      | none => putBytes st c .opt run.1 bs) s

/-- The elements of a half with their operands. -/
def denseElems (s : State) (c : Context) (code : Nat) (p g : Desc) (st : Option Desc) (mine : List (Nat × (Nat × List Nat))) :
    Except MemErr (List DenseElem × Fl) :=
  mine.foldrM (fun x (acc : List DenseElem × Fl) => do
    let w ← readElem s c .rd p x.2.1 x.2.2
    let gr ← readElem s c .rd g x.2.1 x.2.2
    let si := if code = 5 then nthD 0 x.2.2 0 else x.1
    let mom := fun (plane : Nat) => match st with
      | some d => readElem s c .rd d si [plane, 0, 0, 0]
      | none => .ok (Num.zero, 0)
    let a ← mom 0
    let b ← mom (if hasM code && hasV code then 1 else 0)
    let m32 := if hasM code then (toFp32 a.1).1 else 0
    let v32 := if hasV code then (toFp32 b.1).1 else 0
    let e : DenseElem := ⟨x.1, x.2, (toFp32 w.1).1, (toFp32 gr.1).1, m32, v32⟩
    pure (e :: acc.1, acc.2 ||| w.2 ||| gr.2 ||| a.2 ||| b.2)) ([], 0)

/-- The row statistics of row-wise Adagrad: each row with its new v_row (08 R412). -/
def denseRows (code : Nat) (h : Hyper) (es : List DenseElem) : List (Nat × FV) :=
  if code ≠ 5 then []
  else
    let rows := (es.map fun e => nthD 0 e.at_.2 0).eraseDups
    rows.map fun r =>
      let mine := sortBy (fun (a b : DenseElem) => decide (a.at_.1 < b.at_.1)) (es.filter fun e => nthD 0 e.at_.2 0 == r)
      let v0 := match mine with | e :: _ => e.v | [] => 0
      (r, optRowV v0 (mine.map fun e => (optGrad code h e.w e.g).1))

/-- The new moments to store, by plane: index in the state stream and value. -/
def denseMoments (code : Nat) (rs : List (DenseElem × U32 × U32 × U32 × Fl)) (rows : List (Nat × FV)) (plane : Nat) (isV : Bool) :
    List ((Nat × List Nat) × U32) :=
  if code = 5 then rows.map fun r => ((r.1, [plane, 0, 0, 0]), r.2.1)
  else rs.map fun x => ((x.1.k, [plane, 0, 0, 0]), if isV then x.2.2.2.1 else x.2.2.1)

/-- A block of row-wise Adagrad holds 32 rows: the rows beyond the parameter's keep what they held. -/
def padBlock (s : State) (c : Context) (d : Desc) (xs : List ((Nat × List Nat) × U32)) : Except MemErr (List ((Nat × List Nat) × U32)) :=
  let blocks := (xs.map fun x => (x.1.1 / 32, x.1.2)).eraseDups
  blocks.foldlM (fun acc b => do
    let ys ← (List.range 32).mapM fun j => match xs.find? fun x => x.1 == (32 * b.1 + j, b.2) with
      | some x => pure x
      | none => (readElem s c .rd d (32 * b.1 + j) b.2).map fun v => ((32 * b.1 + j, b.2), (toFp32 v.1).1)
    pure (acc ++ ys)) []

/-- A dense RM_OPT over a half's elements: the writes it would make, the flags and the number of elements. -/
def denseRun (s : State) (c : Context) (r : Running) (h : Hyper) (p g : Desc) (st : Option Desc) (mine : List (Nat × (Nat × List Nat))) :
    Except MemErr (List (Nat × Byte) × Fl) := do
  let w := r.word
  let code := fld w 0x28 3 0
  let step := fld w 0x30 31 0
  let gen := plaitAt s c r.ref
  let es ← denseElems s c code p g st mine
  let rows := denseRows code h es.1
  let rs := es.1.map fun e =>
    let v := match rows.find? fun x => x.1 == nthD 0 e.at_.2 0 with | some x => x.2.1 | none => e.v
    (e, optElem code h e.w e.m v (optGrad code h e.w e.g))
  let fl := rs.foldl (fun a x => a ||| x.2.2.2.2) (rows.foldl (fun a x => a ||| x.2.2) (es.2 ||| hyperFl code h))
  let bits := fun (d : Desc) (e : Nat × List Nat) => Round.stochastic (gen.dense d.base step (d.linear e.1 e.2)).toNat
  let wAddrs := (rs.flatMap fun x => p.byteAddrs x.1.at_.1 x.1.at_.2).eraseDups
  let s0 := scratch s c wAddrs
  let q ← storeElems s0 (flatCtx c) .inner p false (Num.fin false 1 0) (rs.map fun x => (x.1.at_, (fp32 x.2.1, bits p x.1.at_)))
  let wOut := storedBytes s q.st (flatCtx c) wAddrs
  match st with
  | none => pure (wOut, fl ||| q.fl)
  | some d =>
    let modes := momentModes code
    let m ← ((List.range modes.length).zip modes).foldlM (fun (acc : List (Nat × Byte) × Fl) pm => do
      let xs0 := denseMoments code rs rows pm.1 pm.2
      let xs ← if code = 5 then padBlock s c d xs0 else pure xs0
      let as := (xs.flatMap fun x => d.byteAddrs x.1.1 x.1.2).eraseDups
      let t ← storeElems (scratch s c as) (flatCtx c) .inner d pm.2 (Num.fin false 1 0) (xs.map fun x => (x.1, (fp32 x.2, bits d x.1)))
      pure (acc.1 ++ storedBytes s t.st (flatCtx c) as, acc.2 ||| t.fl)) ([], 0)
    pure (wOut ++ m.1, fl ||| q.fl ||| m.2)

/-- Every byte that the optimiser would write translates for a write; the address that does not. -/
def optSpan (s : State) (c : Context) (ws : List (Nat × Byte)) : Option Nat :=
  ws.findSome? fun p => spanOk s (flatCtx c) .wr p.1 1

/-- RM_OPT of a dense tensor. A command that must wait stays as it is. -/
def rmOpt (h : Half) (s : State) (c : Context) (r : Running) : Except CmdErr State := do
  let w := r.word
  let inst := EngineInst.rim h
  let code := fld w 0x28 3 0
  let step := fld w 0x30 31 0
  mustBe inst (fld w 0x20 47 0 == 0 || (r.desc 0x20).isSome)
  match r.desc 0x10, r.desc 0x18 with
  | some p, some g =>
    mustBe inst (denseOk code p g (r.desc 0x20))
    match optGate c step with
    | .bad => .error (errBad inst)
    | .wait => pure s
    | .run =>
      let hy ← memTry h.num (readHyper s c w)
      if p.empty then pure (shareDone s inst r.ref)
      else
        let rowUnit := fun (e : Nat × List Nat) => (0, e.2)
        let all := p.elems
        let mine := halfElems p (bothHalves w) h (if code = 5 then rowUnit else fun e => e)
        let numbered := ((List.range all.length).zip all).filter fun x => mine.contains x.2
        let out ← memTry h.num (denseRun s c r hy p g (r.desc 0x20) numbered)
        match optSpan s c out.1 with
        | some va => .error (.code faultTranslation h.num va)
        | none =>
          if writesWait c out.1 then pure (setPending s r.sess step)
          else
            let s1 := tallyElems (tallyElems s r.sess 0 p mine) r.sess 0 g mine
            let s2 := optPut s1 r.sess out.1
            let s3 := tallyRuns s2 r.sess 1 (out.1.map fun x => x.1)
            let s4 := setFlags (bumpRim (setPending s3 r.sess step) r.sess 0 mine.length) r.sess engRim out.2
            pure (shareDone s4 inst r.ref)
  | _, _ => .error (errBad inst)

def execRmOpt (h : Half) (s : State) : Host.Outcome State Fault Refusal :=
  .next (withRunning s (.rim h) (fun w => cmdOpcode w == 0x43 && fld w 0x28 3 0 != 15) (rmOpt h))

/-! ### Table mode (08 R415-R418; 09 R495, R498, R499; 10 R521-R523) -/

/-- What a table-mode command has passed, kept with its progress: 0 once it has started, 1 once its marks are sent, and the
pool address of each row it has passed. -/
def passed (s : State) (ref : CmdRef) : List Nat := match findProgress s ref with | some q => q.units | none => []

def pass (s : State) (ref : CmdRef) (u : Nat) : State := setProgress s ref fun q => { q with units := u :: q.units }

/-- The rows of optimiser tables with a contribution of the step that the command has not passed: table and local row, in
ascending order. -/
def gradRows (s : State) (c : Context) (ref : CmdRef) (step : Nat) : List (Nat × Nat) :=
  let keys := ((c.contributions.filter fun x => x.step == step).map fun x => (x.table, x.row)).eraseDups
  let live := keys.filter fun k => match findTable c k.1 with
    | some t => t.optimiser != 0 && !(passed s ref).contains (poolOf (myNumber s) t k.2)
    | none => false
  sortBy (fun (a b : Nat × Nat) => decide (a.1 < b.1) || (a.1 == b.1 && decide (a.2 < b.2))) live

/-- Free a row's contributions of a step (09 R495). -/
def freeContribs (s : State) (sess : U32) (t row step : Nat) : State :=
  setCtx s sess fun c => { c with contributions := c.contributions.filter fun x => !(x.table == t && x.row == row && x.step == step) }

/-- The pool group's other members, for the owner of a replicated range that holds a row (09 R498). -/
def replicaTargets (s : State) (c : Context) (t : Table) (row : Nat) : Option (Group × List Nat) :=
  match replicatedAt t row, t.poolGroup.bind fun h => findGroup c h with
  | some e, some g => if e.owner = myNumber s then some (g, g.members.filter fun m => m != myNumber s) else none
  | _, _ => none

/-- Write a row's new elements to every member's copy (09 R498, 11 R582); n numbers the write. -/
def sendReplicas (s : State) (c : Context) (h : Half) (t : Table) (row step n : Nat) (rec : List Byte) : State :=
  match replicaTargets s c t row with
  | none => s
  | some (g, ms) =>
    ms.foldl (fun st m =>
      let p := { newPacket st g 0x0B m with msg := BitVec.ofNat 32 n, step := BitVec.ofNat 32 step,
                                            a := BitVec.ofNat 64 (poolOf (myNumber s) t row), data := rec.take t.rowBytes }
      setCtx (sendFrom st c h p).1 c.sess fun c => { c with memCtr := bump c.memCtr 13 1 }) s

/-- How a row went: passed, waiting, or its command faults. -/
inductive RowGo where
  | on (s : State)
  | wait (s : State)
  | fail (e : CmdErr)

/-- The number of replica writes that a command has sent to each member. -/
def replicasSent (s : State) (c : Context) (ref : CmdRef) : Nat :=
  ((passed s ref).filter fun u => match findTable c (poolTable u) with
    | some t => decide (2 ^ 40 ≤ u) && (match ownerOf (myNumber s) t.ownership t.rows (poolRow u) with
      | .here idx => (replicaTargets s c t idx).isSome
      | _ => false)
    | none => false).length

/-- One row of a table that is not tiered: a provisional record (08 R411-R413, R424). -/
def plainRowOpt (s : State) (c : Context) (h : Half) (ref : CmdRef) (hy : Hyper) (step : Nat) (t : Table) (row : Nat) (grad : List U32 × Fl) : RowGo :=
  match plainPoison s c t row, tableRegion c t.handle with
  | some pc, _ => .fail (.hw (0x7000 + pc))
  | none, none => .on s
  | none, some r =>
    let va := t.recordVa row
    if r.unsettledIn va t.stride then .wait s
    else
      let n := optRecord t hy (plaitAt s c ref) (poolOf (myNumber s) t row) step (plainRecord s c t row) grad.1
      let s1 := tally (tally s c.sess 0 (r.committed va) t.stride) c.sess 1 (r.inactive va) t.stride
      let s2 := setFlags (optWrite s1 c.sess r va n.1) c.sess engRim (n.2 ||| grad.2 ||| hyperFl t.optimiser hy)
      .on (sendReplicas (bumpRim s2 c.sess 1 1) c h t row step (replicasSent s c ref) n.1)

/-- One row of a tiered table: in a way it is updated there; being promoted it waits; held only in the tier, its sum goes to the
deferred-update log (10 R521, R523). A row of a replicated range is brought into a way (09 R500). -/
def tierRowOpt (s : State) (c : Context) (h : Half) (ref : CmdRef) (hy : Hyper) (step : Nat) (t : Table) (row : Nat) (grad : List U32 × Fl) : RowGo :=
  if promotingRow t row then .wait s
  else
    match findWay t row with
    | some w =>
      if w.previous.isSome then .wait s
      else
        let n := optRecord t hy (plaitAt s c ref) (poolOf (myNumber s) t row) step w.committed grad.1
        let s1 := setTier s c.sess t.handle fun x =>
          { x with ways := touchWays row (mapIf (fun y => y.row == row) (fun y => { y with provisional := some n.1 }) x.ways) }
        let s2 := tally (tally s1 c.sess 0 (wayVa t w) t.stride) c.sess 1 (wayVa t w) t.stride
        let s3 := setFlags s2 c.sess engRim (n.2 ||| grad.2 ||| hyperFl t.optimiser hy)
        .on (sendReplicas (bumpRim s3 c.sess 1 1) c h t row step (replicasSent s c ref) n.1)
    | none =>
      if (replicatedAt t row).isSome then .wait (startPromotion s c.sess t row)
      else
        let e : LogEntry := { sess := c.sess, table := t.handle, row := row, step := step, grad := grad.1 }
        if shareFits s c e.size && logFits s e.size then
          .on (bumpTier (setFlags { s with tier := { s.tier with log := s.tier.log ++ [e] } } c.sess engRim grad.2) c.sess 3 1)
        else .wait (setCtx s c.sess fun c => { c with logWait := some { ref := ref, age := none, bytes := e.size } })

/-- Pass rows in turn until one waits. -/
def passRows (h : Half) (ref : CmdRef) (sess : U32) (hy : Hyper) (step : Nat) : List (Nat × Nat) → State → Except CmdErr (State × Bool)
  | [], s => .ok (s, true)
  | k :: ks, s =>
    match findCtx s sess with
    | none => .ok (s, false)
    | some c =>
      match findTable c k.1 with
      | none => passRows h ref sess hy step ks s
      | some t =>
        let grad := contribSum (c.contributions.filter fun x => x.table == k.1 && x.row == k.2 && x.step == step)
        let go := if t.tier.isSome then tierRowOpt s c h ref hy step t k.2 grad else plainRowOpt s c h ref hy step t k.2 grad
        match go with
        | .fail e => .error e
        | .wait s1 => .ok (s1, false)
        | .on s1 => passRows h ref sess hy step ks (pass (freeContribs s1 sess k.1 k.2 step) ref (poolOf (myNumber s) t k.2))

/-- The optimiser tables of a context with replicated ranges, each with its pool group (09 R499). -/
def replicatedTables (c : Context) : List (Table × Group) :=
  c.tables.filterMap fun t =>
    if t.optimiser ≠ 0 ∧ (match t.ownership with | some l => l.any fun e => e.replicated && !e.unowned | none => false) = true then
      (t.poolGroup.bind fun h => findGroup c h).map fun g => (t, g)
    else none

def ownersOf (t : Table) : List Nat :=
  match t.ownership with
  | some l => ((l.filter fun e => e.replicated && !e.unowned).map fun e => e.owner).eraseDups
  | none => []

/-- Send the marks of a step to every member of the pool groups in which this module owns a replicated range (09 R499). -/
def sendMarks (s : State) (c : Context) (h : Half) (step n : Nat) : State :=
  let gs := (((replicatedTables c).filter fun x => (ownersOf x.1).contains (myNumber s)).map fun x => x.2).eraseDups
  gs.foldl (fun st g => (g.members.filter fun m => m != myNumber s).foldl (fun st m =>
    (sendFrom st c h { newPacket st g 0x0C m with step := BitVec.ofNat 32 step, a := BitVec.ofNat 64 n }).1) st) s

/-- The marks of every owner of a replicated range are held (09 R499, 11 R582). -/
def marksHeld (s : State) (c : Context) (step : Nat) : Bool :=
  (replicatedTables c).all fun x => (ownersOf x.1).all fun o => o == myNumber s || markHeldFrom c o step

/-- Start of a table-mode command: the forced fold of old entries first, then the ring entry (08 R417, 10 R522). -/
def startTable (s : State) (c : Context) (r : Running) (hy : Hyper) (step : Nat) : State × Bool :=
  if s.tier.log.any fun e => e.sess == c.sess && decide (e.step + 64 ≤ step) then
    (setCtx s c.sess fun c => { c with logWait := some { ref := r.ref, age := some (step - 64), bytes := 0 } }, false)
  else
    let e := hy.ring step (fld r.word 0x28 15 8)
    (pass (setCtx (setPending s c.sess step) c.sess fun c => { c with ringProvisional := some e, logWait := none }) r.ref 0, true)

/-- Rows, marks and completion of a started command. -/
def goTable (h : Half) (s : State) (r : Running) (step : Nat) : Except CmdErr State := do
  match findCtx s r.sess with
  | none => pure s
  | some c =>
    match c.ringProvisional with
    | none => pure s
    | some e =>
      let q ← passRows h r.ref r.sess e.hyper step (gradRows s c r.ref step) (setCtx s r.sess fun c => { c with logWait := none })
      if q.2 = false then pure q.1
      else
        match findCtx q.1 r.sess with
        | none => pure q.1
        | some c1 =>
          let s1 := if (passed q.1 r.ref).contains 1 then q.1 else pass (sendMarks q.1 c1 h step (replicasSent q.1 c1 r.ref)) r.ref 1
          if marksHeld s1 c1 step then pure (shareDone s1 (.rim h) r.ref) else pure s1

/-- RM_OPT in table mode; the half that comes to it performs it for both. -/
def rmOptTable (h : Half) (s : State) (c : Context) (r : Running) : Except CmdErr State := do
  let w := r.word
  let inst := EngineInst.rim h
  let step := fld w 0x30 31 0
  if otherDone s h r.ref then pure (shareDone s inst r.ref)
  else
    mustBe inst (fld w 0x10 47 0 == 0 && fld w 0x18 47 0 == 0 && fld w 0x20 47 0 == 0)
    match optGate c step with
    | .bad => .error (errBad inst)
    | .wait => pure s
    | .run =>
      if (passed s r.ref).contains 0 then goTable h s r step
      else
        let hy ← memTry h.num (readHyper s c w)
        let q := startTable s c r hy step
        if q.2 then goTable h q.1 r step else pure q.1

def execRmOptTable (h : Half) (s : State) : Host.Outcome State Fault Refusal :=
  .next (withRunning s (.rim h) (fun w => cmdOpcode w == 0x43 && fld w 0x28 3 0 == 15) (rmOptTable h))

/-- A running command of Rim waits for a decision or the log (08 R425; 10 R522, R523); the wait counts as WAIT_SEMAPHORE. -/
def rimWaits (c : Context) (r : Running) : Bool :=
  let forLog := match c.logWait with | some w => w.ref == r.ref | none => false
  forLog || (cmdOpcode r.word == 0x43 && optGate c (fld r.word 0x30 31 0) == .wait)

end Sys2Proof.Machine
end

