-- ==== Sys2Proof/Machine/Clock.lean ====
section
/-! DEFINITION. Module time: what a nanosecond without a command changes (log entry 1). Nothing else of the block acts on
an empty queue: what the spec does at a tick has a command of its own. -/

namespace Sys2Proof.Machine

/-- The instances that a task can run on. -/
def taskInstances (t : Task) : List EngineInst :=
  (Engine.all.map fun e => e.inst).filter fun i => i.engine == t.engine && i.named t.halves

/-- The field of the list status record to which a list's present moment counts (03 R184), by its place in CmdList.times:
0 context, 1 pre-empted (09 R457 under a rekey), 2 priority, 3 throttle, 4 delay, 5 semaphore, 6 run. -/
def timeClass (s : State) (l : CmdList) : Nat :=
  let mine := fun (r : Running) => r.ref.list == l.uid
  let resident := match findCtx s l.sess with | some c => c.slot.isSome | none => true
  let tokensOut := match findCtx s l.sess with
    | some c => (findTenant s c.tenant).hbmTokens == some 0 || (findTenant s c.tenant).fabricTokens == some 0
    | none => false
  let waits := fun (r : Running) => match findCtx s l.sess with | some c => rimWaits c r | none => false
  if s.hbm.rekeying.isNone && (s.engines.any fun e => e.running.any fun r => mine r && !r.isDelay && !waits r) then 6
  else if !resident then 0
  else if l.preempted || s.hbm.rekeying.isSome then 1
  else if (List.range l.tasks.length).any fun ti =>
      match l.tasks[ti]? with
      | some t => (taskInstances t).any fun i => canFire s i l ti
      | none => false then 2
  else if tokensOut then 3
  else if (s.engines.any fun e => e.running.any fun r => mine r && r.isDelay) || s.delayWaits.any fun d => d.ref.list == l.uid then 4
  else 5

/-- The time of every list that has not ended is divided among the seven fields (03 R184). -/
def accountLists (s : State) (n : Nat) : State :=
  { s with lists := s.lists.map fun l =>
      if l.ended.isSome then l else { l with times := modifyAt (fun t => t + n) (timeClass s l) l.times } }

/-- Times of contexts: waiting to become resident, holding fewer ways than the quota (12 Table 12.4), lookups held
(08 Table 8.9), contributions waiting and requests held by their pseudo-channel (09 Table 9.4), commands waiting for the
log and time under WEAR_THROTTLE (10 Table 10.8), and with a collective running (11 Table 11.11). -/
def accountContexts (s : State) (n : Nat) : State :=
  { s with contexts := s.contexts.map fun c =>
      let waiting := s.waitQueue.any fun w => w.1 == c.sess
      let q := quotaLimit s c.tenant 0x05
      let short := c.slot.isSome && (decide (c.waysWest < q) || decide (c.waysEast < q))
      let held := (s.heldLookups.filter fun h => h.sess == c.sess && h.forStep).length +
        (s.requests.filter fun r => r.sess == c.sess && r.state == .held).length
      let stuck := (s.requests.filter fun r => r.sess == c.sess &&
        (r.state == .queued || r.state == .sorting || r.state == .memory) && !pcServes s r.pc).length
      let ctr2 := if c.waiting = [] then c.memCtr else bump c.memCtr 11 (n * c.waiting.length)
      let tier2 := if c.logWait.isSome then bump c.tierCtr 10 n else c.tierCtr
      { c with contextWaitNs := if waiting then c.contextWaitNs + n else c.contextWaitNs,
               waysShortNs := if short then c.waysShortNs + n else c.waysShortNs,
               rimCtr := if held = 0 then c.rimCtr else bump c.rimCtr 13 (n * held),
               memCtr := if stuck = 0 then ctr2 else bump ctr2 14 (n * stuck),
               tierCtr := if s.tier.throttle then bump tier2 14 n else tier2,
               fabricCtr := if c.groups.any (fun g => g.current.isSome) then bump c.fabricCtr 6 n else c.fabricCtr } }

/-- Time under a throttle of the governor (14 R689), and of a tenant whose bucket is empty while a request waits (12
Table 12.4). -/
def accountPower (s : State) (n : Nat) : State :=
  { s with
    power := { s.power with throttledNs := if s.power.level = 0 ∧ s.power.rampRefused = false then s.power.throttledNs else s.power.throttledNs + n }
    tenants := s.tenants.map fun t =>
      let queued := s.requests.any fun r => r.state == .queued && (s.contexts.any fun c => c.sess == r.sess && c.tenant == t.id)
      { t with hbmThrottleNs := if t.hbmTokens == some 0 && queued then t.hbmThrottleNs + n else t.hbmThrottleNs,
               fabricThrottleNs := if t.fabricTokens == some 0 && s.fabric.sent ≠ [] then t.fabricThrottleNs + n else t.fabricThrottleNs } }

/-- The Splints that hold a chunk not finished. -/
def busySplints (s : State) : List Nat :=
  (s.jobs.flatMap fun j => j.chunks.filterMap fun k => match k.state with | .claimed x => some (CoreId.num x) | _ => none).eraseDups

/-- Add to a counter of a list of counters. -/
def addTo (l : List (Nat × Nat)) (k n : Nat) : List (Nat × Nat) :=
  if l.any fun p => p.1 == k then mapIf (fun p => p.1 == k) (fun p => (k, p.2 + n)) l else l ++ [(k, n)]

/-- Busy time of the Splints (06 R341). -/
def accountSplints (s : State) (n : Nat) : State :=
  { s with splintBusyNs := (busySplints s).foldl (fun l k => addTo l k n) s.splintBusyNs }

/-- What a nanosecond adds to module time: 1, or 0 or 2 once in 10,000 while the module slews to its parent, a rate of 100 ppm
(11 R600). -/
def tickStep (s : State) : Nat × Int :=
  let f := s.fabric
  if f.slewNs = 0 ∨ s.now < f.slewAt + 10000 then (1, 0) else if 0 < f.slewNs then (2, 1) else (0, -1)

/-- One nanosecond of the clock (00 R9). -/
def tick (s : State) : State :=
  let n := tickStep s
  let s1 := accountSplints (accountPower (accountContexts (accountLists s n.1) n.1) n.1) n.1
  let s2 := { s1 with now := s1.now + n.1 }
  if n.2 = 0 then s2 else { s2 with fabric := { s2.fabric with slewNs := s2.fabric.slewNs - n.2, slewAt := s2.now } }

end Sys2Proof.Machine
end

