-- ==== Sys2Proof/Machine/Link.lean ====
section
/-! DEFINITION. The links: bring-up, flits and their retry, holding, narrowing and losing a port, the link-state map, and
module time (chapter 11, R553-R561, R569, R570, R598-R600). -/

namespace Sys2Proof.Machine

/-! ### Link messages (11 R554, R557) -/

/-- Send a link message: a LINK flit, twice in succession. -/
def linkOut (s : State) (n : Nat) (msg : List Nat) : State :=
  setPort s n fun p =>
    let f := flitBytes p.nextSeq.toNat p.expected.toNat 0 2 false false 0 0 (Config.linkBody msg)
    { p with out := p.out ++ [f, f] }

/-- The ports of this module that are live, as a mask. -/
def liveMask (s : State) : BitVec 12 := BitVec.ofNat 12 (sumNat ((List.range 12).map fun k => if portUp s k then 2 ^ k else 0))

/-- The module floods its link state over the ports that are up (11 R553, R560). -/
def floodLinks (s : State) : State :=
  (List.range 12).foldl (fun st k => if portUp st k then linkOut st k [4, myNumber s, (liveMask s).toNat] else st) s

/-! ### The grandmaster (11 R598, R600) -/

/-- Every module number of the installation, rising. -/
def allModules (dims : List Nat) : List Nat :=
  (List.range (Nat.max 1 (nthD 1 dims 2))).flatMap fun z => (List.range (Nat.max 1 (nthD 1 dims 1))).flatMap fun y =>
    (List.range (Nat.max 1 (nthD 1 dims 0))).map fun x => moduleOf [x, y, z]

/-- The fabric of a module is up: it has a live port; a module not in the map has all of them live. -/
def fabricUp (s : State) (m : Nat) : Bool :=
  if m = myNumber s then liveMask s != 0
  else match s.fabric.links.find? fun l => l.1 == m with
    | some l => l.2 != 0
    | none => true

/-- The grandmaster is the module with the lowest number whose fabric is up; an installation of one is its own. A module without
a path to it clears LOCKED and runs free. -/
def chooseGrandmaster (s : State) : State :=
  let f := s.fabric
  if f.dims = [1, 1, 1] then { s with fabric := { f with grandmaster := true, locked := true, everLocked := true, gm := myNumber s } }
  else
    match (allModules f.dims).find? (fabricUp s) with
    | none => { s with fabric := { f with grandmaster := false, locked := false } }
    | some m =>
      if m = myNumber s then { s with fabric := { f with grandmaster := true, locked := true, everLocked := true, gm := m } }
      else if liveMask s != 0 && (nextHop s (myNumber s) m).isSome then { s with fabric := { f with grandmaster := false, gm := m } }
      else { s with fabric := { f with grandmaster := false, locked := false } }

/-- A change of this module's links: told to the others, and the grandmaster chosen anew. -/
def linksChanged (s : State) : State := chooseGrandmaster (floodLinks s)

/-- LINK_STATE_UPDATE: the flooded map of a module (11 R570). -/
def linkStateUpdate (s : State) (m : Nat) (live : BitVec 12) : State :=
  if m = myNumber s then s
  else chooseGrandmaster { s with fabric := { s.fabric with links := (s.fabric.links.filter fun l => l.1 != m) ++ [(m, live)] } }

def execLinkStateUpdate (module : BitVec 12) (live : BitVec 12) (s : State) : Host.Outcome State Fault Refusal :=
  .next (linkStateUpdate s module.toNat live)

/-- The correction of one exchange: within 1 ms at most 100 ns, in whole ns towards zero. -/
def slewOf (offset : Int) : Int :=
  let ns := offset.tdiv 65536
  if ns < -100 then -100 else if 100 < ns then 100 else ns

/-- TIME_EXCHANGE with the parent, the offset in 2⁻¹⁶ ns being the parent's time less this module's: the first lock of an upsett
sets the counter, later corrections slew it (11 R598, R600). -/
def timeExchange (s : State) (offset : Int) : State :=
  if s.fabric.grandmaster = true ∨ liveMask s = 0 then s
  else
    let s1 := { s with fabric := { s.fabric with offset := offset } }
    if s.fabric.locked = false ∧ s.mstate = .upsett then
      { s1 with now := ((s.now : Int) + offset.tdiv 65536).toNat, fabric := { s1.fabric with locked := true, everLocked := true, slewNs := 0 } }
    else { s1 with fabric := { s1.fabric with locked := true, everLocked := true, slewNs := slewOf offset } }

def execTimeExchange (offset : Int) (s : State) : Host.Outcome State Fault Refusal := .next (timeExchange s offset)

/-! ### Losing a port (11 R560; 13 Table 13.2) -/

/-- A port is DOWN: its traffic moves, the new link state is flooded, and the event counts. -/
def portLost (s : State) (n : Nat) (lastAccepted : BitVec 12) : State :=
  bucketEvent (linksChanged (portDown s n lastAccepted .down)) 13 (BitVec.ofNat 16 (0xC000 + n)) 0 0

/-- PORT_HOLD_TIMEOUT: a hold or retrain has lasted 5 ms; the neighbour has reported what it accepted. -/
def holdTimeout (s : State) (n : Nat) (lastAccepted : BitVec 12) : State :=
  match findPort s n with
  | none => s
  | some p => if p.state = .held ∧ p.heldSince + 5000000 ≤ s.now then portLost s n lastAccepted else s

def execPortHoldTimeout (port : PortNo) (lastAccepted : BitVec 12) (s : State) : Host.Outcome State Fault Refusal :=
  .next (holdTimeout s port.val lastAccepted)

/-- LANE_FAILURE: a retrain on the pair of lanes that is whole, or the port is DOWN (11 R559, R560). -/
def laneFailure (s : State) (n lane : Nat) : State :=
  match findPort s n with
  | none => s
  | some p =>
    if p.lanes.getLsbD lane = false ∨ p.state = .retired then s
    else
      let s1 := laneFailed s n lane
      match findPort s1 n with
      | none => s1
      | some q =>
        if q.state = .down ∧ p.state ≠ .down then bucketEvent (linksChanged s1) 13 (BitVec.ofNat 16 (0xC000 + n)) 0 0
        else if q.state = .down then s1
        else linkOut (setPort s1 n fun q => { q with retrains := Nat.min (q.retrains + 1) 65535 }) n [2]

def execLaneFailure (port : PortNo) (lane : Fin 4) (s : State) : Host.Outcome State Fault Refusal := .next (laneFailure s port.val lane.val)

/-- HOLD: both ends stop sending DATA flits (11 R558). -/
def execHold (port : PortNo) (s : State) : Host.Outcome State Fault Refusal := .next (holdPort s port.val)

/-- RESUME: traffic goes on in order. -/
def resumePort (s : State) (n : Nat) : State := pump (setPort s n fun p => if p.state = .held then { p with state := .up } else p) n

def execResume (port : PortNo) (s : State) : Host.Outcome State Fault Refusal := .next (resumePort s port.val)

/-! ### Bring-up (11 R553, Table 11.2) -/

/-- The port that faces a port: the same plane, the opposite direction. -/
def facingPort (n : Nat) : Nat := if n / 2 % 2 = 0 then n + 2 else n - 2

/-- The module that a port should reach. -/
def expectedPeer (s : State) (n : Nat) : Nat := moveOn s.fabric.dims (myNumber s) (n / 4) (n / 2 % 2 == 1)

/-- LINK_STATE: the wiring check, then the credits, SEQ 0 and the port UP; a port miswired, or of an installation of one, is in
WIRING (R552). -/
def linkState (s : State) (n : Nat) (peer peerPort : Nat) (inc : Byte) : State :=
  match findPort s n with
  | none => s
  | some p =>
    let s1 := { s with fabric := { s.fabric with peers := (s.fabric.peers.filter fun x => x.1 != peer) ++ [(peer, inc)] } }
    let s2 := setPort s1 n fun q => { q with peer := peer, peerPort := peerPort }
    if p.state = .retired ∨ p.lanes = 0 then s
    else if p.state = .up ∨ p.state = .held then s2
    else if peer = expectedPeer s n ∧ peerPort = facingPort n ∧ s.fabric.dims ≠ [1, 1, 1] then
      linksChanged (setPort s2 n fun q =>
        { q with state := .up, credits := fullCredits, nextSeq := 0, expected := 0, retry := [], freed := [], assembly := [], nakOpen := false })
    else setPort s2 n fun q => { q with state := .wiring, lastTry := s.now }

def execLinkState (port : PortNo) (peer : BitVec 12) (peerPort : PortNo) (incarnation : Byte) (s : State) : Host.Outcome State Fault Refusal :=
  .next (linkState s port.val peer.toNat peerPort.val incarnation)

/-- WIRING_RETRY: a port in WIRING tries the exchange again once per second. -/
def wiringRetry (s : State) (n : Nat) : State :=
  match findPort s n with
  | none => s
  | some p =>
    if p.state = .wiring ∧ p.lastTry + 1000000000 ≤ s.now then
      setPort (linkOut s n [1, myNumber s, n, s.faults.moduleIncarnation.toNat]) n fun q => { q with lastTry := s.now }
    else s

def execWiringRetry (port : PortNo) (s : State) : Host.Outcome State Fault Refusal := .next (wiringRetry s port.val)

/-! ### Flits (11 R554-R556, R561) -/

def flitKind (f : List Byte) : Nat := bits (fieldAt f 0 8) 28 27

/-- A flit is 256 B and its CRC holds. -/
def flitOk (f : List Byte) : Bool := f.length == 256 && fieldAt f 0xFC 4 == crc32 (f.take 252)

/-- The flits still unacknowledged when the other end next expects ack. -/
def ackRetry (ack : BitVec 12) (p : Port) : List (BitVec 12 × List Byte) :=
  if ack = p.nextSeq then [] else if p.retry.any fun x => x.1 == ack then retryFrom ack p.retry else p.retry

/-- Acknowledgement and credits of an accepted flit. -/
def takeAck (f : List Byte) (p : Port) : Port :=
  let h := fieldAt f 0 8
  { p with retry := ackRetry (BitVec.ofNat 12 (bits h 23 12)) p, credits := modifyAt (fun c => c + bits h 42 35) (bits h 34 32) p.credits }

def askAgain (s : State) (n : Nat) : State :=
  match findPort s n with
  | none => s
  | some p => linkOut (setPort s n fun q => { q with nakOpen := true }) n [0, p.expected.toNat]

/-- A flit that fails its CRC, as those of an uncorrectable codeword do, is discarded and counted; a NAK asks for the expected
SEQ. -/
def badFlit (s : State) (n : Nat) : State := bucketEvent (askAgain s n) 11 (BitVec.ofNat 16 (0xC000 + n)) 0 0

/-- The packet came over the wrap link of its axis (11 R569): to coordinate 0 in the positive direction, to D − 1 in the
negative. -/
def overWrap (s : State) (n : Nat) : Bool :=
  let x := nthD 0 s.fabric.coords (n / 4)
  if n / 2 % 2 = 1 then x == 0 else x + 1 == nthD 1 s.fabric.dims (n / 4)

/-- A packet on its way to another module stays on its plane while the port there is up, else moves to the pair port (11 R568);
with neither it is lost (R570). -/
def forwardPacket (s : State) (n vc : Nat) (p : Packet) : State :=
  let lost := { s with fabric := { s.fabric with lostCut := s.fabric.lostCut + 1 } }
  match nextHop s (myNumber s) p.dstMod.toNat with
  | none => lost
  | some (axis, neg) =>
    let odd := axis == n / 4 && (vc % 2 == 1 || overWrap s n)
    let own := portNo axis neg (n % 2)
    if portUp s own then enqueue s own odd p
    else if portUp s (pairPort own) then enqueue s (pairPort own) odd p
    else lost

/-- A whole packet: for this module it waits for its own command, else it goes on. -/
def arrivedPacket (s : State) (n vc : Nat) (p : Packet) : State :=
  if p.dstMod.toNat = myNumber s then keepPacket s p else forwardPacket s n vc p

def flitsOf (bytes : Nat) : Nat := ceilDiv bytes 244

/-- Receive slots freed on a channel, to be returned as credits. -/
def freeSlots (vc n : Nat) (p : Port) : Port :=
  { p with freed := if p.freed.any fun x => x.1 == vc then mapIf (fun x => x.1 == vc) (fun x => (x.1, x.2 + n)) p.freed else p.freed ++ [(vc, n)] }

/-- An accepted DATA flit joins its channel's packet; at END the packet is whole and its slots are free. -/
def acceptFlit (s : State) (n : Nat) (p : Port) (f : List Byte) : State :=
  let parts := flitParts f
  let vc := parts.1
  let sofar := if parts.2.2.1 then [] else match p.assembly.find? fun x => x.1 == vc with | some x => x.2 | none => []
  let body := sofar ++ parts.2.1
  let s1 := setPort s n fun q => takeAck f { q with expected := q.expected + 1, nakOpen := false,
                                                    assembly := (q.assembly.filter fun x => x.1 != vc) ++ (if parts.2.2.2 then [] else [(vc, body)]) }
  if parts.2.2.2 then arrivedPacket (setPort s1 n (freeSlots vc (flitsOf body.length))) n vc (decodePacket body) else s1

/-- Send what has become possible, or return credits in an IDLE flit. -/
def afterFlit (s : State) (n : Nat) : State := setPort (pump s n) n idleOut

/-- DATA_FLIT. -/
def dataFlit (s : State) (n : Nat) (f : List Byte) : State :=
  match findPort s n with
  | none => s
  | some p =>
    if p.state ≠ .up ∧ p.state ≠ .held then s
    else if flitOk f = false then badFlit s n
    else if flitKind f ≠ 1 then s
    else if BitVec.ofNat 12 (fieldAt f 0 8) ≠ p.expected then askAgain s n
    else afterFlit (acceptFlit s n p f) n

def execDataFlit (port : PortNo) (flit : List Byte) (s : State) : Host.Outcome State Fault Refusal := .next (dataFlit s port.val flit)

/-- IDLE_FLIT: acknowledgements and credits. -/
def idleFlit (s : State) (n : Nat) (f : List Byte) : State :=
  match findPort s n with
  | none => s
  | some p =>
    if p.state ≠ .up ∧ p.state ≠ .held then s
    else if flitOk f = false then badFlit s n
    else if flitKind f ≠ 0 then s
    else afterFlit (setPort s n (takeAck f)) n

def execIdleFlit (port : PortNo) (flit : List Byte) (s : State) : Host.Outcome State Fault Refusal := .next (idleFlit s port.val flit)

/-- NAK: every flit from the named SEQ on is sent again, in order; the replay is counted (13 Table 13.2 row 10). -/
def nakReceived (s : State) (n : Nat) (seq : BitVec 12) : State :=
  match findPort s n with
  | none => s
  | some p =>
    if p.state ≠ .up ∧ p.state ≠ .held then s
    else
      let keep := ackRetry seq p
      let s1 := setPort s n fun q => { q with retry := keep, out := q.out ++ keep.map fun x => x.2 }
      bucketEvent (pump s1 n) 10 (BitVec.ofNat 16 (0xC000 + n)) 0 0

def execNak (port : PortNo) (seq : BitVec 12) (s : State) : Host.Outcome State Fault Refusal := .next (nakReceived s port.val seq)

/-- NAK_REPEAT: while the expected SEQ has not come. -/
def nakRepeat (s : State) (n : Nat) : State :=
  match findPort s n with
  | none => s
  | some p => if p.nakOpen then linkOut s n [0, p.expected.toNat] else s

def execNakRepeat (port : PortNo) (s : State) : Host.Outcome State Fault Refusal := .next (nakRepeat s port.val)

end Sys2Proof.Machine
end

