-- ==== Sys2Proof/Machine/Sentinel.lean ====
section
/-! DEFINITION. The sentinel: its path through the torus, the votes of a step, the settle of a commit, and common aborts
(chapters 08 and 11). -/

namespace Sys2Proof.Machine

/-! ### The path (11 R596) -/

/-- The other members of a group on this module's line along an axis. -/
def lineOf (s : State) (g : Group) (axis : Nat) : List Nat :=
  let me := coordsOf (myNumber s)
  g.members.filter fun m => m != myNumber s && (List.range 3).all fun k => k == axis || nthD 0 (coordsOf m) k == nthD 0 me k

/-- Send a CONTROL packet of a group both ways along an axis, when a member lies on the line. -/
def floodAxis (s : State) (c : Context) (g : Group) (axis : Nat) (p : Packet) : State :=
  if lineOf s g axis = [] then s
  else
    let one := fun (neg : Bool) => moveOn s.fabric.dims (myNumber s) axis neg
    [one false, one true].eraseDups.foldl (fun st m =>
      (sendFrom st c .west { p with dstMod := BitVec.ofNat 12 m, srcMod := BitVec.ofNat 12 (myNumber s), incarn := incarnOfModule st m }).1) s

/-- The axis along which a packet of the path comes, its direction and the hops it has come; none for one whose source does not
lie along one axis. -/
def floodFrom (s : State) (p : Packet) : Option (Nat × Bool × Nat) :=
  let a := coordsOf p.srcMod.toNat
  let b := coordsOf (myNumber s)
  match (List.range 3).filter fun k => nthD 0 a k != nthD 0 b k with
  | [k] =>
    let d := Nat.max 1 (nthD 1 s.fabric.dims k)
    let pos := (nthD 0 b k + d - nthD 0 a k % d) % d
    some (k, decide (d < 2 * pos), Nat.min pos (d - pos))
  | _ => none

/-- Every module forwards a packet of the path, member or not, to a distance of half the axis. -/
def forwardFlood (s : State) (p : Packet) : State :=
  match floodFrom s p with
  | none => s
  | some (k, neg, n) =>
    if n < nthD 1 s.fabric.dims k / 2 then
      let m := moveOn s.fabric.dims (myNumber s) k neg
      (dispatchPacket s .west { p with dstMod := BitVec.ofNat 12 m, incarn := incarnOfModule s m }).1
    else s

/-- What becomes of a packet of the path: one of an older incarnation is dropped, any other goes on, and a member takes the
state up, with the axis it came along. -/
def withFlood (s : State) (p : Packet) (type : Nat) (f : State → Context → Group → Nat → State) : State :=
  if p.type.toNat ≠ type ∨ p.dstMod.toNat ≠ myNumber s then s
  else
    let s1 := takePacket s p
    if p.incarn ≠ s1.faults.moduleIncarnation then s1
    else
      let s2 := forwardFlood s1 p
      match groupOfPacket s2 p, floodFrom s2 p with
      | some (c, g), some (k, _, _) => if g.members.contains p.srcMod.toNat then f s2 c g k else s2
      | _, _ => s2

/-! ### Votes (08 R433) -/

/-- The state of a round that members send: OR of the votes held, the phase, and the smallest module number among set votes. -/
def votePacket (s : State) (g : Group) (step : Nat) (settle : Bool) (phase : Nat) (set : Bool) (lowest : Nat) : Packet :=
  { newPacket s g 0x0D 0 with step := BitVec.ofNat 32 step, b := BitVec.ofNat 64 (lowest % 4096),
                              a := BitVec.ofNat 64 ((if set then 1 else 0) + (if settle then 2 else 0) + 4 * phase) }

/-- The votes of a phase from every member of a line; none while one is missing. -/
def phaseVotes (g : Group) (step : Nat) (settle : Bool) (phase : Nat) (line : List Nat) : Option (List VoteRx) :=
  let of := fun (m : Nat) => g.votes.find? fun v => v.step == step && v.settle == settle && v.phase == phase && v.src == m
  if line.all fun m => (of m).isSome then some (line.filterMap of) else none

def noModule : Nat := 0xFFFF

def mergeVotes (set : Bool) (lowest : Nat) (vs : List VoteRx) : Bool × Nat :=
  vs.foldl (fun a v => if v.set then (true, Nat.min a.2 v.lowest) else a) (set, lowest)

/-- Forget a round's votes. -/
def dropVotes (s : State) (sess : U32) (h step : Nat) (settle : Bool) : State :=
  setGroup s sess h fun g => { g with votes := g.votes.filter fun v => !(v.step == step && v.settle == settle) }

def setVote (s : State) (sess : U32) (f : VoteState → VoteState) : State :=
  setCtx s sess fun c => { c with vote := c.vote.map f }

/-- µs from the vote to the decision; the largest seen is counted (08 Tables 8.6, 8.9). -/
def noteDecision (s : State) (sess : U32) (d : Decision) : State :=
  let s1 := setVote s sess fun v => { v with decision := d, decidedAt := s.now }
  setCtx s1 sess fun c => match c.vote with
    | some v => { c with rimCtr := modifyAt (fun x => if x.toNat < (v.decidedAt - v.castAt) / 1000 then BitVec.ofNat 64 ((v.decidedAt - v.castAt) / 1000) else x) 14 c.rimCtr }
    | none => c

/-- Advance a vote's round while the votes of its phase are there; after Z comes the decision (08 R433, R435). -/
def advanceVote : Nat → State → U32 → State
  | 0, s, _ => s
  | fuel + 1, s, sess =>
    match (findCtx s sess).bind fun c => c.vote.map fun v => (c, v) with
    | none => s
    | some (c, v) =>
      if v.decision ≠ .none then s
      else if 3 ≤ v.phase then
        let s1 := noteDecision s sess (if v.set then .skip else .commit)
        dropVotes s1 sess v.group v.step false
      else
        match findGroup c v.group with
        | none => s
        | some g =>
          match phaseVotes g v.step false v.phase (lineOf s g v.phase) with
          | none => s
          | some vs =>
            let m := mergeVotes v.set v.lowest vs
            let s1 := setVote s sess fun v => { v with set := m.1, lowest := m.2, phase := v.phase + 1 }
            let s2 := if v.phase + 1 < 3 then floodAxis s1 c g (v.phase + 1) (votePacket s1 g v.step false (v.phase + 1) m.1 m.2) else s1
            advanceVote fuel s2 sess

/-! ### Settles (08 R438, R439) -/

def setSettle (s : State) (sess : U32) (step : Nat) (f : Settle → Settle) : State :=
  setCtx s sess fun c => { c with settles := mapIf (fun x => x.step == step) f c.settles }

/-- Write a field of a step record, when it can still be written. -/
def writeRecord (s : State) (sess : U32) (va : Nat) (bs : List Byte) : State :=
  match findCtx s sess with
  | none => s
  | some c => match writeVa s c .wr va bs with | .ok s1 => s1 | .error _ => s

/-- SETTLE_COMPLETE: previous versions are dropped, SETTLE_US is written, held lookups are served (08 R428, R438). -/
def settleDone (s : State) (sess : U32) (x : Settle) : State :=
  let s1 := setCtx s sess (settleCtx x.step)
  let s2 := writeRecord s1 sess (x.record + 0x18) (leBytes 4 ((s.now - x.startedAt) / 1000))
  releaseHeld (dropVotes s2 sess x.group x.step true) sess

/-- Advance the settle of a step while the states of its phase are there. -/
def advanceSettle : Nat → State → U32 → Nat → State
  | 0, s, _, _ => s
  | fuel + 1, s, sess, step =>
    match (findCtx s sess).bind fun c => (c.settles.find? fun x => x.step == step).map fun x => (c, x) with
    | none => s
    | some (c, x) =>
      if x.aborted then s
      else if 3 ≤ x.phase then settleDone s sess x
      else
        match findGroup c x.group with
        | none => s
        | some g =>
          match phaseVotes g step true x.phase (lineOf s g x.phase) with
          | none => s
          | some _ =>
            let s1 := setSettle s sess step fun x => { x with phase := x.phase + 1 }
            let s2 := if x.phase + 1 < 3 then floodAxis s1 c g (x.phase + 1) (votePacket s1 g step true (x.phase + 1) false noModule) else s1
            advanceSettle fuel s2 sess step

/-- VOTE: a member takes the state up; its round goes on as far as it can. -/
def voteReceived (s : State) (p : Packet) : State :=
  withFlood s p 0x0D fun s1 c g axis => withResident s1 p c fun s2 c =>
    let a := p.a.toNat
    let v : VoteRx := { step := p.step.toNat, settle := a / 2 % 2 == 1, phase := axis, src := p.srcMod.toNat, set := a % 2 == 1,
                        lowest := p.b.toNat % 4096 }
    let s3 := setGroup s2 c.sess g.handle fun g =>
      { g with votes := v :: g.votes.filter fun x => !(x.step == v.step && x.settle == v.settle && x.phase == v.phase && x.src == v.src) }
    if v.settle then advanceSettle 4 s3 c.sess v.step else advanceVote 4 s3 c.sess

def execVote (p : Packet) (s : State) : Host.Outcome State Fault Refusal := .next (voteReceived s p)

/-! ### Common aborts (08 R440-R442; 11 R594, R595) -/

def abortPacket (s : State) (g : Group) (kind seq origin err : Nat) : Packet :=
  { newPacket s g 0x0E 0 with msg := BitVec.ofNat 32 seq, a := BitVec.ofNat 64 (err + 65536 * kind), b := BitVec.ofNat 64 (origin % 4096) }

/-- Send an abort on along the axes from one on: the state of a phase is sent on by every member that took it up. -/
def floodAbort (s : State) (c : Context) (g : Group) (from_ kind seq origin err : Nat) : State :=
  ((List.range 3).filter fun k => decide (from_ ≤ k)).foldl (fun st k => floodAxis st c g k (abortPacket st g kind seq origin err)) s

/-- Keep the record of an abort: of those for one collective or step the one of the lowest originator, and for collectives the
last 16 sequences (11 R594, R595). -/
def keepAbort (kind seq origin err : Nat) (g : Group) : Group :=
  let old := g.aborts.find? fun x => x.1 == kind && x.2.1 == seq
  let rest := g.aborts.filter fun x => !(x.1 == kind && x.2.1 == seq)
  let e := match old with | some x => if x.2.2.1 ≤ origin then x else (kind, seq, origin, err) | none => (kind, seq, origin, err)
  let colls := (e :: rest).filter fun x => x.1 == 0
  { g with aborts := ((e :: rest).filter fun x => x.1 != 0) ++ colls.take 16 }

/-- A collective in progress learns of an abort for it; the first time counts for the end (11 R594). -/
def noteCollAbort (now seq origin err : Nat) (g : Group) : Group :=
  { g with current := g.current.map fun x =>
      if x.seq ≠ seq then x
      else match x.abort with
        | some (o, e, t) => { x with abort := some (if o ≤ origin then (o, e, t) else (origin, err, t)) }
        | none => { x with abort := some (origin, err, now) } }

/-- This module originates an abort. -/
def originateAbort (s : State) (sess : U32) (h kind seq err : Nat) : State :=
  let me := myNumber s
  let s1 := setGroup s sess h fun g => keepAbort kind seq me err (if kind = 0 then noteCollAbort s.now seq me err g else g)
  match (findCtx s1 sess).bind fun c => (findGroup c h).map fun g => (c, g) with
  | none => s1
  | some (c, g) => floodAbort s1 c g 0 kind seq me err

/-- A step that is aborted at this member: the decision becomes ABORTED with the error and the originator. -/
def voteAborted (s : State) (sess : U32) (origin err : Nat) : State :=
  setVote (noteDecision s sess .aborted) sess fun v => { v with origin := origin, error := err }

/-- The step record of a reverted step (08 R441). -/
def revertRecord (s : State) (sess : U32) (x : Settle) (origin : Nat) : State :=
  writeRecord (writeRecord s sess (x.record + 0x10) [3]) sess (x.record + 0x20) (leBytes 4 origin)

/-- A decision abort for a step (08 R441): a committed step that has not settled is reverted; one not yet applied is skipped;
in both cases the member's STEP_APPLY ends with the common error. -/
def decisionAbort (s : State) (c : Context) (step origin err : Nat) : State :=
  match c.settles.find? fun x => x.step == step with
  | some x =>
    let s1 := revertRecord (revertStep s c.sess step) c.sess x origin
    releaseHeld (faultCommand s1 x.ref (.group err origin (EngineInst.rim .west).unit)) c.sess
  | none =>
    let s1 := if c.rim.pending = step then releaseHeld (skipStep s c.sess step) c.sess else s
    match c.vote with
    | some v => if v.step = step ∧ v.decision ≠ .aborted then voteAborted s1 c.sess origin err else s1
    | none => s1

/-- ABORT: new to this member, or of a lower originator than it knows, an abort is kept, acted on and sent on. -/
def abortReceived (s : State) (p : Packet) : State :=
  withFlood s p 0x0E fun s0 c g axis => withResident s0 p c fun s1 c =>
    let seq := p.msg.toNat
    let err := p.a.toNat % 65536
    let kind := p.a.toNat / 65536 % 4
    let origin := p.b.toNat % 4096
    let known := g.aborts.find? fun x => x.1 == kind && x.2.1 == seq
    let lower := match known with | some x => decide (origin < x.2.2.1) | none => true
    let current := match g.current with | some x => x.seq == seq | none => false
    if lower = false ∨ (kind = 0 ∧ seq < g.nextSeq ∧ current = false) then s1
    else
      let s2 := floodAbort (setGroup s1 c.sess g.handle (keepAbort kind seq origin err)) c g (axis + 1) kind seq origin err
      if kind = 0 then setGroup s2 c.sess g.handle (noteCollAbort s.now seq origin err)
      else if kind = 1 then decisionAbort s2 c seq origin err
      else setSettle s2 c.sess seq fun x => { x with aborted := true }

def execAbort (p : Packet) (s : State) : Host.Outcome State Fault Refusal := .next (abortReceived s p)

/-- DECISION_TIMEOUT: a voter without a decision skips, records ABORTED and sends the decision abort (08 R440). -/
def decisionTimeout (s : State) (sess : U32) : State :=
  match (findCtx s sess).bind fun c => c.vote.map fun v => (c, v) with
  | none => s
  | some (c, v) =>
    match findGroup c v.group with
    | none => s
    | some g =>
      if v.decision ≠ .none ∨ s.now < v.castAt + g.timeoutNs then s
      else
        let s1 := if c.rim.pending = v.step then skipStep s sess v.step else s
        let s2 := voteAborted s1 sess (myNumber s) faultTimeoutColl
        releaseHeld (originateAbort s2 sess g.handle 1 v.step faultTimeoutColl) sess

def execDecisionTimeout (sess : U32) (s : State) : Host.Outcome State Fault Refusal := .next (decisionTimeout s sess)

/-- SETTLE_TIMEOUT: the commit stays, revocable, and a settle abort is sent (08 R442). -/
def settleTimeout (s : State) (sess : U32) : State :=
  match findCtx s sess with
  | none => s
  | some c =>
    match c.settles.find? fun x => !x.aborted && (match findGroup c x.group with
        | some g => decide (x.startedAt + g.timeoutNs ≤ s.now)
        | none => false) with
    | none => s
    | some x => originateAbort (setSettle s sess x.step fun x => { x with aborted := true }) sess x.group 2 x.step faultTimeoutColl

def execSettleTimeout (sess : U32) (s : State) : Host.Outcome State Fault Refusal := .next (settleTimeout s sess)

end Sys2Proof.Machine
end

