-- ==== Sys2Proof/Machine/Objects.lean ====
section
/-! DEFINITION. Memory and objects of a context: allocation, mapping, tables, graphs, ownership maps, coil images and the
destruction of objects (chapters 02, 05, 06, 09, 10 and 11). -/

namespace Sys2Proof.Machine

/-- Run f with the context of a command's session. -/
def withOwnCtx (s : State) (fn : Nat) (tag : U16) (o : Outstanding) (f : Context → State) : State :=
  match findCtx s o.sub.session with
  | none => complete s fn tag stNoSession
  | some c => f c

/-! ### ALLOC_MEM, MEMORY_ZEROED, MAP_HOST and FREE_MEM (02 R720; 09 R473, R474; 12 R627) -/

def pageSize : Nat → Nat
  | 0 => 64 * kib
  | 1 => 2 * mib
  | _ => gib

def placementBacking : Nat → Backing
  | 0 => .nearWest
  | 1 => .nearEast
  | _ => .striped

/-- The backing that P1 asks for: Basket is near one half, in 64-KiB pages (01 R43, 09 R468); none for a value that names
nothing. -/
def askedBacking (p1 : Nat) : Option Backing :=
  let place := p1 % 4
  let page := p1 / 4 % 4
  if place = 3 ∨ page = 3 then none
  else if p1 / 16 % 2 = 1 then
    if page = 0 ∧ place = 0 then some .basketWest else if page = 0 ∧ place = 1 then some .basketEast else none
  else some (placementBacking place)

/-- The quotas an allocation of n bytes would consume, in ascending code (12 R609). -/
def allocNeeds (s : State) (c : Context) (b : Backing) (n : Nat) : List (Nat × Nat) :=
  match b with
  | .basketWest => [(0x04, ceilDiv (basketUse c .west + n) kib)]
  | .basketEast => [(0x04, ceilDiv (basketUse c .east + n) kib)]
  | .host => [(0x0C, ceilDiv (sumNat ((tenantContexts s c.tenant).map hostUse) + n) mib)]
  | _ => hbmNeeds s c n

/-- ALLOC_MEM: parameters, quotas, capacity; it waits for capacity being zeroed that would suffice (12 R627). -/
def allocMem (s : State) (fn : Nat) (tag : U16) (o : Outstanding) : State :=
  withOwnCtx s fn tag o fun c =>
    let n := P0 o
    let page := pageSize (P1 o / 4 % 4)
    match askedBacking (P1 o) with
    | none => complete s fn tag (stBadParam (if n = 0 ∨ n % page ≠ 0 then 0x10 else 0x18))
    | some b =>
      if n = 0 ∨ n % page ≠ 0 then complete s fn tag (stBadParam 0x10)
      else
        match quotaBreach s c.tenant (allocNeeds s c b n) with
        | some code => refuseQuota s c.tenant fn tag code
        | none =>
          if capacityOk s b n false = false then complete s fn tag stNoMemory
          else if capacityOk s b n true = false then markHeld s fn tag
          else
            match allocate s c.sess { size := n, page := page, backing := b, rd := P1 o / 32 % 2 == 1, wr := P1 o / 64 % 2 == 1, use := .plain } with
            | some (va, s1) => complete s1 fn tag (stOk0 va)
            | none => complete s fn tag stNoMemory

def execAllocMem (fn : Nat) (tag : U16) (s : State) : Host.Outcome State Fault Refusal :=
  .next (withCommand s fn tag (isOp 0x10) fun s o => allocMem s fn tag o)

/-- MAP_HOST (02 R720): pages of host memory are 64 KiB. -/
def mapHost (s : State) (fn : Nat) (tag : U16) (o : Outstanding) : State :=
  withOwnCtx s fn tag o fun c =>
    let page := 64 * kib
    if P0 o % page ≠ 0 then complete s fn tag (stBadParam 0x10)
    else if P1 o = 0 ∨ P1 o % page ≠ 0 then complete s fn tag (stBadParam 0x18)
    else
      match quotaBreach s c.tenant (allocNeeds s c .host (P1 o)) with
      | some code => refuseQuota s c.tenant fn tag code
      | none =>
        match allocate s c.sess { size := P1 o, page := page, backing := .host, rd := P2 o % 2 == 1, wr := P2 o / 2 % 2 == 1, use := .plain, bus := P0 o } with
        | some (va, s1) => complete s1 fn tag (stOk0 va)
        | none => complete s fn tag stNoMemory

def execMapHost (fn : Nat) (tag : U16) (s : State) : Host.Outcome State Fault Refusal :=
  .next (withCommand s fn tag (isOp 0x12) fun s o => mapHost s fn tag o)

/-- The arrays of a graph touch an allocation: its offsets, or the start of another of its arrays (05 Table 5.1). -/
def graphUses (g : Graph) (a : Alloc) : Bool :=
  rangesOverlap a.base a.size g.offsets (8 * (g.nodes + 1)) || [g.neighbours, g.weights, g.relations].any fun x => x != 0 && a.has x

/-- An allocation in use by a table, a graph or a bound region (09 R474). -/
def allocInUse (c : Context) (a : Alloc) : Bool :=
  a.use != .plain || (c.regions.any fun r => r.table == 0 && rangesOverlap a.base a.size r.base r.bytes) ||
    c.graphs.any fun g => graphUses g a

/-- A base that ALLOC_MEM or MAP_HOST returned: not storage that the module allocated for itself. -/
def freeable (c : Context) (a : Alloc) : Bool :=
  match a.use with
  | .pool h => match findTable c h with | some t => !t.ownStorage && t.storage == a.base | none => false
  | .pyvos => false
  | _ => true

/-- FREE_MEM: it waits for the lists admitted before it (09 R474). -/
def freeMem (s : State) (fn : Nat) (tag : U16) (o : Outstanding) : State :=
  withOwnCtx s fn tag o fun c =>
    match c.allocs.find? fun a => a.base == P0 o && freeable c a with
    | none => complete s fn tag (stBadParam 0x10)
    | some a =>
      if earlierListsEnded s o = false then markHeld s fn tag
      else if allocInUse c a then complete s fn tag stInUse
      else complete (release s c.sess a) fn tag stOk

def execFreeMem (fn : Nat) (tag : U16) (s : State) : Host.Outcome State Fault Refusal :=
  .next (withCommand s fn tag (isOp 0x11) fun s o => freeMem s fn tag o)

/-! ### CREATE_TABLE (09 R476-R484, R493; 10 R505-R510) -/

/-- The fields of P1 of CREATE_TABLE. -/
structure TableAsk where
  rows : Nat
  rowBytes : Nat
  fmt : Nat
  optimiser : Nat
  tiered : Bool
  hub : Bool
  placement : Nat
  image : Nat
  deriving DecidableEq, Repr

def tableAsk (o : Outstanding) : TableAsk :=
  { rows := P0 o, rowBytes := P1 o % 2 ^ 13, fmt := bits (P1 o) 19 16, optimiser := bits (P1 o) 23 20, tiered := bits (P1 o) 24 24 == 1,
    hub := bits (P1 o) 25 25 == 1, placement := bits (P1 o) 27 26, image := P2 o }

/-- The formats of tables, and the floating formats among them (04 Table 4.2, 09 R477). -/
def tableFormat (fmt : Nat) : Bool := decide (fmt ≤ 0xA)
def floatingFormat (fmt : Nat) : Bool := decide (fmt ≤ 0x7)

/-- 09 R477, 08 R409 and 02 Table 2.6. -/
def TableAsk.shapeOk (k : TableAsk) : Bool :=
  decide (32 ≤ k.rowBytes ∧ k.rowBytes ≤ 4096 ∧ k.rowBytes % 32 = 0) && tableFormat k.fmt && k.rowBytes * 8 % fmtWidth k.fmt == 0 &&
    decide (k.optimiser ≤ 8) && k.placement != 3 &&
    (k.optimiser == 0 || (floatingFormat k.fmt && k.rowBytes * 8 / fmtWidth k.fmt % 32 == 0 && decide (k.rowBytes * 8 / fmtWidth k.fmt ≤ 1024)))

/-- The table a command asks for, before its storage is placed. -/
def TableAsk.table (k : TableAsk) (h : Nat) : Table :=
  { handle := h, fmt := k.fmt, rowBytes := k.rowBytes, rows := k.rows, optimiser := k.optimiser, hub := k.hub, placement := k.placement,
    storage := 0, ownStorage := true, defaultRow := [], ownership := none, poolGroup := none, tier := none }

/-- The least power of two that is not below n. -/
def pow2Above (n : Nat) : Nat → Nat → Nat
  | 0, p => p
  | fuel + 1, p => if n ≤ p then p else pow2Above n fuel (2 * p)

/-- Sets of a row cache (09 R483): at least 4,096, and 2 to the ceiling of log2(ROWS / 256). -/
def rowCacheSets (rows : Nat) : Nat := Nat.max 4096 (pow2Above (ceilDiv rows 256) 64 1)

/-- Bytes of a table's storage before rounding (09 R479), or of its row cache with tag blocks (R483). -/
def Table.storageBytes (t : Table) (tiered : Bool) : Nat :=
  if tiered then rowCacheSets t.rows * (16 * 2 * t.stride + 128)
  else
    let recs := (t.rows + 1) * t.stride
    (if t.optimiser = 0 then recs else 2 * recs) + ceilDiv (ceilDiv recs 256) 8

/-- Bytes of the contribution store that a context's first optimiser table reserves (09 R493). -/
def storeNeed (s : State) (c : Context) (optimiser : Nat) : Nat :=
  if optimiser = 0 ∨ c.storeBytes ≠ 0 then 0
  else
    let q := quotaLimit s c.tenant 0x03
    Nat.max ((if q = unlimited then 393216 else q) * mib / 16) gib

/-- What a half must give for an allocation of a backing (01 R41). -/
def halfShare (h : Nat) (b : Backing) (n : Nat) : Nat :=
  match b with
  | .nearWest => if h = 0 then n else 0
  | .nearEast => if h = 1 then n else 0
  | .striped => n / 2
  | _ => 0

/-- Several HBM needs fit together. -/
def capacityAll (s : State) (needs : List (Backing × Nat)) (withZeroing : Bool) : Bool :=
  [0, 1].all fun h =>
    decide (hbmTaken s h withZeroing + pyvosHbm s + sumNat (needs.map fun p => halfShare h p.1 p.2) ≤ hbmCapacity s h)

/-- The allocation that P2 names for a table that is not tiered: a plain HBM allocation of the context that holds the whole
storage. -/
def namedStorage (c : Context) (base need : Nat) : Option Alloc :=
  c.allocs.find? fun a => a.base == base && isHbm a.backing && a.use == .plain && decide (alignUp need a.page ≤ a.size) && !allocInUse c a

/-- The image of a tiered table in memory that the context may read (10 R509). -/
def tierImage (s : State) (c : Context) (base n : Nat) : Option (List Byte) :=
  match readVa s c .rd base n with
  | .ok bs => some bs
  | .error _ => none

/-- The units of an image, programmed (10 R509). -/
def programImage (s : State) (sess : U32) (t : Table) (img : List Byte) : State :=
  let perUnit := if t.stride ≤ 4096 then 4096 / t.stride * t.stride else 4096
  let n := unitCount t.stride t.rows
  let part := fun (u : Nat) =>
    if t.stride ≤ 4096 then (img.drop (perUnit * u)).take perUnit
    else
      let k := ceilDiv t.stride 4096
      ((img.drop (t.stride * (u / k))).take t.stride |>.drop (4096 * (u % k))).take 4096
  let s1 := (List.range n).foldl (fun st u => programUnit st sess t.handle u (part u)) s
  countProgram (bumpTier (meterWear s1 (t.stride * (t.rows + 1))) sess 1 (t.rows + 1)) sess n

/-- The tier side of a new table: its keys are drawn, and the context's encryption keys with its first (10 R506, R508; 09
R483). -/
def tierSide (s : State) (c : Context) (t : Table) : TierTable × State :=
  let a := draw s
  let b := draw a.2
  let k := draw b.2
  let s1 := if c.tierKeys.isSome then b.2 else setCtx k.2 c.sess fun c => { c with tierKeys := some k.1 }
  ({ sets := rowCacheSets t.rows, setKey := a.1, channelKey := b.1, ways := [], promoting := [], units := [], everSynced := false, isProtected := true }, s1)

/-- The HBM that a table needs besides storage that P2 names. -/
def tableHbm (s : State) (c : Context) (k : TableAsk) (page : Nat) : List (Backing × Nat) :=
  let t := k.table 0
  let own := k.tiered || k.image == 0
  let map := if k.tiered then alignUp (4 * unitCount t.stride t.rows) (64 * kib) else 0
  (if own then [(placementBacking k.placement, alignUp (t.storageBytes k.tiered) page)] else []) ++
    (if map = 0 then [] else [(Backing.striped, map)]) ++
    (let n := storeNeed s c k.optimiser; if n = 0 then [] else [(Backing.striped, n)])

/-- The quotas that CREATE_TABLE consumes, in ascending code. -/
def tableNeeds (s : State) (c : Context) (k : TableAsk) (page : Nat) : List (Nat × Nat) :=
  let t := k.table 0
  let flash := if k.tiered then [(0x06, ceilDiv (sumNat ((tenantContexts s c.tenant).map fun c => sumNat (c.tables.map Table.flashBytes)) +
      4096 * unitCount t.stride t.rows) (10 ^ 9))] else []
  hbmNeeds s c (sumNat ((tableHbm s c k page).map fun p => p.2)) ++ flash ++ [(0x0A, quotaUse s c.tenant 0x0A none + 1)]

/-- Reserve the context's contribution store (09 R493). -/
def reserveStore (s : State) (sess : U32) (n : Nat) : State := setCtx s sess fun c => { c with storeBytes := c.storeBytes + n }

/-- Enter a table in the directory, with a two-version region for an optimiser table that is not tiered (09 R479, R482). -/
def enterTable (s : State) (sess : U32) (t : Table) : State :=
  let recs := (t.rows + 1) * t.stride
  let r : Region := { table := t.handle, base := t.storage, bytes := recs, shadow := t.storage + recs, inShadow := [], provisional := [], unsettled := [] }
  setCtx s sess fun c =>
    { c with nextHandle := c.nextHandle + 1, tables := c.tables ++ [t],
             regions := if t.optimiser ≠ 0 ∧ t.tier.isNone then c.regions ++ [r] else c.regions }

/-- The storage is placed and the table entered: the default row is copied and its state zeroed (09 R480). -/
def placeTable (s : State) (c : Context) (k : TableAsk) (h page : Nat) (img : List Byte) : Option State :=
  let t0 := k.table h
  if k.tiered then
    match allocate s c.sess { size := alignUp (t0.storageBytes true) page, page := page, backing := placementBacking k.placement, rd := true, wr := true, use := .pool h } with
    | none => none
    | some (va, s1) =>
      match allocate s1 c.sess { size := alignUp (4 * unitCount t0.stride t0.rows) (64 * kib), page := 64 * kib, backing := .striped, rd := true, wr := true, use := .pool h } with
      | none => none
      | some (_, s2) =>
        let ts := tierSide s2 c t0
        let row := if k.image = 0 then List.replicate t0.rowBytes 0 else (img.drop (t0.stride * t0.rows)).take t0.rowBytes
        let t := { t0 with storage := va, defaultRow := row, tier := some ts.1 }
        let s3 := enterTable ts.2 c.sess t
        let clean := img.take (t0.stride * t0.rows + t0.rowBytes) ++ List.replicate (t0.stride - t0.rowBytes) 0
        some (if k.image = 0 then s3 else programImage s3 c.sess t clean)
  else if k.image = 0 then
    match allocate s c.sess { size := alignUp (t0.storageBytes false) page, page := page, backing := placementBacking k.placement, rd := true, wr := true, use := .pool h } with
    | none => none
    | some (va, s1) => some (enterTable s1 c.sess { t0 with storage := va, defaultRow := List.replicate t0.rowBytes 0 })
  else
    let at_ := k.image + t0.stride * t0.rows
    let row := Except.getD (List.replicate t0.rowBytes 0) (peekVa s c (plainLoc c) at_ t0.rowBytes)
    let s1 := putBytes s c .inner (at_ + t0.rowBytes) (List.replicate (t0.stride - t0.rowBytes) 0)
    let s2 := setCtx s1 c.sess fun c => { c with allocs := mapIf (fun a => a.base == k.image) (fun a => { a with use := .pool h }) c.allocs }
    some (enterTable s2 c.sess { t0 with storage := k.image, ownStorage := false, defaultRow := row })

/-- What P2 must name: nothing, storage, or a readable image. -/
def tableImage (s : State) (c : Context) (k : TableAsk) : Option (List Byte) :=
  let t := k.table 0
  if k.image = 0 then some []
  else if k.tiered then tierImage s c k.image (t.stride * (k.rows + 1))
  else (namedStorage c k.image (t.storageBytes false)).map fun _ => []

/-- CREATE_TABLE. ROWS must leave the missing mark of 06 R282 free. The page size of storage that the module allocates is the
module's choice (log entry 5). -/
def createTable (s : State) (fn : Nat) (tag : U16) (o : Outstanding) : State :=
  withOwnCtx s fn tag o fun c =>
    let k := tableAsk o
    if missingRow ≤ k.rows then complete s fn tag (stBadParam 0x10)
    else if k.shapeOk = false then complete s fn tag (stBadParam 0x18)
    else
      match tableImage s c k with
      | none => complete s fn tag (stBadParam 0x20)
      | some img =>
        let p := choose s
        let page := pageSize (p.1 % 3)
        match quotaBreach p.2 c.tenant (tableNeeds p.2 c k page) with
        | some code => refuseQuota p.2 c.tenant fn tag code
        | none =>
          match nextObjectHandle c with
          | none => complete p.2 fn tag stNoMemory
          | some h =>
            let needs := tableHbm p.2 c k page
            if capacityAll p.2 needs false = false then complete p.2 fn tag stNoMemory
            else if capacityAll p.2 needs true = false then markHeld p.2 fn tag
            else
              match placeTable (reserveStore p.2 c.sess (storeNeed p.2 c k.optimiser)) c k h page img with
              | some s1 => complete s1 fn tag (stOk0 h)
              | none => complete p.2 fn tag stNoMemory

def execCreateTable (fn : Nat) (tag : U16) (s : State) : Host.Outcome State Fault Refusal :=
  .next (withCommand s fn tag (isOp 0x13) fun s o => createTable s fn tag o)

/-- MEMORY_ZEROED: capacity being zeroed is ready, and the allocation that waits for it completes (12 R627). -/
def memoryZeroed (s : State) (fn : Nat) (tag : U16) : State :=
  let s1 := { s with hbm := { s.hbm with zeroing := [] } }
  withCommand s1 fn tag (fun u => isOp 0x10 u || isOp 0x13 u) fun s o =>
    if o.held = false then s else if o.sub.opcode = 0x10 then allocMem s fn tag o else createTable s fn tag o

def execMemoryZeroed (fn : Nat) (tag : U16) (s : State) : Host.Outcome State Fault Refusal := .next (memoryZeroed s fn tag)

/-! ### CREATE_GRAPH and SET_OWNERSHIP (05 R229; 09 R487-R490) -/

def createGraph (s : State) (fn : Nat) (tag : U16) (o : Outstanding) : State :=
  withOwnCtx s fn tag o fun c =>
    let rels := P3 o % 512
    if rels = 0 ∨ 256 < rels then complete s fn tag (stBadParam 0x28)
    else
      match quotaBreach s c.tenant [(0x0A, quotaUse s c.tenant 0x0A none + 1)] with
      | some code => refuseQuota s c.tenant fn tag code
      | none =>
        match nextObjectHandle c with
        | none => complete s fn tag stNoMemory
        | some h =>
          let g : Graph := { handle := h, offsets := P0 o, neighbours := P1 o, nodes := P2 o, relationCount := rels, weights := P4 o,
                             relations := P5 o, ownership := none, mapOrder := 0 }
          complete (setCtx s c.sess fun c => { c with nextHandle := h + 1, graphs := c.graphs ++ [g] }) fn tag (stOk0 h)

def execCreateGraph (fn : Nat) (tag : U16) (s : State) : Host.Outcome State Fault Refusal :=
  .next (withCommand s fn tag (isOp 0x14) fun s o => createGraph s fn tag o)

/-- An entry of a range map (09 Table 9.3). -/
def decodeRange (bs : List Byte) : RangeEntry :=
  let w := fieldAt bs 0 8
  { first := w % 2 ^ 40, owner := bits w 51 40, replicated := bits w 52 52 == 1, unowned := bits w 53 53 == 1, localBase := fieldAt bs 8 5 }

/-- The offset of the first bad field of an entry (09 R488): the word of FIRST, or that of LOCAL_BASE. -/
def badRange (prev : Nat) (first : Bool) (bs : List Byte) : Option Nat :=
  let e := decodeRange bs
  if (first = true ∧ e.first ≠ 0) ∨ e.first < prev ∨ (e.unowned = true ∧ e.replicated = true) ∨ bits (fieldAt bs 0 8) 63 54 ≠ 0 then some 0
  else if fieldAt bs 0xD 3 ≠ 0 then some 8 else none

/-- Read a range map entry by entry: the map, or the offset of what is bad or cannot be read. -/
def readRanges (s : State) (c : Context) (base : Nat) : Nat → Nat → Nat → Except Nat (List RangeEntry)
  | 0, _, _ => .ok []
  | n + 1, i, prev =>
    match readVa s c .rd (base + 16 * i) 16 with
    | .error (.translation va) => .error (va - base)
    | .error (.poison _) => .error (16 * i)
    | .ok bs =>
      match badRange prev (i == 0) bs with
      | some off => .error (16 * i + off)
      | none =>
        let e := decodeRange bs
        (readRanges s c base n (i + 1) e.first).map fun t => e :: t

def mapEntries : Nat := 65536

/-- The words of the commands of a list. -/
def listWords (s : State) (c : Context) (l : CmdList) : List (BitVec 512) :=
  l.tasks.flatMap fun t => (List.range t.count).filterMap fun k =>
    match cmdWord s c l t k with
    | .ok w => some w
    | .error _ => none

/-- The words of a context's commands that may still run: of its lists that have not ended, and those in progress. -/
def liveWords (s : State) (c : Context) : List (BitVec 512) :=
  ((s.lists.filter fun l => l.sess == c.sess && l.ended.isNone).flatMap (listWords s c)) ++
    (s.progress.filter fun p => p.sess == c.sess).map fun p => p.word

/-- A record that a command names, if it can be read. -/
def recordAt (s : State) (c : Context) (va n : Nat) : List Byte :=
  match readVa s c .rd va n with
  | .ok bs => bs
  | .error _ => []

/-- The handles that a command names, itself or in its record: coils, graphs, groups, peer streams with their group, tables
of tier commands (03 Table 3.4; 05 Table 5.3; 08 Tables 8.2 and 8.6). -/
def namedHandles (s : State) (c : Context) (w : BitVec 512) : List Nat :=
  match cmdOpcode w with
  | 0x22 => [fld w 0x10 23 0]
  | 0x30 =>
    let f := recordAt s c (fld w 0x20 47 0) 64
    [fld w 0x10 23 0, fieldAt f 0x14 3] ++ (if mMode w = 2 then [fieldAt f 0x38 3] else [])
  | 0x40 =>
    let op := fld w 0x20 15 0
    if op = 0x0500 ∨ op = 0x0E02 ∨ op = 0x0E03 then [fieldAt (recordAt s c (fld w 0x28 47 0) 64) 0 3] else []
  | 0x50 => (c.streams.filter fun x => x.number == fld w 0x10 12 0).flatMap fun x => [x.handle, x.group]
  | 0x51 => [fld w 0x10 23 0]
  | 0x60 | 0x61 => [fld w 0x10 23 0]
  | _ => []

/-- A command can reach a table by its pool addresses, or acts on every table. -/
def reachesTables (w : BitVec 512) : Bool :=
  match cmdOpcode w with
  | 0x20 => fld w 0x10 48 48 == 1
  | 0x21 => fld w 0x18 48 48 == 1
  | 0x22 => true
  | 0x43 => fld w 0x28 3 0 == 15
  | 0x60 | 0x61 => fld w 0x10 23 0 == 0
  | _ => false

/-- An object is still referenced by a command that has not ended (02 Table 2.5; 06 R333, 11 R575). -/
def objectNamed (s : State) (c : Context) (h : Nat) : Bool :=
  (liveWords s c).any fun w => (namedHandles s c w).contains h || ((findTable c h).isSome && reachesTables w)

/-- The group joined last before a SET_OWNERSHIP (09 R490). -/
def lastGroup (c : Context) (order : Nat) : Option Nat :=
  (leastBy (fun (a b : Group) => decide (b.order < a.order)) (c.groups.filter fun g => g.complete && decide (g.order < order))).map fun g => g.handle

/-- Give a table or graph its map. -/
def giveMap (s : State) (sess : U32) (h order : Nat) (group : Option Nat) (m : List RangeEntry) : State :=
  setCtx s sess fun c =>
    { c with tables := mapIf (fun t => t.handle == h) (fun t => { t with ownership := some m, poolGroup := group }) c.tables,
             graphs := mapIf (fun g => g.handle == h) (fun g => { g with ownership := some m, mapOrder := order }) c.graphs }

/-- SET_OWNERSHIP: the map is copied from memory, or taken from a graph. -/
def setOwnership (s : State) (fn : Nat) (tag : U16) (o : Outstanding) : State :=
  withOwnCtx s fn tag o fun c =>
    let h := P0 o % 2 ^ 24
    let from_ := P2 o % 2 ^ 24
    let give := fun (m : List RangeEntry) => complete (giveMap s c.sess h o.order (lastGroup c o.order) m) fn tag stOk
    if (findTable c h).isNone ∧ (c.graphs.any fun g => g.handle == h) = false then complete s fn tag (stBadParam 0x10)
    else if from_ ≠ 0 then
      match (c.graphs.find? fun g => g.handle == from_).bind fun g => g.ownership with
      | none => complete s fn tag (stBadParam 0x20)
      | some m => if objectNamed s c h then complete s fn tag stInUse else give m
    else
      match readRanges s c (P1 o) mapEntries 0 0 with
      | .error off => complete s fn tag { stBadParam 0x18 with res0 := off }
      | .ok m => if objectNamed s c h then complete s fn tag stInUse else give m

def execSetOwnership (fn : Nat) (tag : U16) (s : State) : Host.Outcome State Fault Refusal :=
  .next (withCommand s fn tag (isOp 0x15) fun s o => setOwnership s fn tag o)

/-! ### LOAD_COIL (06 R331-R333, R339) -/

/-- The public key of an installed, unrevoked coil-signing key (15 Table 15.5). -/
def coilKey (s : State) (id : U32) : Option (Nat × Nat) := (s.mgmt.coilKeys.find? fun k => k.1 == id).map fun k => k.2

def loadCoil (s : State) (fn : Nat) (tag : U16) (o : Outstanding) : State :=
  withOwnCtx s fn tag o fun c =>
    match readVa s c .rd (P0 o) (P1 o) with
    | .error _ => complete s fn tag (stBadParam 0x10)
    | .ok bs =>
      let key := coilKey s (BitVec.ofNat 32 (fieldAt bs 0xC 4))
      let sigOk := match key with
        | some q => ecdsaVerify q (bs.take (bs.length - 96)) (bs.drop (bs.length - 96))
        | none => false
      match verifyImage bs c.tenant.toNat key.isSome sigOk with
      | some d => complete s fn tag (stVerifier d)
      | none =>
        match quotaBreach s c.tenant [(0x0A, quotaUse s c.tenant 0x0A none + 1)] with
        | some code => refuseQuota s c.tenant fn tag code
        | none =>
          let p := chooseHandle s c
          let k : Coil := { handle := p.1, cls := fieldAt bs 5 1 % 16, code := coilCode bs }
          complete (setCtx p.2 c.sess fun c => { c with coils := c.coils ++ [k] }) fn tag (stOk0 p.1)

def execLoadCoil (fn : Nat) (tag : U16) (s : State) : Host.Outcome State Fault Refusal :=
  .next (withCommand s fn tag (isOp 0x20) fun s o => loadCoil s fn tag o)

/-! ### DESTROY_OBJECT (02 Table 2.6; 10 R516; 11 R575) -/

/-- A table goes with its storage, versions, contributions, staged rows and log entries. -/
def destroyTable (s : State) (sess : U32) (t : Table) : State :=
  let s1 := setCtx s sess fun c =>
    { c with tables := c.tables.filter fun x => x.handle != t.handle
             regions := c.regions.filter fun r => r.table != t.handle
             contributions := c.contributions.filter fun x => x.table != t.handle
             waiting := c.waiting.filter fun w => w.item.table != t.handle
             allocs := if t.ownStorage then c.allocs else mapIf (fun a => a.base == t.storage) (fun a => { a with use := .plain }) c.allocs }
  let mine := fun (h k : U32 × Nat) => h == k
  let s2 := { s1 with tier := { s1.tier with
    log := s1.tier.log.filter (fun e => !mine (e.sess, e.table) (sess, t.handle)),
    staging := s1.tier.staging.filter fun e => !mine (e.sess, e.table) (sess, t.handle) } }
  match findCtx s2 sess with
  | none => s2
  | some c => (c.allocs.filter fun a => a.use == .pool t.handle).foldl (fun st a => release st sess a) s2

/-- A group goes with its peer streams. Its committed steps that have not settled are final (10 R516). -/
def destroyGroup (s : State) (sess : U32) (g : Group) : State :=
  let s1 := setCtx s sess fun c =>
    { c with groups := c.groups.filter (fun x => x.handle != g.handle), streams := c.streams.filter fun x => x.group != g.handle }
  match findCtx s1 sess with
  | none => s1
  | some c =>
    let steps := (c.settles.filter fun x => x.group == g.handle).map fun x => x.step
    releaseHeld (steps.foldl (fun st k => setCtx st sess (settleCtx k)) s1) sess

def destroyObject (s : State) (fn : Nat) (tag : U16) (o : Outstanding) : State :=
  withOwnCtx s fn tag o fun c =>
    let h := P0 o % 2 ^ 24
    let known := (findTable c h).isSome || (c.graphs.any fun g => g.handle == h) || (otherHandles c).contains h
    if known = false then complete s fn tag (stBadParam 0x10)
    else if objectNamed s c h then complete s fn tag stInUse
    else
      match findTable c h, findGroup c h with
      | some t, _ => complete (destroyTable s c.sess t) fn tag stOk
      | none, some g => complete (destroyGroup s c.sess g) fn tag stOk
      | none, none =>
        complete (setCtx s c.sess fun c =>
          { c with graphs := c.graphs.filter (fun g => g.handle != h), coils := c.coils.filter (fun k => k.handle != h),
                   streams := c.streams.filter fun x => x.handle != h }) fn tag stOk

def execDestroyObject (fn : Nat) (tag : U16) (s : State) : Host.Outcome State Fault Refusal :=
  .next (withCommand s fn tag (isOp 0x16) fun s o => destroyObject s fn tag o)

end Sys2Proof.Machine
end

