-- ==== Sys2Proof/Machine/Groups.lean ====
section
/-! DEFINITION. Joining groups and opening peer streams (chapter 11, 12 R625). -/

namespace Sys2Proof.Machine

/-! ### The group record (11 R571, R572) -/

/-- The group that a JOIN_GROUP describes, before it has a handle. -/
def groupOfRecord (s : State) (bs : List Byte) (jobTag : U32) (timeoutMs : Nat) : Group :=
  let g : Group :=
    { handle := 0, gid := fieldAt bs 0 2, axes := fieldAt bs 2 1 % 8, origin := fieldAt bs 4 2 % 4096, extent := fieldAt bs 6 2 % 4096,
      jobTag := jobTag, timeoutMs := timeoutMs, rxBase := fieldAt bs 8 6, rxBytes := fieldAt bs 0x10 6, order := 0, joinedAt := s.now,
      members := [], joined := [myNumber s], complete := false, joinTag := none, nextSeq := 1, current := none, early := [], aborts := [],
      votes := [], rx := [] }
  { g with members := groupMembers s.fabric.dims s.fabric.coords g }

/-- The extents fit the installation (11 R572): at most the dimension on an axis of AXES, 1 on another. -/
def extentsOk (s : State) (g : Group) : Bool :=
  (List.range 3).all fun a =>
    let e := bits g.extent (4 * a + 3) (4 * a) + 1
    if g.axes / 2 ^ a % 2 = 1 then decide (e ≤ nthD 1 s.fabric.dims a) else e == 1

/-- The window lies in memory that the context may write, in whole 64 KiB; none is both fields 0 (11 Table 11.7). -/
def windowOk (s : State) (c : Context) (g : Group) : Bool :=
  if g.rxBytes = 0 then g.rxBase == 0
  else g.rxBytes % (64 * kib) == 0 && (spanOk s c .wr g.rxBase g.rxBytes).isNone

/-- The digest of a JOIN packet (12 R625): the fields in the bytes that Table 11.7 and the packet header give them. -/
def groupDigest (g : Group) (tenant : U32) : U64 :=
  let msg := leBytes 2 g.gid ++ leBytes 2 g.axes ++ leBytes 2 g.origin ++ leBytes 2 g.extent ++ leBytes 4 g.jobTag.toNat ++
    leBytes 2 g.timeoutMs ++ leBytes 4 tenant.toNat
  BitVec.ofNat 64 (beNat (sha384 msg) % 2 ^ 64)

/-- The JOIN packet to a member (11 Table 11.6). -/
def joinPacket (s : State) (c : Context) (g : Group) (dst : Nat) : Packet :=
  { newPacket s g 0x13 dst with a := groupDigest g c.tenant, b := BitVec.ofNat 64 g.joined.length }

def sendJoin (s : State) (c : Context) (g : Group) (dst : Nat) : State := (sendFrom s c .west (joinPacket s c g dst)).1

/-- Every member has joined: the command completes (11 R573). -/
def completeJoin (s : State) (c : Context) (h : Nat) : State :=
  match (findCtx s c.sess).bind fun c => findGroup c h with
  | none => s
  | some g =>
    if g.complete = false ∧ (g.members.all fun m => g.joined.contains m) = true then
      let u := freshUid s
      let s1 := setGroup u.2 c.sess h fun g => { g with complete := true, joinTag := none, order := u.1 }
      match g.joinTag with
      | some tag => complete s1 c.fn tag (stOk1 h (g.members.length % 4096))
      | none => s1
    else s

/-- JOIN_GROUP: the parameters and the record, operator policy (11 R574), the quota, the module's 256 groups; then a JOIN goes
to every other member. -/
def joinGroup (s : State) (fn : Nat) (tag : U16) (o : Outstanding) : State :=
  withOwnCtx s fn tag o fun c =>
    let jobTag : U32 := BitVec.ofNat 32 (P1 o)
    let ms := P2 o % 65536
    match readVa s c .rd (P0 o) 64 with
    | .error _ => complete s fn tag (stBadParam 0x10)
    | .ok bs =>
      let g0 := groupOfRecord s bs jobTag (if ms = 0 then 50 else ms)
      if P0 o % 64 ≠ 0 ∨ g0.gid = 0 ∨ g0.axes = 0 ∨ extentsOk s g0 = false ∨ (g0.members.contains (myNumber s)) = false ∨ windowOk s c g0 = false then
        complete s fn tag (stBadParam 0x10)
      else if jobTag = 0 then complete s fn tag (stBadParam 0x18)
      else if ms ≠ 0 ∧ (ms < 20 ∨ 1000 < ms) then complete s fn tag (stBadParam 0x20)
      else if (s.contexts.any fun d => d.tenant != c.tenant && d.groups.any fun g => g.jobTag == jobTag) = true ∨
          (c.groups.any fun g => g.gid == g0.gid) = true then complete s fn tag stPolicy
      else
        match quotaBreach s c.tenant [(0x08, quotaUse s c.tenant 0x08 none + 1)] with
        | some code => refuseQuota s c.tenant fn tag code
        | none =>
          if 256 ≤ sumNat (s.contexts.map fun d => d.groups.length) then complete s fn tag stNoMemory
          else
            let p := chooseHandle s c
            let g := { g0 with handle := p.1, order := o.order, joinTag := some tag }
            let s1 := markAccepted (setCtx p.2 c.sess fun c => { c with groups := c.groups ++ [g] }) fn tag
            let s2 := (g.members.filter fun m => m != myNumber s).foldl (fun st m => sendJoin st c g m) s1
            completeJoin s2 c g.handle

def execJoinGroup (fn : Nat) (tag : U16) (s : State) : Host.Outcome State Fault Refusal :=
  .next (withCommand s fn tag (isOp 0x30) fun s o => joinGroup s fn tag o)

/-- JOIN: a member with the same record, tag, timeout and tenant is counted; one heard for the first time is told that this
module has joined, for it may have joined after this module's own JOIN was dropped. -/
def joinReceived (s : State) (p : Packet) : State :=
  withPacket s p 0x13 fun s1 c g =>
    let src := p.srcMod.toNat
    if p.a ≠ groupDigest g c.tenant ∨ g.members.contains src = false ∨ g.joined.contains src = true then s1
    else
      let s2 := setGroup s1 c.sess g.handle fun g => { g with joined := g.joined ++ [src] }
      completeJoin (sendJoin s2 c { g with joined := g.joined ++ [src] } src) c g.handle

def execJoin (p : Packet) (s : State) : Host.Outcome State Fault Refusal := .next (joinReceived s p)

/-- The context and group that wait under a JOIN_GROUP's tag. -/
def waitingJoin (s : State) (fn : Nat) (tag : U16) : Option (Context × Group) :=
  s.contexts.findSome? fun c => if c.fn = fn then (c.groups.find? fun g => g.joinTag == some tag).map fun g => (c, g) else none

/-- JOIN_GROUP_TIMEOUT: 10 s without every member (11 R573). -/
def joinTimeout (s : State) (fn : Nat) (tag : U16) : State :=
  match waitingJoin s fn tag with
  | none => s
  | some (c, g) =>
    if g.joinedAt + 10 * 10 ^ 9 ≤ s.now then
      complete (setCtx s c.sess fun c => { c with groups := c.groups.filter fun x => x.handle != g.handle }) fn tag stTimeout
    else s

def execJoinGroupTimeout (fn : Nat) (tag : U16) (s : State) : Host.Outcome State Fault Refusal := .next (joinTimeout s fn tag)

/-! ### Peer streams (11 R577) -/

def allStreams (s : State) : List PeerStream := s.contexts.flatMap fun c => c.streams

/-- A free stream number of the module: the open choice, else the least free (log entry 5); none when all 8,192 are open. -/
def chooseStream (s : State) : Option Nat × State :=
  let p := choose s
  let used := (allStreams s).map fun x => x.number
  let k := p.1 % 8192
  if 8192 ≤ used.length then (none, p.2)
  else if used.contains k then ((List.range 8192).find? fun n => !used.contains n, p.2)
  else (some k, p.2)

def openPeerStream (s : State) (fn : Nat) (tag : U16) (o : Outstanding) : State :=
  withOwnCtx s fn tag o fun c =>
    match findGroup c (P0 o % 2 ^ 24) with
    | none => complete s fn tag (stBadParam 0x10)
    | some g =>
      let peer := P1 o % 4096
      if g.complete = false then complete s fn tag (stBadParam 0x10)
      else if g.members.contains peer = false then complete s fn tag (stBadParam 0x18)
      else
        match quotaBreach s c.tenant [(0x09, quotaUse s c.tenant 0x09 none + 1)] with
        | some code => refuseQuota s c.tenant fn tag code
        | none =>
          match chooseStream s with
          | (none, s1) => complete s1 fn tag stNoMemory
          | (some n, s1) =>
            let h := chooseHandle s1 c
            let x : PeerStream := { number := n, handle := h.1, group := g.handle, peer := peer, rxBytes := none, nextTransfer := 0,
                                    openedAt := s.now, openTag := some tag }
            let s2 := markAccepted (setCtx h.2 c.sess fun c => { c with streams := c.streams ++ [x] }) fn tag
            (sendFrom s2 c .west { newPacket s2 g 0x11 peer with msg := BitVec.ofNat 32 n, stream := BitVec.ofNat 16 n }).1

def execOpenPeerStream (fn : Nat) (tag : U16) (s : State) : Host.Outcome State Fault Refusal :=
  .next (withCommand s fn tag (isOp 0x31) fun s o => openPeerStream s fn tag o)

/-- OPEN_PEER_STREAM_TIMEOUT: no answer within the group's timeout. -/
def openTimeout (s : State) (fn : Nat) (tag : U16) : State :=
  let hit := s.contexts.findSome? fun c =>
    if c.fn = fn then ((c.streams.find? fun x => x.openTag == some tag).bind fun x => (findGroup c x.group).map fun g => (c, g, x)) else none
  match hit with
  | none => s
  | some (c, g, x) =>
    if x.openedAt + g.timeoutNs ≤ s.now then
      complete (setCtx s c.sess fun c => { c with streams := c.streams.filter fun y => y.number != x.number }) fn tag stTimeout
    else s

def execOpenPeerStreamTimeout (fn : Nat) (tag : U16) (s : State) : Host.Outcome State Fault Refusal := .next (openTimeout s fn tag)

end Sys2Proof.Machine
end

