-- ==== Sys2Proof/Machine/Streams.lean ====
section
/-! DEFINITION. Transfers over peer streams (chapter 11, R577-R580). -/

namespace Sys2Proof.Machine

/-! ### FB_SEND (11 R578, R579) -/

/-- The packets of a transfer: A gives the window offset of each packet's first byte. -/
def transferPackets (p : Packet) (offset rsem : Nat) (data : List Byte) : List Packet :=
  let n := Nat.max 1 (ceilDiv data.length 4096)
  (List.range n).map fun i =>
    { p with index := BitVec.ofNat 32 i, packets := BitVec.ofNat 32 n, last := i + 1 == n, data := (data.drop (4096 * i)).take 4096,
             a := BitVec.ofNat 64 ((offset + 4096 * i) % 2 ^ 48 + rsem * 2 ^ 48) }

/-- Send packets in turn; false when one has no route. -/
def sendAll (s : State) (c : Context) (h : Half) (ps : List Packet) : State × Bool :=
  ps.foldl (fun r p => let t := sendFrom r.1 c h p; (t.1, r.2 && t.2)) (s, true)

def fbSend (s : State) (c : Context) (r : Running) : Except CmdErr State := do
  let w := r.word
  let rsem := fld w 0x28 5 0
  let rsig := fld w 0x28 7 7 == 1
  let rinc := fld w 0x28 63 32
  let off := fld w 0x20 47 0
  match c.streams.find? fun x => x.number == fld w 0x10 12 0, r.desc 0x18 with
  | some x, some d =>
    match x.rxBytes, findGroup c x.group with
    | some room, some g =>
      mustBe .fabric (!(rsig && decide (47 < rsem)))
      let as := if d.empty then [] else d.footprint
      mustBe .fabric (decide (off + as.length ≤ room))
      let data ← memTry 0xFFFF (readBytesAt s c .rd as)
      let s1 := setCtx (tallyRuns s c.sess 0 as) c.sess fun c =>
        { c with streams := mapIf (fun y => y.number == x.number) (fun y => { y with nextTransfer := y.nextTransfer + 1 }) c.streams
                 fabricCtr := bump (bump c.fabricCtr 0 data.length) 2 1 }
      let p := { newPacket s1 g 0x01 x.peer with
        sig := rsig, stream := BitVec.ofNat 16 x.number, msg := BitVec.ofNat 32 x.nextTransfer,
        b := BitVec.ofNat 64 (if rinc = 0 then 1 else rinc), step := 0 }
      let q : RemoteReq :=
        { msg := x.nextTransfer, ref := r.ref, sess := r.sess, group := g.handle, type := 0x01, hop := 0, items := [x.number], peer := x.peer,
          targetIncarn := incarnOfModule s1 x.peer, sentAt := s.now, stopped := false }
      let t := sendAll { s1 with remoteReqs := s1.remoteReqs ++ [q] } c .west (transferPackets p off rsem data)
      if t.2 then pure (shareDone t.1 .fabric r.ref) else .error (.hw (cutPort s x.peer))
    | _, _ => .error (errBad .fabric)
  | _, _ => .error (errBad .fabric)

def execFbSend (s : State) : Host.Outcome State Fault Refusal :=
  .next (withRunning s .fabric (fun w => cmdOpcode w == 0x50) fbSend)

/-! ### WRITE (11 R580; 03 R156) -/

/-- A packet of a transfer has been written, or refused; msg, its packets, and its signal. -/
def RxStream.note (msg packets : Nat) (sig : Option (Nat × U32)) (refused : Bool) (x : RxStream) : RxStream :=
  if refused then { x with refused := if x.refused.contains msg then x.refused else x.refused ++ [msg] }
  else if x.arrived.any fun a => a.1 == msg then
    { x with arrived := mapIf (fun a => a.1 == msg) (fun a => (a.1, a.2.1, a.2.2.1 + 1, a.2.2.2)) x.arrived }
  else { x with arrived := x.arrived ++ [(msg, packets, 1, sig)] }

/-- The transfers that are whole, in order from the next one: their signals, and the stream after them. -/
def RxStream.takeDone : Nat → RxStream → List (Option (Nat × U32)) × RxStream
  | 0, x => ([], x)
  | fuel + 1, x =>
    match x.arrived.find? fun a => a.1 == x.nextTransfer && decide (a.2.1 ≤ a.2.2.1) with
    | some a =>
      if x.refused.contains a.1 then ([], x)
      else
        let r := RxStream.takeDone fuel { x with nextTransfer := x.nextTransfer + 1, arrived := x.arrived.filter fun b => b.1 != a.1 }
        (a.2.2.2 :: r.1, r.2)
    | none => ([], x)

/-- The receiving side of a stream of a group. -/
def rxOf (g : Group) (src stream : Nat) : RxStream :=
  match g.rx.find? fun x => x.src == src && x.stream == stream with
  | some x => x
  | none => { src := src, stream := stream, nextTransfer := 0, arrived := [], refused := [] }

def setRx (s : State) (sess : U32) (h : Nat) (x : RxStream) : State :=
  setGroup s sess h fun g => { g with rx := g.rx.filter (fun y => !(y.src == x.src && y.stream == x.stream)) ++ [x] }

/-- The remote signal of a transfer (03 R156). -/
def remoteSignal (s : State) (sess : U32) (sig : Option (Nat × U32)) : State :=
  match sig with
  | none => s
  | some (sem, inc) => setCtx (addSem s sess sem inc.toNat) sess fun c => { c with fabricCtr := bump c.fabricCtr 3 1 }

/-- One packet of a transfer: written through the receiving context's pages and counted, or discarded and refused. -/
def writePacket (s : State) (p : Packet) : State :=
  withPacket s p 0x01 fun s1 c g => withResident s1 p c fun s2 c =>
    let va := g.rxBase + p.a.toNat % 2 ^ 48
    let sig := if p.sig then some (p.a.toNat / 2 ^ 48 % 64, BitVec.ofNat 32 p.b.toNat) else none
    let x := rxOf g p.srcMod.toNat p.stream.toNat
    match writeVa s2 c .wr va p.data with
    | .error _ => refusePacket (setRx s2 c.sess g.handle (x.note p.msg.toNat p.packets.toNat sig true)) c.tenant p faultTranslation
    | .ok s3 =>
      let n := x.note p.msg.toNat p.packets.toNat sig false
      let r := n.takeDone n.arrived.length
      let s4 := setCtx (tally s3 c.sess 1 va p.data.length) c.sess fun c => { c with fabricCtr := bump c.fabricCtr 1 p.data.length }
      armWaits (r.1.foldl (fun st k => remoteSignal st c.sess k) (setRx s4 c.sess g.handle r.2))

def execWritePacket (p : Packet) (s : State) : Host.Outcome State Fault Refusal := .next (writePacket s p)

/-! ### STREAM_OPEN and STREAM_ACCEPT (11 R577) -/

/-- The peer takes a stream up, at its first transfer, and returns the size of its window. -/
def streamOpen (s : State) (p : Packet) : State :=
  withPacket s p 0x11 fun s1 c g =>
    let x : RxStream := { src := p.srcMod.toNat, stream := p.msg.toNat, nextTransfer := 0, arrived := [], refused := [] }
    let s2 := setRx s1 c.sess g.handle x
    (sendFrom s2 c .west { newPacket s2 g 0x12 p.srcMod.toNat with msg := p.msg, stream := p.stream, a := BitVec.ofNat 64 g.rxBytes }).1

def execStreamOpen (p : Packet) (s : State) : Host.Outcome State Fault Refusal := .next (streamOpen s p)

/-- The answer completes OPEN_PEER_STREAM with the number and the handle. -/
def streamAccept (s : State) (p : Packet) : State :=
  withPacket s p 0x12 fun s1 c g =>
    match c.streams.find? fun x => x.number == p.msg.toNat && x.peer == p.srcMod.toNat && x.group == g.handle && x.rxBytes.isNone with
    | none => s1
    | some x =>
      let s2 := setCtx s1 c.sess fun c =>
        { c with streams := mapIf (fun y => y.number == x.number) (fun y => { y with rxBytes := some (p.a.toNat % 2 ^ 48), openTag := none }) c.streams }
      match x.openTag with
      | some tag => complete s2 c.fn tag (stOk1 x.number x.handle)
      | none => s2

def execStreamAccept (p : Packet) (s : State) : Host.Outcome State Fault Refusal := .next (streamAccept s p)

end Sys2Proof.Machine
end

