-- ==== Sys2Proof/Machine/Collectives.lean ====
section
/-! DEFINITION. Collectives: the ring, pieces and their reduction, readiness, and the ends of a collective (chapter 11,
R576, R583-R595). -/

namespace Sys2Proof.Machine

/-! ### Elements on the wire -/

/-- Elements and bytes of the smallest whole unit of a format (04 Table 4.4). -/
def wireUnit : Nat → Nat × Nat
  | 0x0 => (1, 4)
  | 0x1 => (1, 2)
  | 0x2 => (1, 2)
  | 0x5 => (4, 3)
  | 0x6 => (4, 3)
  | 0x7 => (2, 1)
  | 0x8 => (2, 1)
  | 0xA => (2, 1)
  | 0xB => (4, 1)
  | 0xC => (32, 7)
  | 0xD => (2, 5)
  | 0xE => (32, 34)
  | _ => (1, 1)

/-- Elements that one packet carries: the whole units of 4,096 B. -/
def wireChunk (fmt : Nat) : Nat := 4096 / (wireUnit fmt).2 * (wireUnit fmt).1

def wireOffset (fmt e : Nat) : Nat := e / (wireUnit fmt).1 * (wireUnit fmt).2

/-- The indices of the element with a linear index, dimension 0 fastest. -/
def Desc.elemAt (d : Desc) (k : Nat) : Nat × List Nat :=
  let c := fun i => Nat.max 1 (d.count i)
  (k % c 0, [k / c 0 % c 1, k / (c 0 * c 1) % c 2, k / (c 0 * c 1 * c 2) % c 3, k / (c 0 * c 1 * c 2 * c 3)])

/-- The addresses of an MB8 block's scale. -/
def mb8ScaleVa (d : Desc) (e : Nat × List Nat) : Nat := toAddr (d.rowBase e.2 + (e.1 / 32 * 34 + 32 : Nat))

/-- Elements lo to lo + n − 1 of a stream, as bytes. -/
def wireRead (s : State) (c : Context) (d : Desc) (lo n : Nat) : Except MemErr (List Byte) := do
  let es := (List.range n).map fun i => d.elemAt (lo + i)
  let codes ← es.mapM fun e => (readCode s c .rd d e.1 e.2).map fun k => k.1
  if d.fmt = 0xE then
    let bs ← (List.range (n / 32)).mapM fun b => do
      let sc ← readVa s c .rd (mb8ScaleVa d (d.elemAt (lo + 32 * b))) 2
      pure (((codes.drop (32 * b)).take 32).map (fun k => BitVec.ofNat 8 k) ++ sc)
    pure bs.flatten
  else
    let u := (wireUnit d.fmt).1
    pure (packCodes d.fmt (codes ++ List.replicate ((u - n % u) % u) (if d.fmt = 0xC then 1 else 0)))

/-- The codes of n elements in bytes. -/
def wireCodes (fmt n : Nat) (bs : List Byte) : List Nat :=
  (List.range n).map fun i =>
    match fmt with
    | 0xC => nthD 1 (triByte (nthD 0 bs (i / 32 * 7 + i % 32 / 5))).1 (i % 32 % 5)
    | 0xE => (nthD 0 bs (i / 32 * 34 + i % 32)).toNat
    | _ => (leNat bs >>> (fmtWidth fmt * i)) % 2 ^ fmtWidth fmt

/-- Store bytes as elements lo to lo + n − 1 of a stream. -/
def wireWrite (s : State) (c : Context) (d : Desc) (lo n : Nat) (bs : List Byte) : Except MemErr State := do
  let cs := wireCodes d.fmt n bs
  let s1 ← ((List.range n).zip cs).foldlM (fun st p => let e := d.elemAt (lo + p.1); if d.fmt = 0xE then
      writeVa st c .wr (toAddr (d.rowBase e.2 + (e.1 / 32 * 34 + e.1 % 32 : Nat))) [BitVec.ofNat 8 p.2]
    else writeCode st c .wr d e.1 e.2 p.2) s
  let s2 ← if d.fmt = 0xE then
      (List.range (n / 32)).foldlM (fun st b => writeVa st c .wr (mb8ScaleVa d (d.elemAt (lo + 32 * b))) ((bs.drop (34 * b + 32)).take 2)) s1
    else pure s1
  pure (tallyElems s2 c.sess 1 d ((List.range n).map fun i => d.elemAt (lo + i)))

/-- FP32 values of elements (11 R587). -/
def wireValues (s : State) (c : Context) (d : Desc) (lo n : Nat) : Except MemErr (List U32 × Fl) :=
  (List.range n).foldrM (fun i (acc : List U32 × Fl) => do
    let e := d.elemAt (lo + i)
    let v ← readElem s c .rd d e.1 e.2
    pure ((toFp32 v.1).1 :: acc.1, acc.2 ||| v.2)) ([], 0)

/-- Store FP32 values converted to the stream's format, to nearest with SAT = 0 (11 R588). -/
def wireStore (s : State) (c : Context) (d : Desc) (lo : Nat) (vs : List U32) : Except MemErr (State × Fl) := do
  let q ← storeElems s c .wr d false (Num.fin false 1 0) (((List.range vs.length).zip vs).map fun p => (d.elemAt (lo + p.1), (fp32 p.2, Round.nearest)))
  pure (tallyElems q.st c.sess 1 d ((List.range vs.length).map fun i => d.elemAt (lo + i)), q.fl)

/-! ### The ring (11 R576, R587, R589, R590) -/

def myPos (s : State) (g : Group) : Nat := g.position s.fabric.dims (myNumber s)

/-- The ring neighbour in a direction; true is negative. -/
def ringNext (s : State) (g : Group) (neg : Bool) : Nat :=
  let n := Nat.max 1 g.size
  ((g.memberAt s.fabric.dims (if neg then (myPos s g + n - 1) % n else (myPos s g + 1) % n))).getD (myNumber s)

/-- Half-piece q of C elements: the first element and the number. -/
def halfPiece (n c q : Nat) : Nat × Nat := (q * c / (2 * n), (q + 1) * c / (2 * n) - q * c / (2 * n))

/-- The direction and distance in which something of position a reaches position b: the shorter arc, the positive one for
positions half the ring away (11 R589). -/
def arc (n a b : Nat) : Bool × Nat :=
  let p := (b + n - a) % n
  if p ≤ n / 2 then (false, p) else (true, n - p)

/-- Hops that the data of one position takes in a direction. -/
def arcReach (n : Nat) (neg : Bool) : Nat := if neg then n - 1 - n / 2 else n / 2

/-- The place of piece p in the order list of the member at position i (11 R590). -/
def orderPlace (n i p : Nat) : Nat :=
  let d := (p + n - i) % n
  if d = 0 then 0 else if 2 * d ≤ n - 1 then 2 * d else 2 * (n - d) - 1

/-! ### Packets of a collective -/

/-- A of COLL_DATA and COLL_READY (11 Table 11.6). -/
def collA (kind op wire index count : Nat) : U64 := BitVec.ofNat 64 (kind + 16 * op + 256 * wire + 65536 * (index % 65536) + 2 ^ 32 * (count % 2 ^ 32))

/-- The packets that carry bytes of a half-piece, piece, block or unit of n elements. -/
def collPackets (s : State) (g : Group) (x : Collective) (kind wire index dst n : Nat) (bs : List Byte) : List Packet :=
  let k := wireChunk wire
  let m := ceilDiv n k
  (List.range m).map fun i =>
    { newPacket s g 0x02 dst with
      msg := BitVec.ofNat 32 x.seq, step := BitVec.ofNat 32 x.step, a := collA kind x.op wire index x.count, b := BitVec.ofNat 64 (wireOffset wire (k * i)),
      index := BitVec.ofNat 32 i, packets := BitVec.ofNat 32 m, last := i + 1 == m,
      data := (bs.drop (wireOffset wire (k * i))).take (wireOffset wire k) }

def setColl (s : State) (sess : U32) (h : Nat) (f : Collective → Collective) : State :=
  setGroup s sess h fun g => { g with current := g.current.map f }

/-- Queue packets for the ring neighbour in a direction. -/
def collQueue (s : State) (sess : U32) (h : Nat) (neg : Bool) (ps : List Packet) : State :=
  setColl s sess h fun x => { x with outbox := x.outbox ++ ps.map fun p => (neg, p) }

/-- Note elements of a half-piece, piece or block that have come. -/
def collGot (stage index n : Nat) (x : Collective) : Collective :=
  if x.got.any fun e => e.1 == stage && e.2.1 == index then
    { x with got := mapIf (fun e => e.1 == stage && e.2.1 == index) (fun e => (e.1, e.2.1, e.2.2 + n)) x.got }
  else { x with got := x.got ++ [(stage, index, n)] }

def gotOf (x : Collective) (stage index : Nat) : Nat :=
  match x.got.find? fun e => e.1 == stage && e.2.1 == index with | some e => e.2.2 | none => 0

/-! ### The running collective -/

/-- The collective of a group with its context and command. -/
def collOf (s : State) (sess : U32) (h : Nat) : Option (Context × Group × Collective × Running) := do
  let c ← findCtx s sess
  let g ← findGroup c h
  let x ← g.current
  let r ← (findEngine s .fabric).running.find? fun r => r.ref == x.ref
  pure (c, g, x, r)

/-- Length of the stream that a collective writes or reads: elements of a piece, block or unit. -/
def pieceElems (g : Group) (x : Collective) : Nat :=
  if x.kind = 2 then x.count else if x.kind = 3 then x.count / Nat.max 1 g.size else x.count

/-- Elements of gathering index k: a piece of an ALL_REDUCE, a member's piece or block, or a 64-KiB unit of a broadcast. -/
def gatherRange (g : Group) (x : Collective) (k : Nat) : Nat × Nat :=
  match x.kind with
  | 0 => let a := halfPiece g.size x.count (2 * k); let b := halfPiece g.size x.count (2 * k + 1); (a.1, a.2 + b.2)
  | 4 => let u := 65536 / (wireUnit x.wire).2 * (wireUnit x.wire).1; (k * u, Nat.min u (x.count - k * u))
  | _ => (k * pieceElems g x, pieceElems g x)

/-- Units of a broadcast. -/
def bcastUnits (x : Collective) : Nat := ceilDiv x.count (65536 / (wireUnit x.wire).2 * (wireUnit x.wire).1)

/-- Everything that this member is to receive has come (11 R587, R589). -/
def collReceived (s : State) (g : Group) (x : Collective) (root : Bool) : Bool :=
  let n := g.size
  let i := myPos s g
  let halves := (List.range (2 * n)).all fun q =>
    let start := if q % 2 = 0 then (q / 2 + 1) % n else (q / 2 + n - 1) % n
    n == 1 || start == i || gotOf x 0 q == (halfPiece n x.count q).2
  let pieces := (List.range n).all fun j => j == i || gotOf x 1 j == (gatherRange g x j).2
  match x.kind with
  | 0 => halves && pieces
  | 1 => halves
  | 2 => pieces
  | 3 => x.phase == 3 && pieces
  | 4 => root || (List.range (bcastUnits x)).all fun k => gotOf x 1 k == (gatherRange g x k).2
  | _ => x.phase == 3

/-- Readiness lets a queued packet go (11 R586). -/
def mayGo (x : Collective) (neg : Bool) : Bool := if x.kind = 3 then x.phase == 3 else if neg then x.readyNeg else x.readyPos

/-- Send what may go; a missing route makes the command fail with HW_ERROR (11 R570). -/
def collFlush (s : State) (sess : U32) (h : Nat) : State × Option Nat :=
  match collOf s sess h with
  | none => (s, none)
  | some (c, _, x, _) =>
    let go := x.outbox.filter fun p => mayGo x p.1
    let s1 := setColl s sess h fun x => { x with outbox := x.outbox.filter fun p => !mayGo x p.1 }
    go.foldl (fun r p =>
      let t := sendFrom (setCtx r.1 sess fun c => { c with fabricCtr := bump c.fabricCtr 5 p.2.data.length }) c .west p.2
      (t.1, if t.2 then r.2 else some p.2.dstMod.toNat)) (s1, none)

/-- Take a finished or ended collective away. -/
def dropColl (s : State) (sess : U32) (h : Nat) : State :=
  setGroup s sess h fun g => { g with current := none, early := match g.current with | some x => g.early.filter fun e => e.seq != x.seq | none => g.early }

/-- The command of an ended collective leaves its engine, and its list, if it still runs, ends with the error. -/
def endColl (s : State) (sess : U32) (h : Nat) (ref : CmdRef) (err : CmdErr) : State :=
  let s1 := dropRunning (dropColl s sess h) .fabric ref
  let s2 := { s1 with progress := s1.progress.filter fun p => p.ref != ref }
  let open_ := match findList s2 ref.list with | some l => l.ended.isNone | none => false
  let s3 := setCtx s2 sess fun c => { c with fabricCtr := bump c.fabricCtr 7 1 }
  if open_ then faultCommand s3 ref err else s3

/-- Send what may go, and complete the command when everything has come and gone. -/
def collGo (s : State) (sess : U32) (h : Nat) : State :=
  let f := collFlush s sess h
  match collOf f.1 sess h with
  | none => f.1
  | some (_, g, x, r) =>
    match f.2 with
    | some dst => endColl f.1 sess h x.ref (.hw (cutPort f.1 dst))
    | none =>
      if x.outbox.isEmpty && x.abort.isNone && collReceived f.1 g x (fld r.word 0x18 47 0 != 0) then
        let s1 := setCtx (dropColl f.1 sess h) sess fun c => { c with fabricCtr := bump c.fabricCtr 4 1 }
        armWaits (shareDone (unitsDone s1 x.ref (if x.kind = 4 then [0] else [])) .fabric x.ref)
      else f.1

/-- An access of a running collective fails: TRANSLATION is the group's common error; an uncorrectable sector ends this
member's command (09 R462). -/
def collMemErr (s : State) (sess : U32) (h : Nat) (x : Collective) : MemErr → State
  | .translation _ => originateAbort s sess h 0 x.seq faultTranslation
  | .poison pc => endColl s sess h x.ref (.hw (0x7000 + pc))

/-! ### Phases of readiness and barriers (11 R586, R596) -/

/-- The state that a member sends along an axis. -/
def phasePacket (s : State) (g : Group) (x : Collective) : Packet :=
  if x.kind = 5 then { newPacket s g 0x14 0 with msg := BitVec.ofNat 32 x.seq, a := 1 }
  else { newPacket s g 0x03 0 with msg := BitVec.ofNat 32 x.seq, step := BitVec.ofNat 32 x.step, a := collA x.kind x.op x.wire 0 x.count }

/-- Go through the axes whose states are all there. -/
def advancePhase : Nat → State → U32 → Nat → State
  | 0, s, _, _ => s
  | fuel + 1, s, sess, h =>
    match collOf s sess h with
    | none => s
    | some (c, g, x, _) =>
      if 3 ≤ x.phase then s
      else if (lineOf s g x.phase).all fun m => x.heard.contains (x.phase, m) then
        let s1 := setColl s sess h fun x => { x with phase := x.phase + 1 }
        let s2 := if x.phase + 1 < 3 then floodAxis s1 c g (x.phase + 1) (phasePacket s1 g x) else s1
        advancePhase fuel s2 sess h
      else s

/-- A peer's readiness differs from the member's own (11 R585). -/
def noteDiffers (x : Collective) (e : CollNote) : Bool :=
  x.kind != e.kind || (x.kind != 5 && (x.op != e.op || x.wire != e.wire || x.count != e.count))

/-- The axis along which a module lies. -/
def axisOf (s : State) (m : Nat) : Option Nat :=
  match (List.range 3).filter fun k => nthD 0 (coordsOf m) k != nthD 0 (coordsOf (myNumber s)) k with
  | [k] => some k
  | _ => none

/-- Take up a readiness or barrier for the collective in progress. -/
def takeNote (s : State) (sess : U32) (h : Nat) (e : CollNote) : State :=
  match collOf s sess h with
  | none => s
  | some (_, g, x, _) =>
    if x.seq ≠ e.seq then s
    else if noteDiffers x e then (if x.abort.isSome then s else originateAbort s sess h 0 x.seq faultBadCommand)
    else if x.kind = 3 ∨ x.kind = 5 then
      match axisOf s e.src with
      | some k => collGo (advancePhase 4 (setColl s sess h fun x => { x with heard := (k, e.src) :: x.heard }) sess h) sess h
      | none => s
    else
      let s1 := setColl s sess h fun x =>
        { x with readyPos := x.readyPos || ringNext s g false == e.src, readyNeg := x.readyNeg || ringNext s g true == e.src }
      collGo s1 sess h

/-- Keep a note for a collective that this member has not started, or take it up. -/
def collNote (s : State) (c : Context) (g : Group) (e : CollNote) : State :=
  match g.current with
  | some x => if x.seq = e.seq then takeNote s c.sess g.handle e else if g.nextSeq ≤ e.seq then setGroup s c.sess g.handle fun g => { g with early := g.early ++ [e] } else s
  | none => if g.nextSeq ≤ e.seq then setGroup s c.sess g.handle fun g => { g with early := g.early ++ [e] } else s

/-- COLL_READY: from a ring neighbour, or of the flood before an ALL_TO_ALL. -/
def collReady (s : State) (p : Packet) : State :=
  let a := p.a.toNat
  let e : CollNote := { seq := p.msg.toNat, src := p.srcMod.toNat, kind := a % 16, op := a / 16 % 16, wire := a / 256 % 16, count := a / 2 ^ 32 }
  if e.kind = 3 then withFlood s p 0x03 fun s1 c g _ => collNote s1 c g e
  else withPacket s p 0x03 fun s1 c g => collNote s1 c g e

def execCollReady (p : Packet) (s : State) : Host.Outcome State Fault Refusal := .next (collReady s p)

/-- BARRIER packet (11 R596). -/
def barrierPacket (s : State) (p : Packet) : State :=
  withFlood s p 0x14 fun s1 c g _ =>
    if p.a.toNat % 2 = 1 then collNote s1 c g { seq := p.msg.toNat, src := p.srcMod.toNat, kind := 5, op := 0, wire := 0, count := 0 } else s1

def execBarrierPacket (p : Packet) (s : State) : Host.Outcome State Fault Refusal := .next (barrierPacket s p)

/-! ### Starting (11 R583-R586) -/

/-- The operands of Table 11.8 for n members. -/
def collOk (kind n : Nat) (src dst : Option Desc) : Bool :=
  let red := fun (d : Desc) => decide (d.fmt ≤ 4) && !d.mx
  match kind, src, dst with
  | 0, some a, some b => red a && red b && a.size == b.size
  | 1, some a, some b => red a && red b && a.size == b.size
  | 2, some a, some b => !a.mx && !b.mx && a.fmt == b.fmt && b.size == n * a.size
  | 3, some a, some b => !a.mx && !b.mx && a.fmt == b.fmt && a.size == b.size && a.size % n == 0 && a.size / n % (if a.fmt = 0xC ∨ a.fmt = 0xE then 32 else 1) == 0
  | 4, some a, some b => !a.mx && !b.mx && a.fmt == b.fmt && a.size == b.size
  | 4, some a, none => !a.mx
  | 4, none, some b => !b.mx
  | 5, none, none => true
  | _, _, _ => false

/-- The wire format and element count by which members compare (11 R585): those of the destination, of the source where
there is no other. -/
def collShape (kind : Nat) (src dst : Option Desc) : Nat × Nat :=
  match kind, src, dst with
  | 2, some a, _ => (a.fmt, a.size)
  | _, _, some b => (b.fmt, b.size)
  | _, some a, none => (a.fmt, a.size)
  | _, none, none => (0, 0)

/-- Packets of elements of a stream. -/
def sendElems (s : State) (c : Context) (g : Group) (x : Collective) (d : Desc) (kind index lo n dst : Nat) : Except MemErr (List Packet) :=
  (wireRead s c d lo n).map fun bs => collPackets s g x kind d.fmt index dst n bs

/-- Both ways from this member: the packets that start a gathering of a piece, or a broadcast's unit. -/
def queueBoth (s : State) (c : Context) (g : Group) (x : Collective) (d : Desc) (kind index lo n : Nat) : Except MemErr State := do
  let one := fun (st : State) (neg : Bool) =>
    if arcReach g.size neg = 0 then pure st
    else (sendElems s c g x d kind index lo n (ringNext s g neg)).map fun ps => collQueue st c.sess g.handle neg ps
  let s1 ← one (tallyElems s c.sess 0 d ((List.range n).map fun i => d.elemAt (lo + i))) false
  one s1 true

/-- The FP32 packets of a half-piece that this member starts (11 R587). -/
def queueHalf (s : State) (c : Context) (g : Group) (x : Collective) (d : Desc) (q : Nat) : Except MemErr (State × Fl) := do
  let r := halfPiece g.size x.count q
  let v ← wireValues s c d r.1 r.2
  let neg := q % 2 == 1
  let ps := collPackets s g x x.kind 0 q (ringNext s g neg) r.2 (v.1.flatMap fun w => leBytes 4 w.toNat)
  pure (collQueue s c.sess g.handle neg ps, v.2)

/-- The part of a member's own data that stays: its piece, block or copy; and what it starts to send. -/
def collBegin (s : State) (c : Context) (g : Group) (x : Collective) (src dst : Option Desc) : Except MemErr State := do
  let n := g.size
  let i := myPos s g
  let copy := fun (st : State) (a b : Desc) (from_ to_ k : Nat) => do
    let bs ← wireRead st c a from_ k
    wireWrite st c b to_ k bs
  match x.kind, src, dst with
  | 0, some a, some b =>
    if n = 1 then
      let v ← wireValues s c a 0 x.count
      let q ← wireStore s c b 0 v.1
      pure (unitDone (setFlags q.1 c.sess engFabric (v.2 ||| q.2)) x.ref 0)
    else
      let p ← queueHalf s c g x a (2 * ((i + n - 1) % n))
      let q ← queueHalf p.1 c g x a (2 * ((i + 1) % n) + 1)
      pure (setFlags q.1 c.sess engFabric (p.2 ||| q.2))
  | 1, some a, some b =>
    if n = 1 then
      let v ← wireValues s c a 0 x.count
      let q ← wireStore s c b 0 v.1
      pure (unitDone (setFlags q.1 c.sess engFabric (v.2 ||| q.2)) x.ref 0)
    else
      let p ← queueHalf s c g x a (2 * ((i + n - 1) % n))
      let q ← queueHalf p.1 c g x a (2 * ((i + 1) % n) + 1)
      pure (setFlags q.1 c.sess engFabric (p.2 ||| q.2))
  | 2, some a, some b =>
    let s1 ← copy s a b 0 (i * x.count) x.count
    queueBoth (unitDone s1 x.ref 0) c g x a 2 i 0 x.count
  | 3, some a, some b =>
    let k := pieceElems g x
    let s1 ← copy s a b (i * k) (i * k) k
    ((List.range n).filter fun j => j != i).foldlM (fun st j => do
      let neg := (arc n i j).1
      let ps ← sendElems s c g x a 3 j (j * k) k (ringNext s g neg)
      pure (collQueue st c.sess g.handle neg ps)) (unitDone s1 x.ref 0)
  | 4, some a, d =>
    let s1 ← match d with | some b => copy s a b 0 0 x.count | none => pure s
    (List.range (bcastUnits x)).foldlM (fun st k => let u := gatherRange g x k; queueBoth st c g x a 4 k u.1 u.2) s1
  | _, _, _ => pure s

/-- Every byte of the operands translates. -/
def collSpans (s : State) (c : Context) (src dst : Option Desc) : Option Nat :=
  let one := fun (acc : Access) (d : Option Desc) => match d with | some d => footprintOk s c acc d | none => none
  match one .rd src with | some va => some va | none => one .wr dst

/-- FB_COLL starts: it takes the next sequence number of its group, tells its readiness and queues what it sends. A collective
of the group in progress goes first. -/
def startColl (kind : Nat) (s : State) (c : Context) (r : Running) : Except CmdErr State := do
  let w := r.word
  let src := r.desc 0x18
  let dst := r.desc 0x20
  match findGroup c (fld w 0x10 23 0) with
  | none => .error (errBad .fabric)
  | some g =>
    mustBe .fabric (g.complete && collOk kind g.size src dst)
    match collSpans s c src dst with
    | some va => .error (.code faultTranslation 0xFFFF va)
    | none =>
      if g.current.isSome then pure s
      else
        let sh := collShape kind src dst
        let x : Collective := { ref := r.ref, seq := g.nextSeq, kind := kind, op := fld w 0x28 7 4, wire := sh.1, count := sh.2, step := fld w 0x30 31 0,
                                startedAt := s.now, readyPos := false, readyNeg := false, phase := 0, heard := [], outbox := [], got := [],
                                abort := none }
        let s1 := setGroup s c.sess g.handle fun g => { g with nextSeq := g.nextSeq + 1, current := some x }
        match g.aborts.find? fun a => a.1 == 0 && a.2.1 == x.seq with
        | some a => pure (endColl s1 c.sess g.handle r.ref (.group a.2.2.2 a.2.2.1 0xFFFF))
        | none =>
          let s2 ← memTry 0xFFFF (collBegin (markStarted s1 .fabric r.ref) c g x src dst)
          let s3 := if kind = 3 ∨ kind = 5 then floodAxis s2 c g 0 (phasePacket s2 g x)
            else if g.size = 1 then s2
            else [ringNext s g false, ringNext s g true].eraseDups.foldl (fun st m => (sendFrom st c .west { phasePacket st g x with dstMod := BitVec.ofNat 12 m, incarn := incarnOfModule st m }).1) s2
          let s4 := advancePhase 4 s3 c.sess g.handle
          let s5 := (g.early.filter fun e => e.seq == x.seq).foldl (fun st e => takeNote st c.sess g.handle e) s4
          pure (collGo s5 c.sess g.handle)

def runColl (kind : Nat) (s : State) : State :=
  withRunning s .fabric (fun w => cmdOpcode w == 0x51 && fld w 0x28 3 0 == kind) (startColl kind)

def execAllReduce (s : State) : Host.Outcome State Fault Refusal := .next (runColl 0 s)
def execReduceScatter (s : State) : Host.Outcome State Fault Refusal := .next (runColl 1 s)
def execAllGather (s : State) : Host.Outcome State Fault Refusal := .next (runColl 2 s)
def execAllToAll (s : State) : Host.Outcome State Fault Refusal := .next (runColl 3 s)
def execBroadcast (s : State) : Host.Outcome State Fault Refusal := .next (runColl 4 s)
def execBarrier (s : State) : Host.Outcome State Fault Refusal := .next (runColl 5 s)

/-! ### COLL_DATA (11 R587-R591) -/

/-- (+) of 11 R587 over a run of elements. -/
def collCombine (op : Nat) (acc own : List U32) : List U32 × Fl :=
  let rs := (acc.zip own).map fun p => if op = 0 then fadd p.1 p.2 else fExtreme (op == 1) p.1 p.2
  (rs.map fun r => r.1, rs.foldl (fun a r => a ||| r.2 ) 0)

/-- A packet of a half-piece at a member of the ring: combined with its own elements and sent on, or at the owner converted
and stored; a whole piece of an ALL_REDUCE is then gathered (11 R587, R588). -/
def collReduce (s : State) (c : Context) (g : Group) (x : Collective) (a b : Desc) (p : Packet) : Except MemErr State := do
  let q := p.a.toNat / 65536 % 65536
  let n := g.size
  let i := myPos s g
  let neg := q % 2 == 1
  let lo := (halfPiece n x.count q).1 + p.b.toNat / 4
  let vals := bytesWords p.data
  let own ← wireValues s c a lo vals.length
  let r := collCombine x.op vals own.1
  let s1 := setFlags (tallyElems s c.sess 0 a ((List.range vals.length).map fun k => a.elemAt (lo + k))) c.sess engFabric (own.2 ||| r.2)
  let s2 := setColl s1 c.sess g.handle (collGot 0 q vals.length)
  if q / 2 ≠ i then
    let m := ringNext s g neg
    pure (collQueue s2 c.sess g.handle neg [{ p with srcMod := BitVec.ofNat 12 (myNumber s), dstMod := BitVec.ofNat 12 m, incarn := incarnOfModule s m,
                                                     data := r.1.flatMap fun w => leBytes 4 w.toNat }])
  else
    let t ← wireStore s2 c b lo r.1
    let s3 := setFlags t.1 c.sess engFabric t.2
    match (findCtx s3 c.sess).bind fun c => (findGroup c g.handle).bind fun g => g.current with
    | none => pure s3
    | some y =>
      if gotOf y 0 (2 * i) = (halfPiece n x.count (2 * i)).2 ∧ gotOf y 0 (2 * i + 1) = (halfPiece n x.count (2 * i + 1)).2 then
        let s4 := unitDone s3 x.ref 0
        if x.kind = 0 then let u := gatherRange g x i; queueBoth s4 c g x b 2 i u.1 u.2 else pure s4
      else pure s3

/-- A packet of a piece, block or unit that is only carried: stored here unless it is another member's block, and sent on
along its arc (11 R589). -/
def collCarry (s : State) (c : Context) (g : Group) (x : Collective) (b : Option Desc) (p : Packet) : Except MemErr State := do
  let k := p.a.toNat / 65536 % 65536
  let n := g.size
  let i := myPos s g
  let src := g.position s.fabric.dims p.srcMod.toNat
  let owner := if x.kind = 3 ∨ x.kind = 4 then src else k
  let way := arc n owner i
  let fmt := p.a.toNat / 256 % 16
  let at_ := p.b.toNat / (wireUnit fmt).2 * (wireUnit fmt).1
  let range := if x.kind = 3 then gatherRange g x src else gatherRange g x k
  let cnt := Nat.min (p.data.length / (wireUnit fmt).2 * (wireUnit fmt).1) (range.2 - at_)
  let mine := x.kind != 3 || k == i
  let s1 ← if mine then (match b with | some d => wireWrite s c d (range.1 + at_) cnt p.data | none => pure s) else pure s
  let slot := if x.kind = 3 then src else k
  let s2 := if mine then setColl s1 c.sess g.handle (collGot 1 slot cnt) else s1
  let done := match (findCtx s2 c.sess).bind fun c => (findGroup c g.handle).bind fun g => g.current with
    | some y => decide (gotOf y 1 slot = range.2)
    | none => false
  let s3 := if mine && done && x.kind != 4 then unitDone s2 x.ref (orderPlace n i slot) else s2
  let on := if x.kind = 3 then k != i else decide (way.2 < arcReach n way.1)
  let neg := if x.kind = 3 then (arc n src k).1 else way.1
  let m := ringNext s g neg
  pure (if on then collQueue s3 c.sess g.handle neg [{ p with dstMod := BitVec.ofNat 12 m, incarn := incarnOfModule s m }] else s3)

/-- A peer's data differs from the member's own collective, or a broadcast has two roots (11 R585). -/
def dataDiffers (x : Collective) (root : Bool) (a : Nat) : Bool :=
  let k := a % 16
  (k != x.kind && !(x.kind == 0 && k == 2)) || a / 16 % 16 != x.op || a / 2 ^ 32 != x.count ||
    (!(k == 0 || k == 1) && a / 256 % 16 != x.wire) || (x.kind == 4 && root)

/-- Mismatches of the check of the port that received a packet: one of the ports towards its sender, the plane being open; each
counts (13 Table 13.2 row 14). -/
def countMismatch (s : State) (src n : Nat) : State :=
  match nextHop s (myNumber s) src with
  | none => s
  | some (axis, neg) =>
    let k := choose s
    let s1 := (List.range n).foldl (fun st _ => bucketEvent st 14 (BitVec.ofNat 16 (0xC000 + portNo axis neg (k.1 % 2))) 0 0) k.2
    if liveMask s1 = liveMask s then s1 else linksChanged s1

/-- COLL_DATA: a first mismatch of the port's checks recomputes the packet, a second originates a common abort (11 R591). -/
def collData (s : State) (p : Packet) (mismatches : Nat) : State :=
  withPacket s p 0x02 fun s1 c g =>
    match collOf s1 c.sess g.handle with
    | none => s1
    | some (_, g, x, r) =>
      let a := p.a.toNat
      let reducing := a % 16 == 0 || a % 16 == 1
      if x.seq ≠ p.msg.toNat ∨ x.abort.isSome then s1
      else if dataDiffers x (fld r.word 0x18 47 0 != 0) a then originateAbort s1 c.sess g.handle 0 x.seq faultBadCommand
      else
        let s2 := if mismatches = 0 ∨ reducing = false then s1
          else setCtx (countMismatch s1 p.srcMod.toNat (Nat.min mismatches 2)) c.sess fun c => { c with fabricCtr := bump c.fabricCtr 8 1 }
        if 2 ≤ mismatches ∧ reducing = true then originateAbort s2 c.sess g.handle 0 x.seq 0x0006
        else
          let res := match reducing, r.desc 0x18, r.desc 0x20 with
            | true, some a, some b => collReduce s2 c g x a b p
            | true, _, _ => .ok s2
            | false, _, b => collCarry s2 c g x b p
          match res with
          | .ok s3 => armWaits (collGo s3 c.sess g.handle)
          | .error e => collMemErr s2 c.sess g.handle x e

def execCollData (p : Packet) (mismatches : Nat) (s : State) : Host.Outcome State Fault Refusal := .next (collData s p mismatches)

/-! ### Ends (11 R593, R594) -/

/-- COLLECTIVE_TIMEOUT. -/
def collectiveTimeout (s : State) (sess : U32) (h : Nat) : State :=
  match collOf s sess h with
  | none => s
  | some (_, g, x, _) => if x.startedAt + g.timeoutNs ≤ s.now ∧ x.abort.isNone then originateAbort s sess h 0 x.seq faultTimeoutColl else s

def execCollectiveTimeout (sess : U32) (group : BitVec 24) (s : State) : Host.Outcome State Fault Refusal := .next (collectiveTimeout s sess group.toNat)

/-- ABORT_END: 80 µs after the member first learned of an abort its collective ends with the kept error. -/
def abortEndRow (s : State) (sess : U32) (h : Nat) : State :=
  match collOf s sess h with
  | none => s
  | some (_, _, x, _) =>
    match x.abort with
    | none => s
    | some (o, e, t) => if t + 80000 ≤ s.now then endColl s sess h x.ref (.group e o 0xFFFF) else s

def execAbortEnd (sess : U32) (group : BitVec 24) (s : State) : Host.Outcome State Fault Refusal := .next (abortEndRow s sess group.toNat)

end Sys2Proof.Machine
end

