-- ==== Sys2Proof/Machine/Counters.lean ====
section
/-! DEFINITION. QUERY_COUNTERS: the counter records of the chapters, as a session reads them (02 R91; 06 R341; 07 R390; 08 R447;
09 R501; 10 R547; 11 R601; 12 R629). -/

namespace Sys2Proof.Machine

/-- The words of a record as bytes. -/
def wordsOut (l : List U64) : List Byte := l.flatMap fun w => leBytes 8 w.toNat

/-- The submission asks for a group of QUERY_COUNTERS. -/
def asksGroup (g : Nat) (u : Submission) : Bool := u.opcode == 0x50 && u.p0.toNat % 256 == g

/-- The groups of 02 R91 that are reserved. -/
def asksReserved (u : Submission) : Bool := u.opcode == 0x50 && (decide (1 ≤ u.p0.toNat % 256 ∧ u.p0.toNat % 256 ≤ 5) || decide (0x0D ≤ u.p0.toNat % 256))

/-- Write a record to the buffer of P1 and P2: a buffer that is too small is BAD_PARAM; RES0 is the bytes written (02 Table 2.6). -/
def answerRecord (s : State) (fn : Nat) (tag : U16) (o : Outstanding) (bs : List Byte) : State :=
  if P2 o < bs.length then complete s fn tag (stBadParam 0x20)
  else
    match hostWrite s (P1 o) bs with
    | none => hostBufferError s fn tag
    | some s1 => complete s1 fn tag (stOk0 bs.length)

/-- Counters whose unit is the nanosecond, as a virtual function sees them: multiples of 1,000 (12 R622). -/
def wholeUs (fn : Nat) (ns : List Nat) (l : List U64) : List U64 :=
  if fn = 0 then l else ns.foldl (fun l i => modifyAt (fun w => w - w % 1000) i l) l

/-- A group whose record is a list of counters of the issuing session's context; ns are the counters in nanoseconds. -/
def queryCounters (s : State) (fn : Nat) (tag : U16) (g : Nat) (ns : List Nat) (f : Context → List U64) : State :=
  withCommand s fn tag (asksGroup g) fun s o =>
    withOwnCtx s fn tag o fun c =>
      let s1 := unseenEvents s c.sess
      match findCtx s1 c.sess with
      | none => s
      | some c1 => answerRecord s1 fn tag o (wordsOut (wholeUs fn ns (f c1)))

def execQueryCountersSplint (fn : Nat) (tag : U16) (s : State) : Host.Outcome State Fault Refusal :=
  .next (queryCounters s fn tag 0x06 [18, 19] fun c => c.splintCtr)

def execQueryCountersWeave (fn : Nat) (tag : U16) (s : State) : Host.Outcome State Fault Refusal :=
  .next (queryCounters s fn tag 0x07 [14, 15] fun c => c.weaveCtr)

def execQueryCountersRim (fn : Nat) (tag : U16) (s : State) : Host.Outcome State Fault Refusal :=
  .next (queryCounters s fn tag 0x08 [13] fun c => c.rimCtr)

def execQueryCountersMemory (fn : Nat) (tag : U16) (s : State) : Host.Outcome State Fault Refusal :=
  .next (queryCounters s fn tag 0x09 [11, 14] fun c => c.memCtr)

def execQueryCountersTier (fn : Nat) (tag : U16) (s : State) : Host.Outcome State Fault Refusal :=
  .next (queryCounters s fn tag 0x0A [10, 14] fun c => c.tierCtr)

/-- TAG_DROPS is 0 in a context's record (11 Table 11.11). -/
def execQueryCountersFabric (fn : Nat) (tag : U16) (s : State) : Host.Outcome State Fault Refusal :=
  .next (queryCounters s fn tag 0x0B [6, 13] fun c => modifyAt (fun _ => 0) 14 c.fabricCtr)

/-- LIMIT and USE of a resource code (12 Table 12.4); zero for a reserved code. -/
def quotaEntry (s : State) (c : Context) (code : Nat) : List U64 :=
  if (quotaDefault code).isSome then
    [BitVec.ofNat 64 (quotaLimit s c.tenant code), BitVec.ofNat 64 (quotaUse s c.tenant code (some c.sess))]
  else [0, 0]

/-- The quota and residency record (12 Table 12.4). -/
def quotaRecord (s : State) (c : Context) : List U64 :=
  let t := findTenant s c.tenant
  (List.range 32).flatMap (quotaEntry s c) ++
    [c.parks, c.contextWaitNs / 1000, c.queuedEntries, t.refusedQuota, t.refusedCeiling, t.hbmThrottleNs / 1000,
      t.fabricThrottleNs / 1000, c.waysShortNs / 1000].map (BitVec.ofNat 64)

def execQueryCountersQuota (fn : Nat) (tag : U16) (s : State) : Host.Outcome State Fault Refusal :=
  .next (withCommand s fn tag (asksGroup 0x0C) fun s o => withOwnCtx s fn tag o fun c => answerRecord s fn tag o (wordsOut (quotaRecord s c)))

/-- 02 R91. -/
def execQueryCountersReserved (fn : Nat) (tag : U16) (s : State) : Host.Outcome State Fault Refusal :=
  .next (withCommand s fn tag asksReserved fun s _ => complete s fn tag (stBadParam 0x10))

end Sys2Proof.Machine
end

