-- ==== Sys2Proof/Machine/Lists.lean ====
section
/-! DEFINITION. Submitting, holding and cancelling lists, and saving and restoring a context (chapters 03 and 12). -/

namespace Sys2Proof.Machine

/-- A task header (03 Table 3.2). -/
def decodeTask (bs : List Byte) : Task :=
  { engine := fieldAt bs 0 1 % 16, halves := fieldAt bs 0 1 / 16 % 4, count := fieldAt bs 2 2, offset := fieldAt bs 4 4,
    nextWest := 0, nextEast := 0, doneWest := [], doneEast := [], waitSince := none, timedOut := false }

/-- ENGINE and HALVES of a task (03 Table 3.2, R129). -/
def taskUnitOk (t : Task) : Bool :=
  match t.engine with
  | 0 | 4 | 5 => t.halves == 3
  | 2 => t.halves == 1 || t.halves == 2
  | 1 | 3 => t.halves != 0
  | _ => false

/-- The first bad field of task i and those after it, as its offset in the list (03 R130). -/
def badTask (listBytes nTasks : Nat) : Nat → List Task → List Task → Option Nat
  | _, _, [] => none
  | i, before, t :: rest =>
    let h := 64 + 64 * i
    if taskUnitOk t = false then some h
    else if t.count = 0 then some (h + 2)
    else if t.offset % 64 ≠ 0 ∨ t.offset < 64 + 64 * nTasks ∨ listBytes < t.offset + 64 * t.count ∨
        (before.any fun u => rangesOverlap t.offset (64 * t.count) u.offset (64 * u.count)) = true then some (h + 4)
    else badTask listBytes nTasks (i + 1) (before ++ [t]) rest

/-- The check of a list at admission (03 R130): its size, its status record and its tasks, or the first bad field. -/
def checkList (s : State) (c : Context) (base : Nat) : Except Nat (Nat × Nat × List Task) :=
  match readVa s c .rd base 64 with
  | .error _ => .error 0
  | .ok h =>
    let n := fieldAt h 2 2
    let bytes := fieldAt h 4 4
    let status := fieldAt h 8 6
    if fieldAt h 0 1 ≠ 3 then .error 0
    else if n = 0 ∨ 64 < n then .error 2
    else if bytes % 64 ≠ 0 ∨ 2 ^ 24 < bytes ∨ bytes < 64 + 64 * n then .error 4
    else if status ≠ 0 ∧ (status % 64 ≠ 0 ∨ (spanOk s c .wr status 64).isSome = true) then .error 8
    else
      match spanOk s c .rd base bytes with
      | some bad => .error (bad - base)
      | none =>
        match readVa s c .rd (base + 64) (64 * n) with
        | .error _ => .error 64
        | .ok hs =>
          let tasks := (List.range n).map fun i => decodeTask (hs.drop (64 * i))
          match badTask bytes n 0 [] tasks with
          | some off => .error off
          | none => .ok (bytes, status, tasks)

/-- SUBMIT_LIST (03 R128-R130, R140; 12 R608, R609, R612, R616): the parameters, the ceiling, the LISTS quota, the list's
own check; then the context is activated and the list's tasks enter the ready lists when it is resident. -/
def submitList (s : State) (fn : Nat) (tag : U16) (o : Outstanding) : State :=
  match findCtx s o.sub.session with
  | none => complete s fn tag stNoSession
  | some c =>
    let prio := P1 o % 8
    let ceiling := (findTenant s c.tenant).ceiling.toNat
    if P0 o % 64 ≠ 0 then complete s fn tag (stBadParam 0x10)
    else if ceiling < prio then
      complete (setTenant s c.tenant fun t => { t with refusedCeiling := t.refusedCeiling + 1 }) fn tag (stCeiling ceiling)
    else
      match quotaBreach s c.tenant [(0x0B, quotaUse s c.tenant 0x0B none + 1)] with
      | some code => refuseQuota s c.tenant fn tag code
      | none =>
        match checkList s c (P0 o) with
        | .error off => complete s fn tag { stBadParam off with res0 := 1 }
        | .ok (bytes, status, tasks) =>
          let u := freshUid s
          let l : CmdList :=
            { uid := u.1, fn := fn, tag := tag, sess := c.sess, base := P0 o, bytes := bytes, status := status, prio := prio,
              order := o.order, readAt := o.readAt, admitted := false, tasks := tasks, started := false, preemptions := 0,
              preempted := false, times := [0, 0, 0, 0, 0, 0, 0], ended := none }
          let s1 := markAccepted { u.2 with lists := u.2.lists ++ [l] } fn tag
          let queued := s1.waitQueue.any fun w => w.1 == c.sess
          let a := activate s1 c.sess prio
          if a.2 then (if queued then a.1 else interim a.1 fn tag 2 (queuePosition a.1 c.sess))
          else armWaits (setList a.1 l.uid fun l => { l with admitted := true })

def execSubmitList (fn : Nat) (tag : U16) (s : State) : Host.Outcome State Fault Refusal :=
  .next (withCommand s fn tag (isOp 0x21) fun s o => submitList s fn tag o)

/-- Serve the head of the context wait queue when a slot is free or an idle context can be parked (12 R615). Freed ways
are offered (R617). -/
def contextWaitServe (s : State) : State :=
  match s.waitQueue with
  | [] => offerWays s
  | w :: rest =>
    match findCtx s w.1 with
    | none => { s with waitQueue := rest }
    | some c =>
      match tryResident s c with
      | some s' => s'
      | none => offerWays s

def execContextWaitServe (s : State) : Host.Outcome State Fault Refusal := .next (contextWaitServe s)

/-- Every command of a list has completed. -/
def listFinished (s : State) (l : CmdList) : Bool :=
  match findCtx s l.sess with
  | none => true
  | some c =>
    l.admitted && !(s.progress.any fun p => p.ref.list == l.uid) &&
    (List.range l.tasks.length).all fun ti =>
      match l.tasks[ti]? with
      | none => true
      | some t =>
        [EngineInst.weave, .splints .west, .splints .east, .sampler .west, .sampler .east, .rim .west, .rim .east, .fabric, .tier].all
          fun inst => t.engine != inst.engine || !inst.named t.halves || (nextOf s c l t inst).isNone

/-- A context with no held submission and no packet waiting leaves the wait queue (12 R616). -/
def leaveQueue (s : State) (sess : U32) : State :=
  let held := s.lists.any fun l => l.sess == sess && l.ended.isNone && !l.admitted
  let packets := match findCtx s sess with
    | none => false
    | some c => s.fabric.received.any fun p => c.groups.any fun g => g.gid == p.groupId.toNat && g.jobTag == p.jobTag
  if held || packets then s else { s with waitQueue := s.waitQueue.filter fun w => w.1 != sess }

/-- CANCEL_LIST (02 R86; 03 R179): the list of the session under the tag, unless it has already ended. -/
def cancelList (s : State) (fn : Nat) (tag : U16) (o : Outstanding) : State :=
  let target : U16 := BitVec.ofNat 16 (P0 o)
  match s.lists.find? fun l => l.fn == fn && l.tag == target && l.sess == o.sub.session with
  | none => complete s fn tag (stOk0 0)
  | some l =>
    if l.ended.isSome || listFinished s l then complete s fn tag (stOk0 0)
    else complete (leaveQueue (endList s l.uid (abortEnd s.now 1 0 none)) l.sess) fn tag (stOk0 1)

def execCancelList (fn : Nat) (tag : U16) (s : State) : Host.Outcome State Fault Refusal :=
  .next (withCommand s fn tag (isOp 0x22) fun s o => cancelList s fn tag o)

/-! ### The context save area (03 Table 3.9) -/

/-- Bytes 0x000 to 0xFDF of a save area. -/
def saveBody (s : State) (c : Context) (fn : Nat) : List Byte :=
  leBytes 4 3 ++ leBytes 4 4096 ++ leBytes 8 (nowUs s) ++ leBytes 4 c.tenant.toNat ++ leBytes 2 fn ++ List.replicate 0x2A 0 ++
    c.sems.flatMap (fun v => leBytes 4 v.toNat) ++ leBytes 16 c.plaitKey.toNat ++
    c.bases.flatMap (fun v => leBytes 8 v.toNat) ++ leBytes 8 c.flags.toNat ++ List.replicate 8 0 ++ encodeRim c.rim ++
    List.replicate (0xFE0 - 0x320) 0

def saveTag (body : List Byte) : List Byte := hmacSha256 (leBytes 32 Config.saveKey.toNat) body

/-- SAVE_CONTEXT (03 R185, R186). -/
def saveContext (s : State) (fn : Nat) (tag : U16) (o : Outstanding) : State :=
  match findCtx s o.sub.session with
  | none => complete s fn tag stNoSession
  | some c =>
    if earlierListsEnded s o = false then markHeld s fn tag
    else if P1 o < 4096 then complete s fn tag stNoMemory
    else
      let body := saveBody s c fn
      match writeVa s c .wr (P0 o) (body ++ saveTag body) with
      | .error _ => complete s fn tag (stBadParam 0x10)
      | .ok s' => complete s' fn tag (stOk0 4096)

def execSaveContext (fn : Nat) (tag : U16) (s : State) : Host.Outcome State Fault Refusal :=
  .next (withCommand s fn tag (isOp 0x41) fun s o => saveContext s fn tag o)

/-- The save area's TAG, VERSION, SIZE and TENANT (03 R187). -/
def areaOk (c : Context) (bs : List Byte) : Bool :=
  bs.drop 0xFE0 == saveTag (bs.take 0xFE0) && fieldAt bs 0 1 == 3 && fieldAt bs 4 4 == 4096 && fieldAt bs 0x10 4 == c.tenant.toNat

/-- RESTORE_CONTEXT replaces semaphores, generator state, flags and the policy of the Rim state, after skipping a pending
or unsettled step (03 R187, 08 R445). -/
def restoreFrom (bs : List Byte) (c : Context) : Context :=
  { c with
    sems := (List.range 48).map fun i => BitVec.ofNat 32 (fieldAt bs (0x40 + 4 * i) 4)
    plaitKey := BitVec.ofNat 128 (fieldAt bs 0x100 16)
    bases := (List.range 32).map fun i => BitVec.ofNat 64 (fieldAt bs (0x110 + 8 * i) 8)
    flags := BitVec.ofNat 30 (fieldAt bs 0x210 4)
    rim := restoreRim (bs.drop 0x220) c.rim }

/-- Skip the pending step of a context and revert its unsettled ones. -/
def skipOpenSteps (s : State) (sess : U32) : State :=
  match findCtx s sess with
  | none => s
  | some c =>
    let s1 := if c.rim.pending = 0 then s else setCtx (skipStep s sess c.rim.pending) sess fun c => { c with vote := none }
    c.settles.foldl (fun st x => revertStep st sess x.step) s1

def restoreContext (s : State) (fn : Nat) (tag : U16) (o : Outstanding) : State :=
  match findCtx s o.sub.session with
  | none => complete s fn tag stNoSession
  | some c =>
    if earlierListsEnded s o = false then markHeld s fn tag
    else
      let queued := s.waitQueue.any fun w => w.1 == c.sess
      let a := activate s c.sess (findTenant s c.tenant).ceiling.toNat
      if a.2 then markHeld (if queued then a.1 else interim a.1 fn tag 2 (queuePosition a.1 c.sess)) fn tag
      else if P1 o < 4096 then complete a.1 fn tag (stBadParam 0x18)
      else
        match readVa a.1 c .rd (P0 o) 4096 with
        | .error _ => complete a.1 fn tag (stBadParam 0x10)
        | .ok bs =>
          if areaOk c bs then complete (setCtx (skipOpenSteps a.1 c.sess) c.sess (restoreFrom bs)) fn tag stOk
          else complete a.1 fn tag (stBadParam 0x10)

def execRestoreContext (fn : Nat) (tag : U16) (s : State) : Host.Outcome State Fault Refusal :=
  .next (withCommand s fn tag (isOp 0x42) fun s o => restoreContext s fn tag o)

end Sys2Proof.Machine
end

