-- ==== Sys2Proof/Machine/Dispatcher.lean ====
section
/-! DEFINITION. The dispatcher: choosing and fetching commands, pre-emption, the synchronisation commands, delay lists
and the end of a list (chapter 03). -/

namespace Sys2Proof.Machine

/-! ### Fetching a command (03 R135, R169) -/

/-- The payload offsets of the fields that name a stream descriptor and are in use: the pipe of an operand replaces its
descriptor, and a field of 0 names none (03 Table 3.4). -/
def descFields (w : BitVec 512) : List Nat :=
  let use := fun off => if fld w off 47 0 = 0 then [] else [off]
  let orPipe := fun off => if fld w off 50 48 = 0 then use off else []
  match cmdOpcode w with
  | 0x10 => orPipe 0x10 ++ use 0x18 ++ orPipe 0x20
  | 0x11 => if fld w 0x10 6 4 = 0 then use 0x20 else []
  | 0x20 => use 0x10 ++ orPipe 0x18 ++ (if fld w 0x20 16 16 = 1 then use 0x28 else [])
  | 0x21 => orPipe 0x10 ++ use 0x18
  | 0x30 => use 0x18
  | 0x40 => orPipe 0x10 ++ orPipe 0x18 ++ (if auxIsDesc (fld w 0x20 15 0) then use 0x28 else [])
  | 0x41 => use 0x20
  | 0x42 => use 0x10 ++ use 0x18
  | 0x43 => use 0x10 ++ use 0x18 ++ use 0x20
  | 0x44 => use 0x10 ++ use 0x28
  | 0x50 => use 0x18
  | 0x51 => use 0x18 ++ use 0x20
  | _ => []

/-- Read the descriptors of a command (03 R169): TRANSLATION when one cannot be read, BAD_COMMAND when one is not 64-B
aligned or breaks the rules of "Stream descriptors". -/
def fetchDescs (s : State) (c : Context) (inst : EngineInst) (w : BitVec 512) : List Nat → Except CmdErr (List (Nat × BitVec 512))
  | [] => .ok []
  | off :: rest => do
    let a := fld w off 47 0
    mustBe inst (a % 64 == 0)
    let bs ← memTry inst.unit (readVa s c .rd a 64)
    let d := wordOf bs
    mustBe inst (decodeDesc d).ok
    let t ← fetchDescs s c inst w rest
    pure ((off, d) :: t)

/-- The OP, KIND, OPTIMISER, ROUND and KEEP fields hold no reserved value (03 R135; 08 R392, R402, R409, R419; 04 R214; 11
R583). -/
def codesOk (w : BitVec 512) : Bool :=
  match cmdOpcode w with
  | 0x40 => [0x0000, 0x0001, 0x0002, 0x0003, 0x0004, 0x0005, 0x0006, 0x0007, 0x0008, 0x0009, 0x0010, 0x0011, 0x0012, 0x0013, 0x0014, 0x0015,
      0x0020, 0x0100, 0x0101, 0x0102, 0x0200, 0x0300, 0x0301, 0x0400, 0x0401, 0x0402, 0x0500, 0x0E00, 0x0E01, 0x0E02, 0x0E03, 0x0E04,
      0x0F00].contains (fld w 0x20 15 0)
  | 0x41 => decide (fld w 0x28 1 0 < 2)
  | 0x42 => fld w 0x28 1 0 != 3
  | 0x43 => (decide (1 ≤ fld w 0x28 3 0) && decide (fld w 0x28 3 0 ≤ 8)) || fld w 0x28 3 0 == 15
  | 0x44 => fld w 0x20 1 0 != 3
  | 0x51 => decide (fld w 0x28 3 0 ≤ 5) && decide (fld w 0x28 7 4 ≤ (if fld w 0x28 3 0 < 2 then 2 else 0))
  | _ => true

/-- The checks of 03 R135 common to every engine: semaphore numbers, HALVES within the task's, the increment of
SY_SIGNAL, and a reserved KIND left to the engine's own row. -/
def headerOk (t : Task) (w : BitVec 512) : Bool :=
  let h := cmdHalves w
  semsOk w && codesOk w && h != 0 && (h &&& t.halves) == h &&
    (if cmdOpcode w = 2 then decide (1 ≤ fld w 0x14 31 0) && decide (fld w 0x14 31 0 < 2 ^ 31) else true)

/-- The opcode is one of the engine's, or a synchronisation command (03 R135). -/
def opcodeOk (inst : EngineInst) (w : BitVec 512) : Bool :=
  match opcodeEngine (cmdOpcode w) with
  | some e => e == 6 || e == inst.engine
  | none => false

/-- A chain of the Weave passes to the next command of its task, which must be a WV_MATMUL (07 R354). -/
def chainBroken (s : State) (inst : EngineInst) (uid ti : Nat) (w : BitVec 512) : Bool :=
  inst == .weave && cmdOpcode w != 0x10 && s.weave.chains.any fun ch => ch.ref.list == uid && ch.ref.task == ti

/-- Fire command k of a task: the checks at fetch, the pipes, and the command in progress (03 R135-R137). A command whose
opcode is reserved or another engine's is left to its own row. -/
def fireCommand (s : State) (inst : EngineInst) (l : CmdList) (ti : Nat) (t : Task) (c : Context) (k : Nat)
    (w : BitVec 512) : State :=
  let ref : CmdRef := { list := l.uid, task := ti, cmd := k }
  let advance := fun (t : Task) => match inst.half with
    | some .east => { t with nextEast := k + 1, waitSince := none, timedOut := false }
    | _ => { t with nextWest := k + 1, waitSince := none, timedOut := false }
  let s1 := setTask (setList s l.uid fun l => { l with started := true }) l.uid ti advance
  let s2 := setEngine (dropDelay s1 ref) inst fun e => { e with idle := false, lastIssue := s.now, rampStep := if e.idle then 0 else e.rampStep }
  let start := fun (st : State) (descs : List (Nat × BitVec 512)) =>
    let r : Running := { ref := ref, sess := l.sess, word := w, descs := descs, firedAt := s.now, started := false }
    let st1 := setEngine st inst fun e => { e with running := e.running ++ [r] }
    let halves := if inst.half.isNone then 3 else cmdHalves w
    if (findProgress st1 ref).isSome then st1
    else { st1 with progress := st1.progress ++ [{ ref := ref, sess := l.sess, word := w, halves := halves, units := [],
                                                   signalled := 0, westDone := false, eastDone := false,
                                                   plaitKey := c.plaitKey, bases := c.bases }] }
  if opcodeOk inst w = false then start s2 []
  else if headerOk t w = false ∨ chainBroken s inst l.uid ti w = true then faultCommand s2 ref (errBad inst)
  else
    match fetchDescs s2 c inst w (descFields w) with
    | .error e => faultCommand s2 ref e
    | .ok descs =>
      match joinPipe c (outPipe w) true ref with
      | none => faultCommand s2 ref (errBad inst)
      | some c1 =>
        match joinPipe c1 (inPipe w) false ref with
        | none => faultCommand s2 ref (errBad inst)
        | some c2 => start (setCtx s2 l.sess fun x => { x with pipes := c2.pipes, activeAt := s.now }) descs

/-- Work in hand that keeps an instance from choosing: for the Splints and the fabric four commands of the running task,
for the others one; SY_DELAY occupies no slot (03 R148). -/
def engineBusy (e : Engine) : Bool :=
  let n := (e.running.filter fun r => !r.isDelay).length
  decide (e.inst.depth ≤ n)

/-- An engine instance chooses a task and fires its next command; a pre-empted task resumes with the commands it had in
progress. The next choice without it goes to the prefetched slot (03 R142, R144, R147). -/
def taskChoice (s : State) (inst : EngineInst) : State :=
  let e := findEngine s inst
  if engineBusy e then s
  else
    match chooseTask s inst with
    | none => setEngine s inst fun e => { e with prefetched := none }
    | some (l, ti) =>
      let susp := (suspendedOf e l.uid).filter fun r => r.ref.task == ti
      let s1 :=
        if susp ≠ [] then
          setList (setEngine s inst fun e =>
            { e with running := e.running ++ susp,
                     suspended := (e.suspended.map fun p => if p.1 = l.uid then (p.1, p.2.filter fun r => r.ref.task != ti) else p).filter
                       fun p => !p.2.isEmpty }) l.uid fun l => { l with preempted := false }
        else
          match l.tasks[ti]?, findCtx s l.sess with
          | some t, some c =>
            match nextOf s c l t inst with
            | some (k, .ok w) => fireCommand s inst l ti t c k w
            | some (k, .error err) => faultCommand s { list := l.uid, task := ti, cmd := k } (errMem inst.unit err)
            | none => s
          | _, _ => s
      let nxt := (readyTasks s1 inst).find? fun p => !(p.1.uid == l.uid && p.2 == ti) && chainAllows s1 inst p && canFire s1 inst p.1 p.2
      armWaits (setEngine s1 inst fun e => { e with prefetched := nxt.map fun p => (p.1.uid, p.2) })

def execTaskChoice (inst : EngineInst) (s : State) : Host.Outcome State Fault Refusal := .next (taskChoice s inst)

/-- The level of an instance's running task. -/
def runningLevel (s : State) (e : Engine) : Option Nat :=
  match e.running.find? fun r => !r.isDelay with
  | none => none
  | some r => (findList s r.ref.list).map fun l => l.prio

/-- An urgent task selectable at a level above the running task's stops its commands at their pre-emption points; they
wait to resume (03 R143, R144). A running FB_COLL is never pre-empted (R145). -/
def preempt (s : State) (inst : EngineInst) : State :=
  let e := findEngine s inst
  match runningLevel s e, chooseTask s inst with
  | some lv, some (l, _) =>
    if 6 ≤ l.prio ∧ lv < l.prio ∧ (e.running.any fun r => keepsRunning r.word) = false then
      let out := e.running.filter fun r => !r.isDelay
      let uids := (out.map fun r => r.ref.list).eraseDups
      let s1 := setEngine s inst fun e =>
        { e with running := e.running.filter fun r => r.isDelay,
                 suspended := e.suspended ++ uids.map fun u => (u, out.filter fun r => r.ref.list == u) }
      uids.foldl (fun st u => setList st u fun l =>
        { l with preempted := true, preemptions := l.preemptions + (out.filter fun r => r.ref.list == u).length }) s1
    else s
  | _, _ => s

def execPreempt (inst : EngineInst) (s : State) : Host.Outcome State Fault Refusal := .next (preempt s inst)

/-- A command whose opcode is reserved or belongs to another engine faults with BAD_COMMAND (03 R135). -/
def execReservedEngineOpcode (inst : EngineInst) (s : State) : Host.Outcome State Fault Refusal :=
  .next (withRunning s inst (fun w => !opcodeOk inst w) fun _ _ _ => .error (errBad inst))

/-! ### Synchronisation commands -/

/-- SY_WAIT completes at once when it has fired (03 R157). -/
def execSyWait (inst : EngineInst) (s : State) : Host.Outcome State Fault Refusal :=
  .next (withRunning s inst (fun w => cmdOpcode w == 1) fun s _ r => .ok (shareDone s inst r.ref))

/-- The timeout of an SY_WAIT that is still the next command of its task has expired: the conditions are evaluated once
more, and the command completes or faults with WAIT_TIMEOUT (03 R157). -/
def waitTimeout (s : State) (inst : EngineInst) : State :=
  let cand := (readyTasks s inst).find? fun p => match p.1.tasks[p.2]? with | some t => t.timedOut | none => false
  match cand with
  | none => s
  | some (l, ti) =>
    match l.tasks[ti]?, findCtx s l.sess with
    | some t, some c =>
      match nextOf s c l t inst with
      | some (k, .ok w) =>
        if cmdOpcode w = 1 then
          if waitsHold c w then
            let s1 := fireCommand (setTask s l.uid ti fun t => { t with timedOut := false }) inst l ti t c k w
            armWaits (shareDone s1 inst { list := l.uid, task := ti, cmd := k })
          else faultCommand s { list := l.uid, task := ti, cmd := k } (.code 0x000C inst.unit 0)
        else s
      | _ => s
    | _, _ => s

def execSyWaitTimeout (inst : EngineInst) (s : State) : Host.Outcome State Fault Refusal := .next (waitTimeout s inst)

/-- SY_SIGNAL adds INCREMENT to SEM, and its own header's signal applies at completion (03 R150). -/
def execSySignal (inst : EngineInst) (s : State) : Host.Outcome State Fault Refusal :=
  .next (withRunning s inst (fun w => cmdOpcode w == 2) fun s _ r =>
    .ok (shareDone (addSem s r.sess (fld r.word 0x10 5 0) (fld r.word 0x14 31 0)) inst r.ref))

/-- SY_DELAY takes an entry of its half's delay list; an absolute deadline that has passed completes at once (03 R165,
R168). -/
def execSyDelay (inst : EngineInst) (s : State) : Host.Outcome State Fault Refusal :=
  .next (withRunning s inst (fun w => cmdOpcode w == 3) fun s _ r =>
    let time := fld r.word 0x18 63 0 * 1000
    let abs := fld r.word 0x10 0 0 == 1
    let deadline := if abs then time else s.now + time
    if abs && decide (deadline ≤ s.now) then .ok (shareDone s inst r.ref)
    else .ok (addDelay (markStarted s inst r.ref) (delayHalf s inst) deadline r.ref false))

/-- The instance on which a delay of a half runs. -/
def delayInst (s : State) (h : Half) (ref : CmdRef) : Option EngineInst :=
  (s.engines.find? fun e => (e.running.any fun r => r.ref == ref && r.isDelay) && (delayHalf s e.inst == h || e.inst.half.isNone)).map
    fun e => e.inst

/-- The first entry of a half's delay list expires at the first tick at or after its deadline: a delay completes, a
timeout is due (03 R166, R167). -/
def delayExpiry (s : State) (h : Half) : State :=
  match s.delays.find? fun d => d.half == h with
  | none => s
  | some d =>
    if s.now < tickAt s d.deadline then s
    else
      let s1 := { s with delays := s.delays.erase d }
      match d.kind with
      | .delay ref =>
        match delayInst s1 h ref with
        | none => s1
        | some inst => armWaits (shareDone s1 inst ref)
      | .timeout ref => setTask s1 ref.list ref.task fun t => { t with timedOut := true }

def execDelayEntryExpiry (h : Half) (s : State) : Host.Outcome State Fault Refusal := .next (delayExpiry s h)

/-- A freed entry goes to the oldest command of the half that waits for one (03 R168). -/
def delayFreed (s : State) (h : Half) : State :=
  match s.delayWaits.find? fun d => d.half == h with
  | none => s
  | some d =>
    if delayUsed s h < 960 then
      addDelay { s with delayWaits := s.delayWaits.erase d } h (Nat.max d.deadline s.now) d.ref d.isTimeout
    else s

def execDelayEntryFreed (h : Half) (s : State) : Host.Outcome State Fault Refusal := .next (delayFreed s h)

/-! ### The end of a list -/

/-- Class and reason, and DETAIL and RES0, of a list's final completion (03 R184, Table 3.5). -/
def endStatus (l : CmdList) (e : ListEnd) : Status :=
  let waits := sumNat ((l.times.take 6).map fun t => t / 1000)
  { cls := e.cls, reason := e.reason, res0 := match e.res0 with | some r => r.toNat | none => waits,
    res1 := nthD 0 l.times 6 / 1000, detail := e.detail.toNat }

/-- The list status record (03 Table 3.8); each time saturates. -/
def statusRecord (l : CmdList) (e : ListEnd) : List Byte :=
  let t := fun i => leBytes 4 (Nat.min (nthD 0 l.times i / 1000) 0xFFFFFFFF)
  [e.reason, e.cls, 0, 0] ++ leBytes 4 e.fault.toNat ++ leBytes 4 e.faultOffset.toNat ++ leBytes 4 l.preemptions ++
    leBytes 8 e.faultInfo.toNat ++ t 0 ++ t 1 ++ t 2 ++ t 3 ++ t 4 ++ t 5 ++ t 6 ++ leBytes 4 0 ++ leBytes 8 (e.endedAt / 1000)

def okEnd (now : Nat) : ListEnd :=
  { cls := 0, reason := 0, detail := 0, res0 := none, fault := 0, faultOffset := 0, faultInfo := 0, endedAt := now }

/-- A list whose commands have all completed, or which ended early and has no command still running, writes its status
record and then its final completion (02 R85; 03 R181, R183). A record that cannot be written is lost. -/
def listEnd (s : State) (fn : Nat) (tag : U16) : State :=
  match s.lists.find? fun l => l.fn == fn && l.tag == tag with
  | none => s
  | some l =>
    let running := s.progress.any fun p => p.ref.list == l.uid
    let done : Option ListEnd := match l.ended with
      | some e => some e
      | none => if listFinished s l then some (okEnd s.now) else none
    match done with
    | none => s
    | some e =>
      if running then s
      else
        let s1 := if l.status = 0 then s else
          match findCtx s l.sess with
          | none => s
          | some c => match writeVa s c .wr l.status (statusRecord l e) with | .ok s' => s' | .error _ => s
        complete { s1 with lists := s1.lists.filter (fun x => x.uid != l.uid)
                           remoteReqs := s1.remoteReqs.filter fun q => !(q.type == 1 && q.ref.list == l.uid) } fn tag (endStatus l e)

def execListEnd (fn : Nat) (tag : U16) (s : State) : Host.Outcome State Fault Refusal := .next (listEnd s fn tag)

/-! ### DEFERRED QUEUED (02 R127) -/

def instancesOf (t : Task) : List EngineInst :=
  (Engine.all.map fun e => e.inst).filter fun i => i.engine == t.engine && i.named t.halves

/-- The position of a task on an instance: one more than the tasks the rule of choice would take before it. -/
def taskPosition (s : State) (inst : EngineInst) (uid ti : Nat) : Nat :=
  let before := (readyTasks s inst).takeWhile fun p => !(p.1.uid == uid && p.2 == ti)
  (before.filter fun p => canFire s inst p.1 p.2).length + 1

def listPosition (s : State) (l : CmdList) : Nat :=
  let ps := (List.range l.tasks.length).flatMap fun ti =>
    match l.tasks[ti]? with
    | none => []
    | some t => (instancesOf t).map fun i => taskPosition s i l.uid ti
  match leastBy (fun a b => decide (a < b)) ps with
  | some n => n
  | none => 1

/-- An admitted list that has waited longer than 1 ms before any command started gets one interim completion. -/
def interimQueued (s : State) (fn : Nat) (tag : U16) : State :=
  match s.lists.find? fun l => l.fn == fn && l.tag == tag with
  | none => s
  | some l =>
    let waited := sumNat (l.times.drop 1)
    if l.admitted && !l.started && l.ended.isNone && decide (10 ^ 6 < waited) then interim s fn tag 3 (listPosition s l) else s

def execInterimQueued (fn : Nat) (tag : U16) (s : State) : Host.Outcome State Fault Refusal := .next (interimQueued s fn tag)

end Sys2Proof.Machine
end

