-- ==== Sys2Proof/Machine/Sessions.lean ====
section
/-! DEFINITION. Sessions, tenants' keys, quotas and policies, teardown of a context, and the resets of a function
(chapters 02 and 12). -/

namespace Sys2Proof.Machine

/-! ### Identification and reserved opcodes -/

/-- RES0 and RES1 of the identification query (02 Table 2.7). -/
def identResults (s : State) : Nat × Nat :=
  (3 + 2 ^ 16 * s.fw.runningVersion.toNat + 2 ^ 48 * s.mstate.code + 2 ^ 52 * (s.fw.running % 2),
   Config.serial.toNat % 2 ^ 32 + 2 ^ 32 * (s.numVfs % 65536) + 2 ^ 48 * 3)

/-- The identification query needs no session, is accepted with any EPOCH and completes in every STATE but RESET and DOWN
(02 R89, R90). -/
def identificationQuery (s : State) (fn : Nat) (tag : U16) : State :=
  match findOut s fn tag with
  | none => s
  | some o =>
    if o.sub.isIdent = false then s
    else if s.mstate = .reset ∨ s.mstate = .down then complete s fn tag stNotReady
    else complete s fn tag (stOk1 (identResults s).1 (identResults s).2)

def execIdentificationQuery (fn : Nat) (tag : U16) (s : State) : Host.Outcome State Fault Refusal :=
  .next (identificationQuery s fn tag)

/-- 02 R82, Table 2.6. -/
def execReservedOpcode (fn : Nat) (tag : U16) (s : State) : Host.Outcome State Fault Refusal :=
  .next (withCommand s fn tag (fun u => !knownOpcode u.opcode.toNat) fun s _ => complete s fn tag stBadOpcode)

/-! ### Lockout (02 R102-R104) -/

/-- Seconds, whole, for which a tenant stays locked out. -/
def lockedFor (s : State) (tenant : U32) : Option Nat :=
  match (findTenant s tenant).lockedUntil with
  | some t => if s.now < t then some ((t - s.now) / 10 ^ 9) else none
  | none => none

/-- Count a wrong response; the fifth within 60 s locks the tenant out for 10 minutes (02 R102). -/
def countFailure (s : State) (tenant : U32) : State :=
  setTenant s tenant fun t =>
    let recent := (t.failures.filter fun x => decide (s.now - x ≤ 60 * 10 ^ 9)) ++ [s.now]
    { t with failures := recent, lockedUntil := if 5 ≤ recent.length then some (s.now + 600 * 10 ^ 9) else t.lockedUntil }

def endLockout (t : Tenant) : Tenant := { t with failures := [], lockedUntil := none }

/-- LOCKOUT_END: the lockout is over and the count is cleared (02 R104). -/
def execLockoutEnd (tenant : U32) (s : State) : Host.Outcome State Fault Refusal :=
  .next (match (findTenant s tenant).lockedUntil with
    | some t => if t ≤ s.now then setTenant s tenant endLockout else s
    | none => s)

/-! ### Opening (02 R92-R101) -/

/-- A free session slot and a generation that the slot has not had; both are Pyvos's choice (log entry 5). ID 0 names no
session. -/
def newSessionId (s : State) : U32 × State :=
  let p := choose s
  let q := choose p.2
  let busy := s.sessions.map fun x => x.id.toNat % 4096
  let slot := if busy.contains (p.1 % 4096) then ((List.range 4096).find? fun k => !busy.contains k).getD 0 else p.1 % 4096
  let had := (s.generations.filter fun g => g.1 == slot).map fun g => g.2
  let bad := fun (g : Nat) => had.contains g || (slot == 0 && g == 0)
  let gen := if bad (q.1 % 2 ^ 20) then ((List.range (had.length + 2)).find? fun g => !bad g).getD 0 else q.1 % 2 ^ 20
  (BitVec.ofNat 32 (slot + 4096 * gen), { q.2 with generations := q.2.generations ++ [(slot, gen)] })

/-- OPEN_SESSION (02 R95-R97, R103; 12 R606, R609): a session in PENDING with a nonce, whatever the policy or the key. -/
def openSession (s : State) (fn : Nat) (tag : U16) (o : Outstanding) : State :=
  let tenant : U32 := BitVec.ofNat 32 (P0 o)
  if tenant = 0 then complete s fn tag (stBadParam 0x10)
  else if P1 o % 32 ≠ 0 then complete s fn tag (stBadParam 0x18)
  else
    match lockedFor s tenant with
    | some n => complete s fn tag (stLockedOut n)
    | none =>
      match quotaBreach s tenant [(0x01, quotaUse s tenant 0x01 none + 1)] with
      | some code => refuseQuota s tenant fn tag code
      | none =>
        if 4096 ≤ s.sessions.length ∨ 16 ≤ (s.sessions.filter fun x => x.fn == fn && !x.isOpen).length then
          complete s fn tag stSessionLimit
        else
          let i := newSessionId s
          let n := drawBytes 32 i.2
          match hostWrite n.2 (P1 o) n.1 with
          | none => hostBufferError n.2 fn tag
          | some s1 =>
            let x : Session := { id := i.1, fn := fn, tenant := tenant, isOpen := false, nonce := n.1, openedAt := s.now,
                                 idleTimeout := 0, lastActive := s.now }
            complete { s1 with sessions := s1.sessions ++ [x] } fn tag (stOk0 i.1.toNat)

def execOpenSession (fn : Nat) (tag : U16) (s : State) : Host.Outcome State Fault Refusal :=
  .next (withCommand s fn tag (isOp 0x01) fun s o => openSession s fn tag o)

def dropSession (s : State) (id : U32) : State := { s with sessions := s.sessions.filter fun x => x.id != id }

/-- The nonce has expired: 10 s after the completion of OPEN_SESSION (02 R99, R101). -/
def nonceExpired (s : State) (x : Session) : Bool := !x.isOpen && decide (x.openedAt + 10 * 10 ^ 9 ≤ s.now)

def execNonceExpiry (sess : U32) (s : State) : Host.Outcome State Fault Refusal :=
  .next (match findSession s sess with
    | some x => if nonceExpired s x then dropSession s sess else s
    | none => s)

/-- The 38 bytes under the HMAC (02 R98). -/
def authMessage (x : Session) : List Byte := x.nonce ++ leBytes 4 x.tenant.toNat ++ leBytes 2 x.fn

/-- The response in P0-P3. -/
def authResponseBytes (o : Outstanding) : List Byte := leBytes 8 (P0 o) ++ leBytes 8 (P1 o) ++ leBytes 8 (P2 o) ++ leBytes 8 (P3 o)

/-- The response is right: the tenant has a key, its policy allows the function, and the values agree (02 R96, R98, R99). -/
def authOk (s : State) (x : Session) (o : Outstanding) : Bool :=
  let t := findTenant s x.tenant
  match t.key with
  | none => false
  | some k => t.functions.getLsbD x.fn && hmacSha256 (beBytes 32 k.toNat) (authMessage x) == authResponseBytes o

/-- A new context, parked, with its generator state and Rim state (05 R272, 08 R723, 12 R603). -/
def newContext (s : State) (x : Session) : State :=
  let k := draw s
  let c : Context := { sess := x.id, tenant := x.tenant, fn := x.fn, slot := none, residentAt := s.now, activeAt := s.now,
                       plaitKey := BitVec.ofNat 128 k.1, bases := (List.range 32).map defaultBase }
  { k.2 with contexts := k.2.contexts ++ [c] }

/-- AUTH_RESPONSE (02 R98-R103). -/
def authResponse (s : State) (fn : Nat) (tag : U16) (o : Outstanding) : State :=
  match findSession s o.sub.session with
  | none => complete s fn tag stNoSession
  | some x =>
    if x.isOpen then complete s fn tag stNoSession
    else
      match lockedFor s x.tenant with
      | some n => complete s fn tag (stLockedOut n)
      | none =>
        if nonceExpired s x then complete (dropSession s x.id) fn tag stNoSession
        else if authOk s x o then
          let t := findTenant s x.tenant
          let opened := fun (y : Session) => { y with isOpen := true, nonce := [], idleTimeout := t.idleTimeout, lastActive := s.now }
          let s1 := newContext { s with sessions := mapIf (fun y => y.id == x.id) opened s.sessions } x
          complete s1 fn tag (stOk1 t.idleTimeout t.ceiling.toNat)
        else complete (countFailure (dropSession s x.id) x.tenant) fn tag stAuth

def execAuthResponse (fn : Nat) (tag : U16) (s : State) : Host.Outcome State Fault Refusal :=
  .next (withCommand s fn tag (isOp 0x02) fun s o => authResponse s fn tag o)

/-! ### Closing and teardown (02 R106, 12 R626) -/

/-- End every list of a session with SESSION_CLOSED (12 R626 step 1). -/
def closeLists (s : State) (sess : U32) : State :=
  ((s.lists.filter fun l => l.sess == sess && l.ended.isNone).map fun l => l.uid).foldl
    (fun st u => endList st u (abortEnd st.now 2 0 none)) s

/-- A command of the session is still running: an FB_COLL to its completion or abort (03 R179). -/
def stillRunning (s : State) (sess : U32) : Bool := s.progress.any fun p => p.sess == sess

/-- Commands of the session still in progress are dropped where the spec bounds the close (02 R74, R75). -/
def dropProgress (s : State) (sess : U32) : State :=
  { s with progress := s.progress.filter fun p => p.sess != sess,
           engines := s.engines.map fun e => { e with running := e.running.filter (fun r => r.sess != sess),
                                                      suspended := e.suspended.filter fun p => !(p.2.any fun r => r.sess == sess) } }

/-- The final completions of a session's ended lists (03 R181, R183). -/
def finishLists (s : State) (sess : U32) : State :=
  (s.lists.filter fun l => l.sess == sess).foldl (fun st l => listEnd st l.fn l.tag) s

/-- Every other outstanding command of the session is aborted with SESSION_CLOSED (02 R106). -/
def abortCommands (s : State) (sess : U32) (except : Option U16) : State :=
  (s.boxes.flatMap fun b => (b.outstanding.filter fun o => o.sub.session == sess && some o.sub.tag != except).map fun o => (b.fn, o.sub.tag)).foldl
    (fun st p => complete st p.1 p.2 stSessionClosed) s

/-- Steps 2 to 9 of 12 R626: the pending step is skipped, unsettled ones are final, groups and streams, log entries and
contributions, tier keys, objects, translations and state go; memory is zeroed before it is used again (R627). -/
def teardown (s : State) (sess : U32) : State :=
  match findCtx s sess with
  | none => s
  | some c =>
    let s1 := if c.rim.pending = 0 then s else skipStep s sess c.rim.pending
    let s2 := c.allocs.foldl (fun st a => release st sess a) s1
    let zero := if c.storeBytes = 0 then [] else [(Backing.striped, c.storeBytes)]
    { s2 with
      contexts := s2.contexts.filter fun x => x.sess != sess
      waitQueue := s2.waitQueue.filter fun w => w.1 != sess
      heldLookups := s2.heldLookups.filter fun h => h.sess != sess
      hbm := { s2.hbm with zeroing := s2.hbm.zeroing ++ zero }
      tier := { s2.tier with log := s2.tier.log.filter (fun e => e.sess != sess), staging := s2.tier.staging.filter fun e => e.sess != sess } }

/-- A session goes to CLOSED: what is left of its commands and lists completes, its context is torn down. -/
def closeNow (s : State) (sess : U32) (except : Option U16) : State :=
  dropSession (teardown (abortCommands (finishLists s sess) sess except) sess) sess

/-- Close a session without waiting for what still runs. -/
def forceClose (s : State) (sess : U32) : State := closeNow (dropProgress (closeLists s sess) sess) sess none

/-- CLOSE_SESSION (02 R106): it waits for a running FB_COLL, and completes last. -/
def closeSession (s : State) (fn : Nat) (tag : U16) (o : Outstanding) : State :=
  let s1 := closeLists s o.sub.session
  if stillRunning s1 o.sub.session then markHeld s1 fn tag
  else complete (closeNow s1 o.sub.session (some tag)) fn tag stOk

/-- CLOSE_SESSION waits for no earlier command of the session: it aborts them. -/
def execCloseSession (fn : Nat) (tag : U16) (s : State) : Host.Outcome State Fault Refusal :=
  .next (match findOut s fn tag with
    | some o => if isOp 0x03 o.sub && serving s then closeSession s fn tag o else s
    | none => s)

/-- Seconds until expiry are the whole idle timeout, since a submission ends the idle period (02 R105). -/
def execKeepalive (fn : Nat) (tag : U16) (s : State) : Host.Outcome State Fault Refusal :=
  .next (withCommand s fn tag (isOp 0x04) fun s o =>
    complete s fn tag (stOk1 (nowUs s) (match findSession s o.sub.session with | some x => x.idleTimeout | none => 0)))

/-- The session is idle: no command outstanding, no list running or held (02 R105). -/
def sessionIdle (s : State) (x : Session) : Bool :=
  x.isOpen && !(s.boxes.any fun b => b.outstanding.any fun o => o.sub.session == x.id) && !s.lists.any fun l => l.sess == x.id

def execSessionIdleExpiry (sess : U32) (s : State) : Host.Outcome State Fault Refusal :=
  .next (match findSession s sess with
    | some x =>
      if sessionIdle s x ∧ x.lastActive + x.idleTimeout * 10 ^ 9 ≤ s.now then notify (forceClose s sess) x.fn 1 sess.toNat else s
    | none => s)

/-! ### The operator's settings -/

/-- The 40 bytes of P1-P5. -/
def wrappedKey (o : Outstanding) : List Byte :=
  leBytes 8 (P1 o) ++ leBytes 8 (P2 o) ++ leBytes 8 (P3 o) ++ leBytes 8 (P4 o) ++ leBytes 8 (P5 o)

/-- SET_TENANT_KEY (02 R104, R107, R108). -/
def setTenantKey (s : State) (fn : Nat) (tag : U16) (o : Outstanding) : State :=
  let tenant : U32 := BitVec.ofNat 32 (P0 o)
  if tenant = 0 then complete s fn tag (stBadParam 0x10)
  else if P0 o / 2 ^ 32 % 2 = 1 then
    let s1 := setTenant s tenant fun t => endLockout { t with key := none }
    let mine := s1.sessions.filter fun x => x.tenant == tenant
    complete (mine.foldl (fun st x => notify (forceClose st x.id) x.fn 2 x.id.toNat) s1) fn tag stOk
  else
    match s.mgmt.kek.bind fun k => keyUnwrap k (wrappedKey o) with
    | none => complete s fn tag stAuth
    | some key => complete (setTenant s tenant fun t => endLockout { t with key := some key }) fn tag stOk

def execSetTenantKey (fn : Nat) (tag : U16) (s : State) : Host.Outcome State Fault Refusal :=
  .next (withCommand s fn tag (isOp 0x80) fun s o => setTenantKey s fn tag o)

/-- Two commands of one opcode name the same target (02 R87): the tenant, and for SET_QUOTA the resource. -/
def sameTarget (a b : Submission) : Bool :=
  a.opcode == b.opcode && a.p0.setWidth 32 == b.p0.setWidth 32 && (a.opcode != 0x81 || a.p1.setWidth 8 == b.p1.setWidth 8)

/-- Run a setting in the order of reading: one that a later one has overtaken completes as OVERTAKEN, and those before
it that have not taken effect are overtaken by it (02 R87). -/
def inReadingOrder (s : State) (fn : Nat) (tag : U16) (o : Outstanding) (f : State → State) : State :=
  let all : List Outstanding := match findBox s fn with | some b => b.outstanding | none => []
  let same := all.filter fun x => sameTarget x.sub o.sub && x.sub.tag != tag
  if same.any fun x => decide (o.order < x.order) then complete s fn tag stOvertaken
  else f (same.foldl (fun st x => complete st fn x.sub.tag stOvertaken) s)

/-- Tokens of a bucket after its quotas change: full when it begins to shape, never above its depth (12 R618). -/
def resizeBucket (rate burstKib : Nat) (tokens : Option Nat) : Option Nat :=
  if rate = unlimited then none else some (Nat.min (tokens.getD (burstKib * kib)) (burstKib * kib))

def resizeBuckets (s : State) (tenant : U32) : State :=
  let q := quotaLimit s tenant
  setTenant s tenant fun t => { t with hbmTokens := resizeBucket (q 0x10) (q 0x11) t.hbmTokens,
                                       fabricTokens := resizeBucket (q 0x12) (q 0x13) t.fabricTokens }

/-- SET_QUOTA (12 R605; 02 R88): nothing already admitted is revoked. -/
def setQuota (s : State) (fn : Nat) (tag : U16) (o : Outstanding) : State :=
  let tenant : U32 := BitVec.ofNat 32 (P0 o)
  let code := P1 o % 256
  if tenant = 0 then complete s fn tag (stBadParam 0x10)
  else if (quotaDefault code).isNone then complete s fn tag (stBadParam 0x18)
  else inReadingOrder s fn tag o fun s =>
    let s1 := resizeBuckets (setTenant s tenant fun t =>
      { t with quotas := t.quotas.filter (fun q => q.1 != code) ++ [(code, o.sub.p2)] }) tenant
    complete s1 fn tag (stOk0 (quotaUse s1 tenant code none))

def execSetQuota (fn : Nat) (tag : U16) (s : State) : Host.Outcome State Fault Refusal :=
  .next (withCommand s fn tag (isOp 0x81) fun s o => setQuota s fn tag o)

/-- SET_POLICY (02 Table 2.6, R87, R88). -/
def setPolicy (s : State) (fn : Nat) (tag : U16) (o : Outstanding) : State :=
  let tenant : U32 := BitVec.ofNat 32 (P0 o)
  let idle := P1 o / 2 ^ 32
  if tenant = 0 then complete s fn tag (stBadParam 0x10)
  else if idle < 10 ∨ 86400 < idle then complete s fn tag (stBadParam 0x18)
  else inReadingOrder s fn tag o fun s =>
    complete (setTenant s tenant fun t =>
      { t with ceiling := BitVec.ofNat 3 (P1 o), idleTimeout := idle,
               functions := BitVec.ofNat 256 (P2 o + 2 ^ 64 * P3 o + 2 ^ 128 * P4 o + 2 ^ 192 * P5 o) }) fn tag stOk

def execSetPolicy (fn : Nat) (tag : U16) (s : State) : Host.Outcome State Fault Refusal :=
  .next (withCommand s fn tag (isOp 0x82) fun s o => setPolicy s fn tag o)

/-! ### Sticky flags (02 R84, 04 R225) -/

/-- The flags of the engines that a mask selects, and of each engine those of a flag mask. -/
def flagMask (engines flags : Nat) : BitVec 30 :=
  BitVec.ofNat 30 (sumNat ((List.range 6).map fun e => if engines / 2 ^ e % 2 = 1 then flags % 32 * 2 ^ (5 * e) else 0))

def ctxFlags (s : State) (sess : U32) : BitVec 30 := match findCtx s sess with | some c => c.flags | none => 0

def execReadFlags (fn : Nat) (tag : U16) (s : State) : Host.Outcome State Fault Refusal :=
  .next (withCommand s fn tag (isOp 0x51) fun s o =>
    complete s fn tag (stOk0 (ctxFlags s o.sub.session &&& flagMask (P0 o) 31).toNat))

/-- RES0 holds the flags of the selected engines as they stood; the selected flags are cleared (02 R84). -/
def execClearFlags (fn : Nat) (tag : U16) (s : State) : Host.Outcome State Fault Refusal :=
  .next (withCommand s fn tag (isOp 0x52) fun s o =>
    let old := ctxFlags s o.sub.session
    complete (setCtx s o.sub.session fun c => { c with flags := c.flags &&& ~~~(flagMask (P0 o) (P1 o)) }) fn tag
      (stOk0 (old &&& flagMask (P0 o) 31).toNat))

/-! ### Resets of a function (02 R74, R75) -/

/-- Sessions of the function close, held completions go, the registers return to their reset values; the reset is recorded with
its cause (13 R666, Table 13.10). -/
def functionReset (s0 : State) (cause fn : Nat) : State :=
  let s := addLog s0 0x05 0 { arg0 := 4, arg1 := cause }
  let s1 := ((s.sessions.filter fun x => x.fn == fn).map fun x => x.id).foldl forceClose s
  setBox s1 fn fun _ => Mailbox.fresh fn

def execFunctionLevelReset (fn : Nat) (s : State) : Host.Outcome State Fault Refusal := .next (if (findBox s fn).isSome then functionReset s 0 fn else s)

/-- VF Enable cleared or NumVFs lowered: the functions beyond are reset and cease to exist (02 R75). -/
def vfDisable (s : State) (n : Nat) : State :=
  if s.numVfs ≤ n then s
  else
    let gone := (s.boxes.map fun b => b.fn).filter fun f => decide (n < f)
    let s1 := gone.foldl (fun st f => functionReset st 0 f) s
    { s1 with numVfs := n, boxes := s1.boxes.filter fun b => decide (b.fn ≤ n) }

def execVfDisable (numVfs : Nat) (s : State) : Host.Outcome State Fault Refusal := .next (vfDisable s numVfs)

/-- The host enables up to 255 virtual functions (02 R56). -/
def vfEnable (s : State) (n : Nat) : State :=
  let m := Nat.min n 255
  if m ≤ s.numVfs then s
  else { s with numVfs := m, boxes := s.boxes ++ ((List.range (m - s.numVfs)).map fun i => Mailbox.fresh (s.numVfs + 1 + i)) }

def execVfEnable (numVfs : Nat) (s : State) : Host.Outcome State Fault Refusal := .next (vfEnable s numVfs)

end Sys2Proof.Machine
end

