-- ==== Sys2Proof/Machine/Units.lean ====
section
/-! DEFINITION. Resets and retirement of units, and their watchdogs (13 R630-R647, R654). -/

namespace Sys2Proof.Machine

/-! ### Starting a reset (13 R638-R647) -/

/-- A list ends in ABORTED TARGET_RESET with the unit (02 Table 2.5, 03 Table 3.5). -/
def endReset (s : State) (uid offset unit : Nat) : State := endList s uid (CmdErr.toEnd s.now offset (.code faultTargetReset unit 0))

/-- The lists with a command running on one of some instances, each with that command's offset. -/
def listsOn (s : State) (on : EngineInst → Bool) : List (Nat × Nat) :=
  s.lists.filterMap fun l =>
    if l.ended.isSome then none
    else ((s.engines.filter fun e => on e.inst).findSome? fun e => e.running.find? fun r => r.ref.list == l.uid).map
      fun r => (l.uid, cmdOffset l r.ref)

/-- The tier engine of half h answers what it had accepted with TARGET_RESET: commands of the tier, row reads that wait for a
promotion, and lookups of other modules. Flash reads not yet made are lost (13 R644, R646, Table 13.5). -/
def tierProxy (s : State) (h unit : Nat) : State :=
  let served := fun (t : Table) (row : Nat) => servingHalf s 0xB (rowHalf t row).num == h
  let waits := fun (c : Context) (t : Table) =>
    (tierOf t).promoting.any (fun p => served t p.1) && c.tables.any fun x => x.handle == t.handle
  let waiting := s.requests.filter fun r => r.state == .tier && !r.stopped &&
    (match (findCtx s r.sess).bind fun c => findTable c r.table with | some t => served t r.row | none => false)
  let held := s.heldLookups.filter fun q => !q.forStep &&
    (match findCtx s q.sess with | some c => c.tables.any (waits c) | none => false)
  let s1 := (listsOn s fun i => i == .tier).foldl (fun st p => endReset st p.1 p.2 unit) s
  let s2 := waiting.foldl (fun st r => faultCommand st r.ref (.code faultTargetReset unit 0)) s1
  let s3 := held.foldl (fun st q => match findCtx st q.sess with | some c => refusePacket st c.tenant q.pkt faultTargetReset | none => st) s2
  { s3 with
    heldLookups := s3.heldLookups.filter fun q => !held.contains q
    contexts := s3.contexts.map fun c => { c with tables := c.tables.map fun t =>
      { t with tier := t.tier.map fun x => { x with promoting := x.promoting.filter fun p => p.2 || !served t p.1 } } } }

/-- The bytes of a half's Basket are zeroed (13 Table 13.5). -/
def clearBasket (s : State) (h : Half) : State :=
  let b := match h with | .west => Backing.basketWest | .east => .basketEast
  { s with mem := clearCells s.mem (b.space * spaceSize) spaceSize }

/-- A half reset begins: lists with a command running on the half, on the Weave or on its tier engine end, its Basket and the
Weave's accumulators are lost, and its Splints' chunks go to others (13 R639, R640, R646). -/
def halfReset (s : State) (h : Half) (cause : Nat) (command : Option (Nat × U16)) : State :=
  let s1 := fenceUnit s (BitVec.ofNat 16 h.num) 3 cause (150 * 10 ^ 6) command
  let s2 := if h = s1.lead.leader then s1 else { s1 with lead := { s1.lead with followerUp := false } }
  let s3 := (listsOn s2 fun i => i == .weave || i.half == some h).foldl (fun st p => endReset st p.1 p.2 h.num) s2
  let s4 := tierProxy s3 h.num h.num
  let s5 := restartSamples s4 (servingHalves s4 h.num)
  let s6 := (allCores h).foldl loseSplint s5
  clearBasket { s6 with weave := { s6.weave with chains := [], runs := [] } } h

/-- A port that is reset is treated as DOWN until it is brought up again (13 R647). -/
def portReset (s : State) (n : Nat) : State :=
  match findPort s n with
  | none => s
  | some p => linksChanged (portDown s n (p.nextSeq - BitVec.ofNat 12 p.retry.length - 1) .down)

def halfOf (n : Nat) : Half := if n = 0 then .west else .east

/-- A unit is fenced and reset (13 R644-R647); a processor that was held leaves its hold (R656). -/
def startReset (s : State) (u : U16) (cause : Nat) (command : Option (Nat × U16)) : State :=
  let i := unitInst u
  let us := 1000
  match unitClass u with
  | 0x0 => halfReset s (halfOf i) cause command
  | 0x1 => resetProcessor { s with lead := { s.lead with
      heldProcessor := if s.lead.heldProcessor = some (halfOf i) then none else s.lead.heldProcessor } } (halfOf i) cause command
  | 0x3 => loseSplint (fenceUnit s u 1 cause (20 * us) command) { half := halfOf (i / 32), idx := Fin.ofNat 32 (i % 32) }
  | 0x4 => restartSamples (fenceUnit s u 1 cause (50 * us) command) (servingHalves s i)
  | 0x5 => fenceUnit s u 1 cause (20 * us) command
  | 0xB => tierProxy (fenceUnit s u 1 cause (5000 * us) command) i u.toNat
  | 0xC => portReset (fenceUnit s u 1 cause (500000 * us) command) i
  | _ => s

/-! ### RESET_UNIT and its end (13 R641, R642, R644) -/

/-- The classes that RESET_UNIT accepts (13 R642). -/
def resettable (u : U16) : Bool := unitKnown u && [0x0, 0x1, 0x3, 0x4, 0x5, 0xB, 0xC].contains (unitClass u)

/-- The unit is the leader or its half (13 R641). -/
def leads (s : State) (u : U16) : Bool := decide (unitClass u ≤ 1) && s.lead.leader.num == unitInst u

def unitParam (o : Outstanding) : U16 := BitVec.ofNat 16 (P0 o)

/-- RESET_UNIT: the lease passes first from a leader; a unit already being reset is waited for. -/
def resetUnit (s : State) (fn : Nat) (tag : U16) (o : Outstanding) : State :=
  let u := unitParam o
  if resettable u = false then complete s fn tag (stBadParam 0x10)
  else if isRetired s u then complete s fn tag (stHwError u.toNat)
  else if leads s u && !cpWorks s s.lead.leader.other then complete s fn tag (stBadParam 0x10)
  else if unitResetting s u.toNat then markHeld s fn tag
  else
    let s1 := if leads s u then passLease (abandonUpdate s) else s
    startReset (markAccepted s1 fn tag) u 0 (some (fn, tag))

def execResetUnit (fn : Nat) (tag : U16) (s : State) : Host.Outcome State Fault Refusal :=
  .next (withCommand s fn tag (isOp 0x84) fun s o => resetUnit s fn tag o)

/-- SRAM rows waiting for a half are repaired at its reset (09 R464; 13 R639). -/
def repairRows (s : State) (h : Half) : State :=
  let mine := s.hbm.sramRepairs.filter fun p => p.1 == h
  mine.foldl (fun st p => addLog st 0x04 2 { unit := BitVec.ofNat 16 h.num, arg0 := p.2 })
    { s with hbm := { s.hbm with sramRepairs := s.hbm.sramRepairs.filter fun p => p.1 != h } }

/-- The spare of a half is steered to the first column that waits for it, and recorded (07 R381; 13 R639, R666). With at most four
columns disabled the Weave is in service (13 Table 13.3). -/
def steerAtReset (s : State) (h : Half) : State :=
  let s0 := steerSpare s h
  let s1 := { s0 with weave := { s0.weave with outOfService := s0.weave.outOfService && decide (4 < disabledColumns s0) } }
  if s0.weave = s.weave then s1
  else addLog s1 0x04 2 { unit := BitVec.ofNat 16 (columnUnit h 32), arg0 := (columnsOf s1 h).spare }

/-- The engines of a half start from idle and ramp (14, "When power and heat events meet"). -/
def idleEngines (s : State) (on : EngineInst → Bool) : State :=
  { s with engines := mapIf (fun e => on e.inst) (fun e => { e with idle := true, rampStep := 0 }) s.engines }

/-- A unit is unfenced. -/
def unitBack (s : State) (u : U16) : State :=
  match unitClass u with
  | 0x0 =>
    let h := halfOf (unitInst u)
    let s1 := idleEngines (repairRows (steerAtReset s h) h) fun i => i == .weave || i.half == some h
    if isRetired s1 (cpUnit h) || unitResetting s1 (cpUnit h).toNat || s1.lead.heldProcessor == some h then s1 else processorBack s1 h
  | 0x1 => processorBack s (halfOf (unitInst u))
  | _ => s

/-- A unit is found dead: a compute die takes the module down, another unit is retired (13 R634, Table 13.3). -/
def unitDead (s : State) (u : U16) : State :=
  if unitClass u = 0 then moduleDown s u.toNat
  else if isRetired s u then s
  else
    let s1 := stackEvents s (retireUnit s u false)
    if unitClass u = 0xC then linksChanged s1 else s1

/-- Faults that waited for resets act, unless they wait for another one. -/
def actDeferred (s : State) : State :=
  s.faults.deferred.foldl (fun st d => stackEvents st (lastingOrLater st d.1 d.2.1 d.2.2)) { s with faults := { s.faults with deferred := [] } }

/-- The end of a unit's reset: unfenced, or dead; RESET_UNIT completes with the new incarnation, or with HW_ERROR (13 R642, R644). -/
def unitResetEnd (s : State) (u : U16) (returned : Bool) : State :=
  match s.faults.resetting.find? fun r => r.unit == u with
  | none => s
  | some r =>
    let s1 := { s with faults := { s.faults with resetting := s.faults.resetting.filter fun x => x.unit != u } }
    let s2 := actDeferred (if returned = false then unitDead s1 u else if isRetired s1 u then s1 else unitBack s1 u)
    match r.command with
    | none => s2
    | some c => complete s2 c.1 c.2 (if returned = false || isRetired s2 u then stHwError u.toNat else stOk0 (incarnationOf s2 u).toNat)

def execUnitResetEnd (unit : U16) (returned : Bool) (s : State) : Host.Outcome State Fault Refusal := .next (unitResetEnd s unit returned)

/-- PROCESSOR_REJOIN: a processor has booted and loaded the mirrored state: after its reset, or after the restart that ends an
update in a fallback (13 R654, R662). -/
def processorRejoin (s : State) (h : Half) : State :=
  if unitResetting s (cpUnit h).toNat then unitResetEnd s (cpUnit h) true
  else if h ≠ s.lead.leader ∧ s.lead.followerUp = false ∧ s.lead.heldProcessor ≠ some h ∧ isRetired s (cpUnit h) = false ∧
      unitResetting s h.num = false ∧ s.fw.update = none then processorBack s h
  else s

def execProcessorRejoin (h : Half) (s : State) : Host.Outcome State Fault Refusal := .next (processorRejoin s h)

/-! ### Watchdogs (13 R632 rows 8 and 18, Table 13.5) -/

/-- A watchdog expires: the event is counted, and a unit that is not retired by it is reset; a leader's lease passes first. -/
def unitWatchdog (s : State) (u : U16) : State :=
  if unitKnown u = false ∨ isRetired s u = true ∨ unitResetting s u.toNat = true then s
  else
    let reset := fun (st : State) => if isRetired st u then st else startReset st u 1 none
    match unitClass u with
    | 0x1 =>
      let s1 := bucketEvent s 18 u 0 0
      if isRetired s1 u then s1
      else startReset (if leads s1 u && cpWorks s1 s1.lead.leader.other then passLease (abandonUpdate s1) else s1) u 1 none
    | 0x3 => reset (bucketEvent s 8 u 0 0)
    | 0x4 => reset (bucketEvent s 8 u 0 0)
    | 0x5 => reset (bucketEvent s 8 u 0 0)
    | 0xB => reset (bucketEvent s 8 u 0 0)
    | 0xC => reset s
    | _ => s

def execUnitWatchdog (unit : U16) (s : State) : Host.Outcome State Fault Refusal := .next (unitWatchdog s unit)

/-- BRIDGE_LOSS: more lanes are lost than repair lanes can replace (01 R23). -/
def execBridgeLoss (channel : Fin 4) (s : State) : Host.Outcome State Fault Refusal := .next (moduleDown s (0xE000 + channel.val))

/-! ### RETIRE_UNIT (13 R636) -/

/-- A fifth column would be disabled. -/
def fifthColumn (s : State) (i : Nat) : Bool :=
  let k := columnServed s (halfOf (i / 64)) (i % 64)
  let gone := lostColumns s
  decide (k < 32) && !gone.contains k && decide (4 ≤ gone.length)

/-- The unit is the last of its kind that works. -/
def lastOfKind (s : State) (u : U16) : Bool :=
  match unitClass u with
  | 0x1 => !cpWorks s (halfOf (unitInst u)).other
  | 0x2 => false
  | cls => decide (workingOf s cls ≤ 1)

def retireUnitCmd (s : State) (fn : Nat) (tag : U16) (o : Outstanding) : State :=
  let u := unitParam o
  if u = 0xFFFF then complete s fn tag stPolicy
  else if unitKnown u = false then complete s fn tag (stBadParam 0x10)
  else if unitClass u = 0 || isRetired s u || lastOfKind s u || (unitClass u == 2 && fifthColumn s (unitInst u)) then complete s fn tag stPolicy
  else
    let s1 := stackEvents s (retireUnit s u true)
    let s2 := if unitClass u = 0xC ∨ unitClass u = 0xD then linksChanged s1 else s1
    complete s2 fn tag (stOk0 (perMille s2 (unitClass u)))

def execRetireUnit (fn : Nat) (tag : U16) (s : State) : Host.Outcome State Fault Refusal :=
  .next (withCommand s fn tag (isOp 0x85) fun s o => retireUnitCmd s fn tag o)

end Sys2Proof.Machine
end

