-- ==== Sys2Proof/Machine/Upsett.lean ====
section
/-! DEFINITION. The upsett sequence, the module reset and the loss of power (14 R669-R678; 15 R697-R703; 13 Table 13.5). The
steps take no time here (log entry 26). -/

namespace Sys2Proof.Machine

/-! ### Supplies -/

/-- The main input lies within 40-60 V (15 R699). -/
def inputOk (s : State) : Bool := decide (40000 ≤ s.power.inputMv ∧ s.power.inputMv ≤ 60000)

/-- ARG1 of a POWER record: main input in mV and the last interval's average in W (14 Table 14.8). -/
def powerArg (s : State) : Nat := s.power.inputMv % 2 ^ 32 + s.power.powerW * 2 ^ 32

/-- A POWER record (14 R694). -/
def powerLog (s : State) (event severity : Nat) : State := addLog s 0x10 severity { arg0 := event, arg1 := powerArg s }

/-- The effective cap: CAP_W, lowered by the thermal throttle, never above 1,500 W (14 R681). -/
def effectiveCap (s : State) : Nat := Nat.min 1500 (Nat.min s.power.config.capW s.power.thermalCap)

/-- ALERT# is asserted while a condition of 14 R692 holds. -/
def updateAlert (s : State) : State :=
  let p := s.power
  let cond := p.thermalThrottle || decide (effectiveCap s < Nat.min 1500 p.config.capW) || p.thermalBrake ||
    (s.hbm.stackList.any fun x => decide (2 ≤ x.thermal)) || !inputOk s || decide (65 < p.coolantOut)
  { s with power := { p with alert := p.auxPresent && cond } }

/-! ### What a module reset loses (13 R633, R638, R643; 02 R109; 10 R532) -/

/-- A tenant as it stands after a module reset: its key, its quotas and policy, and its lockout. -/
def Tenant.kept (t : Tenant) : Tenant :=
  { id := t.id, key := t.key, failures := t.failures, lockedUntil := t.lockedUntil, ceiling := t.ceiling, idleTimeout := t.idleTimeout,
    functions := t.functions, quotas := t.quotas, hbmTokens := t.hbmTokens, fabricTokens := t.fabricTokens }

/-- Engines stop and everything that Table 13.5 does not preserve is lost: mailboxes, sessions, contexts, lists and memory. The
retired-unit map, the buckets, the error log, firmware slots, keys, maps and the operator's settings stay, as do the columns
disabled and the spares steered. -/
def wipe (s : State) : State :=
  { State.reset with
    pending := s.pending, now := s.now, mstate := s.mstate, numVfs := s.numVfs,
    boxes := s.boxes.map fun b => Mailbox.fresh b.fn,
    generations := s.generations, tenants := s.tenants.map Tenant.kept,
    weave := { west := s.weave.west, east := s.weave.east, outOfService := s.weave.outOfService, pendingDisable := s.weave.pendingDisable },
    hbm := { sramRepairs := s.hbm.sramRepairs },
    tier := { blocks := s.tier.blocks, wearBytes := s.tier.wearBytes, wearAt := s.tier.wearAt, lifeBytes := s.tier.lifeBytes,
              throttle := s.tier.throttle, powerLoss := s.tier.powerLoss, cleanMount := s.tier.cleanMount },
    fabric := { dims := s.fabric.dims, coords := s.fabric.coords, nextDims := s.fabric.nextDims, nextCoords := s.fabric.nextCoords,
                mapWritten := s.fabric.mapWritten, locked := s.fabric.locked, everLocked := s.fabric.everLocked },
    faults := s.faults, lead := s.lead, fw := { s.fw with update := none }, power := s.power, tel := s.tel, mgmt := s.mgmt,
    hostMem := s.hostMem, hostRefuse := s.hostRefuse, draws := s.draws, choices := s.choices, nextUid := s.nextUid }

/-- Retired units stay out of the new start; marked pseudo-channels are retired now, resets under way end and what waited for
them acts (13 Table 13.2 row 1, R633). -/
def settleFaults (s : State) : State :=
  let s1 := actDeferred { s with faults := { s.faults with resetting := [] } }
  let marked := (s1.hbm.pcs.filter fun p => p.marked && !p.retired).map fun p => p.num
  marked.foldl (fun st n => stackEvents st (retireUnit st (BitVec.ofNat 16 (0x7000 + n)) false)) s1

/-- West leads with epoch 1, or East when CP-W is retired; no processor is held (13 R648, R656). -/
def freshLead (s : State) : Leadership :=
  let westOk := !isRetired s (cpUnit .west)
  let eastOk := !isRetired s (cpUnit .east)
  { leader := if westOk || !eastOk then .west else .east, followerUp := westOk && eastOk }

/-- Step 3 begins anew: every incarnation of a unit is 0, the module's rises by 1 (13 R643), and the lease starts. -/
def restartModule (s : State) : State :=
  let s1 := wipe (settleFaults s)
  { s1 with faults := { s1.faults with incarnations := [], moduleIncarnation := s1.faults.moduleIncarnation + 1 }, lead := freshLead s1 }

/-- The main rails go, with the power-loss sequence of 10 R533 on hold-up energy: what the tier holds in memory is lost and its
journal written. -/
def railsOff (s : State) (m : ModState) : State :=
  let s1 := wipe s
  let p := { s1.power with
    railsOn := false, pcieUp := false, level := 0, allowance := 0, rampHeld := false, rampRefused := false, upsettPaused := false,
    powerW := 0, upsettStep := Nat.min s1.power.upsettStep 1 }
  updateAlert { s1 with mstate := m, power := p, tier := { s1.tier with powerLoss := true, cleanMount := false } }

/-! ### The steps (14 Table 14.1) -/

/-- The defaults of 14 Table 14.3. -/
def defaultConfig : OpConfig := { tickNs := 1000, cacheSlices := 8, logGib := 16, capW := 1500, brakeFloorW := 750, thermalStepW := 25 }

/-- A map whose dimensions are 1-16 with each coordinate below its dimension (11 R552). -/
def mapValid (dims coords : List Nat) : Bool :=
  dims.length == 3 && coords.length == 3 && dims.all (fun d => decide (1 ≤ d) && decide (d ≤ 16)) && (coords.zip dims).all fun p => decide (p.1 < p.2)

def mapOk (s : State) : Bool := s.fabric.mapWritten && mapValid s.fabric.nextDims s.fabric.nextCoords

/-- The configuration and the installation map take effect (14 R678; 11 R551, R552). -/
def takeConfig (s : State) : State :=
  { s with power := { s.power with config := s.power.stored },
           fabric := { s.fabric with dims := if mapOk s then s.fabric.nextDims else [1, 1, 1],
                                     coords := if mapOk s then s.fabric.nextCoords else [0, 0, 0] } }

/-- Step 1: the Handle boots and reads the configuration, or its defaults (14 R677). False when no image boots. -/
def upsett1 (o : UpsettOutcome) (s : State) : State × Bool :=
  if o.handleOk = false then (s, false)
  else
    let s1 := if o.configOk then s else powerLog { s with power := { s.power with stored := defaultConfig } } 8 0
    (takeConfig s1, true)

/-- Step 2: the rails are enabled when the input is in range and the hold-up bank charged; until then it waits (15 R699). -/
def upsett2 (s : State) : State × Bool :=
  if inputOk s && s.power.charged then ({ s with power := { s.power with railsOn := true } }, true) else (s, false)

/-- Step 3: reset is released; STATE is UPSETT, or DOWN when the PLLs of a die do not lock (14 R671). -/
def upsett3 (o : UpsettOutcome) (s : State) : State × Bool :=
  let s1 := takeConfig (restartModule s)
  let s2 := { s1 with mstate := .upsett, power := { s1.power with pcieUp := true, energyMj := 0, energyUj := 0, throttledNs := 0 } }
  if o.locksOk then (s2, true) else (setMState s2 .down, false)

def slotImage (f : Firmware) (slot : Nat) : Image := if slot = 0 then f.slotA else f.slotB

/-- A slot boots: its image verifies and reaches the firmware hand-off (13 R663). -/
def slotBoots (s : State) (o : UpsettOutcome) (slot : Nat) : Bool :=
  (slotImage s.fw slot).verified && (if slot = 0 then o.handOffA else o.handOffB)

def runSlot (s : State) (slot : Nat) : State :=
  { s with fw := { s.fw with running := slot, runningVersion := (slotImage s.fw slot).version } }

/-- Step 4: the boot slot, else the other with a record of the boot fallback; with neither, RECOVERY (13 R663). -/
def upsett4 (o : UpsettOutcome) (s : State) : State × Bool :=
  let b := s.fw.bootSlot
  if slotBoots s o b then (runSlot s b, true)
  else if slotBoots s o (1 - b) then
    let s1 := runSlot s (1 - b)
    (addLog s1 0x07 2 { arg0 := s1.fw.runningVersion.toNat, arg1 := 3 }, true)
  else (setMState s .recovery, false)

/-- Units found dead in a step are retired (13 R634). -/
def retireFound (o : UpsettOutcome) (classes : List Nat) (s : State) : State :=
  (o.failedUnits.filter fun u => unitKnown u && classes.contains (unitClass u)).foldl
    (fun st u => if isRetired st u then st else stackEvents st (retireUnit st u false)) s

/-- Step 5: SRAM rows are repaired, spares steered, columns powered and Splints woken; a compute die that cannot be used takes the
module down (14 R671, R672; 13 R639). -/
def upsett5 (o : UpsettOutcome) (s : State) : State × Bool :=
  let s1 := columnDisable (retireFound o [0x1, 0x2, 0x3, 0x4, 0x5, 0xB, 0xE] s)
  let s2 := [Half.west, .east].foldl (fun st h => repairRows (steerAtReset st h) h) s1
  if o.failedUnits.any fun u => unitKnown u && unitClass u == 0 then (moduleDown s2 0xFFFF, false) else (s2, true)

/-- The pseudo-channels and stackList of a full module, with those retired. -/
def freshPcs (s : State) : List PseudoChannel :=
  (List.range 512).map fun n => { num := n, retired := isRetired s (BitVec.ofNat 16 (0x7000 + n)), lastTrain := s.now }

def freshStacks (s : State) (spares : List Nat) : List Stack :=
  (List.range 8).map fun n => { num := n, spares := nthD 0 spares n, retired := isRetired s (BitVec.ofNat 16 (0x6000 + n)) }

/-- Step 6: the stackList train, and Pyvos draws the key of the interleave and the Samplers' keys (09 R451; 05 R249). -/
def upsett6 (o : UpsettOutcome) (s : State) : State × Bool :=
  let s1 := { s with hbm := { s.hbm with pcs := freshPcs s, stackList := freshStacks s o.spareLanes } }
  let s2 := drawKey (retireFound o [0x6, 0x7, 0x8] s1)
  let a := draw s2
  let b := draw a.2
  ({ b.2 with dedupKeys := [a.1, b.1] }, true)

/-- A flash channel as the mount finds it (10 R542, R543, R548). -/
def mountChannel (s : State) (o : UpsettOutcome) (ch mean spread : Nat) : Channel :=
  let dead := ((List.range 12).filter fun d => isRetired s (BitVec.ofNat 16 (0xA000 + 16 * ch + d))).length
  let down := isRetired s (BitVec.ofNat 16 (0x9000 + ch)) || o.failedUnits.contains (BitVec.ofNat 16 (0x9000 + ch))
  { num := ch, diesLive := 12 - dead, state := if down then 2 else if 3 ≤ dead then 1 else 0, eraseMean := mean % 65536, eraseSpread := spread % 65536 }

/-- Step 7: the tier mounts its channels; erase counts come from its metadata (10 R534; log entry 5). -/
def upsett7 (o : UpsettOutcome) (s : State) : State × Bool :=
  let s1 := retireFound o [0xA] s
  let r := (List.range 32).foldl (fun (acc : List Channel × State) ch =>
    let a := choose acc.2
    let b := choose a.2
    (acc.1 ++ [mountChannel b.2 o ch a.1 b.1], b.2)) ([], s1)
  ({ r.2 with tier := { r.2.tier with channels := r.1, powerLoss := false, cleanMount := true } }, true)

/-- Step 8: a port comes up, waits in WIRING, or stays DOWN; without the reference none trains (11 R552, R553; 14 R680). -/
def bringUp (s : State) (o : UpsettOutcome) (n : Nat) : Port :=
  let lanes := nthD 15 o.lanes n
  let p : Port := { num := n, lanes := lanes }
  if isRetired s (BitVec.ofNat 16 (0xC000 + n)) then { p with state := .retired }
  else if s.power.referenceOk = false ∨ lanes = 0 then p
  else if mapOk s = false then { p with state := .wiring, lastTry := s.now }
  else if o.portsUp.getLsbD n then
    { p with state := .up, peer := expectedPeer s n, peerPort := facingPort n, credits := fullCredits }
  else p

def upsett8 (o : UpsettOutcome) (s : State) : State × Bool :=
  let s1 := retireFound o [0xC, 0xD] s
  let s2 := { s1 with fabric := { s1.fabric with ports := (List.range 12).map (bringUp s1 o) } }
  (if mapOk s2 then s2 else addLog s2 0x0E 0 { arg0 := 1 }, true)

/-- Step 9: the first time lock sets the counter once, never back; without one, time runs free (11 R598, R600). -/
def upsett9 (o : UpsettOutcome) (s : State) : State × Bool :=
  let s1 := linksChanged { s with fabric := { s.fabric with locked := false } }
  match o.timeLock with
  | some t =>
    if s1.fabric.grandmaster = true ∨ liveMask s1 = 0 then (s1, true)
    else ({ s1 with now := Nat.max s1.now t, fabric := { s1.fabric with locked := true, everLocked := true } }, true)
  | none => (s1, true)

/-- Step 10: READY (14 R671). -/
def upsett10 (s : State) : State × Bool := (setMState s .ready, true)

def upsettStep (n : Nat) (o : UpsettOutcome) (s : State) : State × Bool :=
  match n with
  | 1 => upsett1 o s
  | 2 => upsett2 s
  | 3 => upsett3 o s
  | 4 => upsett4 o s
  | 5 => upsett5 o s
  | 6 => upsett6 o s
  | 7 => upsett7 o s
  | 8 => upsett8 o s
  | 9 => upsett9 o s
  | _ => upsett10 s

/-- Run steps in order while each ends; HOLD_OFF# pauses at a boundary (14 R669, R674). -/
def upsettSteps (o : UpsettOutcome) : List Nat → State → State
  | [], s => s
  | n :: t, s =>
    if s.power.holdOff then { s with power := { s.power with upsettPaused := true } }
    else
      match upsettStep n o s with
      | (s1, true) => upsettSteps o t { s1 with power := { s1.power with upsettStep := n } }
      | (s1, false) => s1

/-- Run upsett from a step to the end. -/
def upsettFrom (first : Nat) (o : UpsettOutcome) (s : State) : State :=
  updateAlert (upsettSteps o ((List.range 10).filterMap fun i => if first ≤ i + 1 then some (i + 1) else none)
    { s with power := { s.power with outcome := some o, upsettPaused := false, upsettStep := Nat.min s.power.upsettStep (first - 1) } })

/-! ### What starts and stops the module (14 R669-R671, R688; 15 R697-R703) -/

/-- Auxiliary power is good: a clean start, from the Handle's boot (14 R669). -/
def auxPowerGood (s : State) (o : UpsettOutcome) : State :=
  if s.power.auxPresent then s
  else
    let v := choose s
    upsettFrom 1 o { v.2 with power := { v.2.power with auxPresent := true, auxMv := 3135 + v.1 % 331, auxGoodAt := s.now, thermtrip := false, upsettStep := 0 },
                              fabric := { v.2.fabric with locked := false, everLocked := false }, mgmt := { v.2.mgmt with smbus := false, dynamicAddress := none } }

def execAuxPowerGood (outcome : UpsettOutcome) (s : State) : Host.Outcome State Fault Refusal := .next (auxPowerGood s outcome)

/-- The main input enters 40-60 V and the hold-up bank is charged: step 2 goes on, at the start or after a loss of the input (14
R670; 15 R698, R699). -/
def mainInputInRange (s : State) (mv : Nat) (o : UpsettOutcome) : State :=
  let s1 := { s with power := { s.power with inputMv := mv, charged := true, presentOpen := false } }
  if mv < 40000 ∨ 60000 < mv then s
  else if s1.power.auxPresent && decide (1 ≤ s1.power.upsettStep) && !s1.power.railsOn && !s1.power.resetLow && s1.mstate != .down then upsettFrom 2 o s1
  else updateAlert s1

def execMainInputInRange (mv : Nat) (outcome : UpsettOutcome) (s : State) : Host.Outcome State Fault Refusal := .next (mainInputInRange s mv outcome)

/-- A reset of the module or of a function is recorded (13 R666, Table 13.10). -/
def resetLog (s : State) (kind cause : Nat) : State := addLog s 0x05 0 { arg0 := kind, arg1 := cause }

/-- The steps of a module reset: 3 to 10 with the rails left on, else from the step that enables them (14 R670). A tripped module
whose sensors are not all below 90 °C stays down (14 R691). -/
def resetSteps (s : State) (o : UpsettOutcome) : State :=
  if s.power.thermtrip ∧ (90 ≤ s.power.tempWest ∨ 90 ≤ s.power.tempEast) then setMState s .down
  else upsettFrom (if s.power.railsOn then 3 else if 1 ≤ s.power.upsettStep then 2 else 1) o { s with power := { s.power with thermtrip := false } }

/-- MOD_RESET#: low stops the engines and holds the module at step 3; the rising edge starts the reset (15 Table 15.4). -/
def modReset (s : State) (low : Bool) (o : UpsettOutcome) : State :=
  if s.power.auxPresent = false then s
  else if low then
    if s.power.resetLow then s
    else
      let s1 := wipe (resetLog s 5 4)
      { s1 with mstate := if s1.power.railsOn then .upsett else s1.mstate, power := { s1.power with resetLow := true } }
  else if s.power.resetLow then resetSteps { s with power := { s.power with resetLow := false } } o
  else s

def execModReset (low : Bool) (outcome : UpsettOutcome) (s : State) : Host.Outcome State Fault Refusal := .next (modReset s low outcome)

/-- A module reset asked for over the management interface (14 R670). -/
def managementReset (s : State) (o : UpsettOutcome) : State :=
  if s.power.auxPresent = false ∨ s.power.resetLow = true then s else resetSteps (wipe (resetLog s 5 0)) o

def execManagementReset (outcome : UpsettOutcome) (s : State) : Host.Outcome State Fault Refusal := .next (managementReset s outcome)

/-- The main input is lost: reported, the power-loss sequence, and the module waits for it to return (14 R688; 13 Table 13.5). -/
def inputLost (s : State) : State :=
  if s.power.railsOn = false then updateAlert s else railsOff (resetLog (powerLog s 2 4) 6 3) .reset

def mainInputLoss (s : State) (mv : Nat) : State :=
  if 38000 ≤ mv then s else inputLost { s with power := { s.power with inputMv := mv, charged := false } }

def execMainInputLoss (mv : Nat) (s : State) : Host.Outcome State Fault Refusal := .next (mainInputLoss s mv)

/-- MOD_PRESENT# opens with the main input present: as a loss of main input (15 R703). -/
def modPresentOpen (s : State) : State :=
  let s1 := { s with power := { s.power with presentOpen := true } }
  if inputOk s then inputLost { s1 with power := { s1.power with charged := false } } else s1

def execModPresentOpen (s : State) : Host.Outcome State Fault Refusal := .next (modPresentOpen s)

/-- More than 62 V, or a rail out of regulation: the rails go and the module is DOWN (14 R688). -/
def overvoltageOrRailFault (s : State) (overvoltage : Bool) (mv : Nat) : State :=
  if s.power.railsOn = false ∨ (overvoltage = true ∧ mv ≤ 62000) then s
  else railsOff (powerLog { s with power := { s.power with inputMv := mv } } (if overvoltage then 3 else 4) 4) .down

def execOvervoltageOrRailFault (overvoltage : Bool) (mv : Nat) (s : State) : Host.Outcome State Fault Refusal :=
  .next (overvoltageOrRailFault s overvoltage mv)

/-- Auxiliary power goes: the Handle and the sideband logic stop and the main rails stay off (15 R697). -/
def auxPowerLoss (s : State) : State :=
  if s.power.auxPresent = false then s
  else
    let s1 := railsOff s .reset
    { s1 with boxes := [Mailbox.fresh 0], numVfs := 0, fabric := { s1.fabric with locked := false, everLocked := false },
              power := { s1.power with auxPresent := false, auxMv := 0, alert := false, thermtrip := false, holdOff := false, resetLow := false, upsettStep := 0 },
              tier := { s1.tier with powerLoss := s.power.railsOn || s.tier.powerLoss } }

def execAuxPowerLoss (s : State) : Host.Outcome State Fault Refusal := .next (auxPowerLoss s)

/-- PERST# low: every function is reset as by a function-level reset; engines, fabric and the sessions of PF0 are unaffected (15
Table 15.4, 02 R74). -/
def perst (s : State) : State :=
  if s.power.pcieUp = false then s
  else
    let vfs := (s.boxes.map fun b => b.fn).filter fun f => f != 0
    setBox (vfs.foldl (fun st f => functionReset st 4 f) (resetLog s 4 4)) 0 fun _ => Mailbox.fresh 0

def execPerst (s : State) : Host.Outcome State Fault Refusal := .next (perst s)

end Sys2Proof.Machine
end

