-- ==== Sys2Proof/Machine/Firmware.lean ====
section
/-! DEFINITION. Firmware images and their verification, live update, recovery, and the reading of the error log (02 R114-R116; 13
R657-R668). -/

namespace Sys2Proof.Machine

/-! ### Verification (13 R657, R658) -/

/-- The fields of an image's header (13 Table 13.6). -/
def imgBody (bs : List Byte) : Nat := fieldAt bs 0x10 4
def imgKey (bs : List Byte) : Nat := fieldAt bs 5 1
def imgVersion (bs : List Byte) : U32 := BitVec.ofNat 32 (fieldAt bs 8 4)
def imgSecurity (bs : List Byte) : Nat := fieldAt bs 0xC 2

/-- MAGIC, FORMAT and the reserved fields. -/
def headerGood (bs : List Byte) : Bool :=
  fieldAt bs 0 4 == 0x53565950 && fieldAt bs 4 1 == 3 && fieldAt bs 6 2 == 0 && fieldAt bs 0x14 44 == 0

/-- A key that is fused and not revoked. -/
def keyUsable (k : Nat) : Bool := decide (k < 4) && Config.fwKeyFused k && !Config.fwKeyRevoked k

/-- The first rule of 13 Table 13.7 that an image of P1 bytes breaks. -/
def verifyFirmware (f : Firmware) (size : Nat) (bs : List Byte) : Option Nat :=
  if size ≠ 64 + imgBody bs + 96 ∨ 16 * mib < size ∨ imgBody bs % 4096 ≠ 0 then some 0x40
  else if headerGood bs = false then some 0x41
  else if keyUsable (imgKey bs) = false then some 0x42
  else if ecdsaVerify (Config.fwKey (imgKey bs)) (bs.take (bs.length - 96)) (bs.drop (bs.length - 96)) = false then some 0x43
  else if imgSecurity bs < f.fusedMinimum then some 0x44
  else if fieldAt bs 0xE 1 ≠ 3 then some 0x45
  else none

/-- The image as a slot holds it. -/
def imageOf (bs : List Byte) (ok : Bool) : Image := { version := imgVersion bs, security := imgSecurity bs, verified := ok }

def setSlot (f : Firmware) (slot : Nat) (i : Image) : Firmware := if slot = 0 then { f with slotA := i } else { f with slotB := i }

/-- With both slots verified, the fused minimum rises to the lower of their security versions (13 R659). -/
def raiseMinimum (f : Firmware) : Firmware :=
  if f.slotA.verified && f.slotB.verified then
    { f with fusedMinimum := Nat.max f.fusedMinimum (Nat.min f.slotA.security f.slotB.security) }
  else f

/-! ### FW_UPDATE (13 R660-R664) -/

def fwActivate (u : Submission) : Bool := u.p2.getLsbD 0
def fwRecover (u : Submission) : Bool := u.p2.getLsbD 1

/-- Read the image of P0 and P1; a size that no image has is read only for its header. -/
def readImage (s : State) (o : Outstanding) : Option (List Byte) := hostRead s (P0 o) (if 16 * mib < P1 o then 64 else P1 o)

/-- R660: one update at a time; the image goes to the slot that is not running and is verified there; then f. A command that a
later one has overtaken before it ran is superseded (13 R664). -/
def writeSlot (s : State) (fn : Nat) (tag : U16) (o : Outstanding) (f : State → Nat → State) : State :=
  if s.fw.update.isSome then complete s fn tag stPolicy
  else
    match readImage s o with
    | none => hostBufferError s fn tag
    | some bs =>
      let slot := 1 - s.fw.running % 2
      match verifyFirmware s.fw (P1 o) bs with
      | some rule =>
        let st := if rule = 0x40 then s else { s with fw := setSlot s.fw slot (imageOf bs false) }
        complete st fn tag (stVerifier rule)
      | none => f { s with fw := raiseMinimum (setSlot s.fw slot (imageOf bs true)) } slot

/-- Whether a later FW_UPDATE of the function has been read. -/
def fwOvertaken (s : State) (fn : Nat) (o : Outstanding) : Bool :=
  match findBox s fn with
  | none => false
  | some b => b.outstanding.any fun x => x.sub.opcode == 0x83 && !fwRecover x.sub && decide (o.order < x.order)

def withUpdate (s : State) (fn : Nat) (tag : U16) (act : Bool) (f : State → Nat → State) : State :=
  withCommand s fn tag (fun u => u.opcode == 0x83 && !fwRecover u && fwActivate u == act) fun s o =>
    if fwOvertaken s fn o then complete s fn tag stOvertaken else writeSlot s fn tag o f

/-- FW_UPDATE with activate clear: nothing else changes (13 R660). -/
def execFwUpdate (fn : Nat) (tag : U16) (s : State) : Host.Outcome State Fault Refusal :=
  .next (withUpdate s fn tag false fun s _ => complete s fn tag (stOk0 s.fw.runningVersion.toNat))

/-- FW_UPDATE with activate set: phase 1, the follower restarts on the new image and the leader drives both halves (13 Table
13.8). -/
def execFwUpdateActivate (fn : Nat) (tag : U16) (s : State) : Host.Outcome State Fault Refusal :=
  .next (withUpdate s fn tag true fun s _ =>
    markAccepted { s with
      fw := { s.fw with update := some { fn := fn, tag := tag, phase := 1, startedAt := s.now, failures := 0, oldSlot := s.fw.running,
                                         oldVersion := s.fw.runningVersion } },
      lead := { s.lead with followerUp := false } } fn tag)

/-- The follower can come back: it is neither retired nor held, and it and its half are not being reset. -/
def followerSound (s : State) : Bool :=
  let h := s.lead.leader.other
  unitWorks s (cpUnit h).toNat && s.lead.heldProcessor != some h && !unitResetting s h.num

/-- FW_FOLLOWER_HEALTHY: phase 3 in UPDATING, the lease passes under a new epoch; then the old leader restarts in phase 4. The
new image's slot is the boot slot (13 R661, Table 13.8). -/
def followerHealthy (s : State) : State :=
  match s.fw.update with
  | none => s
  | some u =>
    if u.phase ≠ 1 ∨ followerSound s = false then s
    else
      let slot := 1 - u.oldSlot % 2
      let s1 := passLease (setMState s .updating)
      setMState { s1 with
        fw := { s1.fw with update := some { u with phase := 4, startedAt := s.now, failures := 0 }, bootSlot := slot, running := slot,
                           runningVersion := (slotImage s1.fw slot).version },
        lead := { s1.lead with followerUp := false } } .ready

def execFwFollowerHealthy (s : State) : Host.Outcome State Fault Refusal := .next (followerHealthy s)

/-- FW_ACTIVATION_DONE: the old leader rejoins on the new image; the command completes with the version now running. -/
def activationDone (s : State) : State :=
  match s.fw.update with
  | none => s
  | some u =>
    if u.phase ≠ 4 ∨ followerSound s = false then s
    else
      let s1 := { s with fw := { s.fw with update := none }, lead := { s.lead with followerUp := true } }
      complete (addLog s1 0x07 0 { arg0 := s1.fw.runningVersion.toNat, arg1 := 0 }) u.fn u.tag (stOk0 s1.fw.runningVersion.toNat)

def execFwActivationDone (s : State) : Host.Outcome State Fault Refusal := .next (activationDone s)

/-- FW_PHASE_TIMEOUT: phases 1 and 2 fall back with the epoch unchanged; phase 4 is tried once more, and then the lease goes back
in a second pause and both processors return to the previous image (13 R662). -/
def phaseTimeout (s : State) : State :=
  match s.fw.update with
  | none => s
  | some u =>
    if u.phase = 1 then if u.startedAt + 300000000 ≤ s.now then fallback s u else s
    else if s.now < u.startedAt + 2000000000 then s
    else if u.failures = 0 then { s with fw := { s.fw with update := some { u with failures := 1, startedAt := s.now } } }
    else
      let s1 := passLease (setMState s .updating)
      fallback (setMState { s1 with lead := { s1.lead with followerUp := false } } .ready) u

def execFwPhaseTimeout (s : State) : Host.Outcome State Fault Refusal := .next (phaseTimeout s)

/-- FW_UPDATE with recover set: only in RECOVERY; the verified image goes to both slots, and upsett goes on from the boot ROM with
what nature gave the run that failed (02 R114). -/
def recover (s : State) (fn : Nat) (tag : U16) (o : Outstanding) : State :=
  if s.mstate ≠ .recovery then complete s fn tag stPolicy
  else
    match readImage s o with
    | none => hostBufferError s fn tag
    | some bs =>
      match verifyFirmware s.fw (P1 o) bs with
      | some rule => complete s fn tag (stVerifier rule)
      | none =>
        let i := imageOf bs true
        let s1 := { s with fw := raiseMinimum { s.fw with slotA := i, slotB := i } }
        let s2 := complete (addLog s1 0x07 0 { arg0 := i.version.toNat, arg1 := 2 }) fn tag (stOk0 i.version.toNat)
        match s2.power.outcome with
        | some x => upsettFrom 4 { x with handOffA := true, handOffB := true } (setMState s2 .upsett)
        | none => setMState s2 .upsett

def execFwUpdateRecover (fn : Nat) (tag : U16) (s : State) : Host.Outcome State Fault Refusal :=
  .next (match findOut s fn tag with
    | some o => if o.sub.isRecover fn && !o.started then recover s fn tag o else s
    | none => s)

/-! ### READ_ERROR_LOG (13 R667, R668) -/

/-- A record as Table 13.9 lays it out; gap marks the first one returned when earlier ones asked for were overwritten. -/
def encodeRecord (gap : Bool) (r : LogRecord) : List Byte :=
  leBytes 8 r.index ++ leBytes 8 r.time ++ leBytes 1 r.kind ++ leBytes 1 (r.severity % 8) ++ leBytes 2 r.unit.toNat ++ leBytes 2 r.code.toNat ++
    leBytes 1 r.incarn.toNat ++ leBytes 1 ((if gap then 1 else 0) + (if r.auxTime then 2 else 0)) ++ leBytes 4 r.tenant.toNat ++
    leBytes 4 r.sess.toNat ++ leBytes 4 (r.handle % 2 ^ 24) ++ leBytes 4 r.epoch.toNat ++ leBytes 8 r.arg0.toNat ++ leBytes 8 r.arg1.toNat ++
    leBytes 4 r.bucket ++ leBytes 4 0

/-- The records to return, the first with its gap. -/
def recordBytes (gap : Bool) : List LogRecord → List Byte
  | [] => []
  | r :: t => encodeRecord gap r ++ recordBytes false t

def readErrorLog (s : State) (fn : Nat) (tag : U16) (o : Outstanding) : State :=
  if P1 o = 0 ∨ P1 o % 64 ≠ 0 then complete s fn tag (stBadParam 0x18)
  else
    let oldest := match s.faults.log.head? with | some r => r.index | none => s.faults.nextIndex
    let l := (s.faults.log.filter fun r => decide (P2 o ≤ r.index)).take (P1 o / 64)
    match l.getLast? with
    | none => complete s fn tag (stOk1 0 (P2 o))
    | some last =>
      match hostWrite s (P0 o) (recordBytes (decide (P2 o < oldest)) l) with
      | none => hostBufferError s fn tag
      | some s1 => complete s1 fn tag (stOk1 l.length (last.index + 1))

def execReadErrorLog (fn : Nat) (tag : U16) (s : State) : Host.Outcome State Fault Refusal :=
  .next (withCommand s fn tag (isOp 0x87) fun s o => readErrorLog s fn tag o)

end Sys2Proof.Machine
end

