-- ==== Sys2Proof/Machine/Leadership.lean ====
section
/-! DEFINITION. Heartbeats, the lease and its takeover, and split claims (13 R648-R656, R664). -/

namespace Sys2Proof.Machine

/-- Ten heartbeats missed: 1 ms since the last (13 R649, R651). -/
def beatsMissed (s : State) (h : Half) : Bool :=
  decide ((match h with | .west => s.lead.lastBeatWest | .east => s.lead.lastBeatEast) + 1000000 ≤ s.now)

/-- The Handle is not restarting (13 R656). -/
def handleUp (s : State) : Bool := decide (s.lead.handleUntil ≤ s.now)

/-- HEARTBEAT: a processor in service tells the other that it runs (13 R649). -/
def heartbeat (s : State) (h : Half) : State :=
  if cpWorks s h = false then s
  else match h with
    | .west => { s with lead := { s.lead with lastBeatWest := s.now } }
    | .east => { s with lead := { s.lead with lastBeatEast := s.now } }

def execHeartbeat (half : Half) (s : State) : Host.Outcome State Fault Refusal := .next (heartbeat s half)

/-- The lease was taken from a processor: counted in row 18 of 13 Table 13.2, and the processor is reset unless that retired it
(13 R652, R654). -/
def resetOld (s : State) (h : Half) : State :=
  let s1 := bucketEvent s 18 (cpUnit h) 0 0
  if isRetired s1 (cpUnit h) then { s1 with lead := { s1.lead with followerUp := false } } else resetProcessor s1 h 2 none

/-- LEASE_GRANT: after the probes have failed, the Handle raises the epoch, and the old leader is fenced and reset (13 R652). -/
def leaseGrant (s : State) : State :=
  let h := s.lead.leader
  if s.lead.granting = false ∨ handleUp s = false ∨ cpWorks s h.other = false then s
  else resetOld (takeLease (abandonUpdate s) h.other 2 false) h

def execLeaseGrant (s : State) : Host.Outcome State Fault Refusal := .next (leaseGrant s)

/-- LEASE_REQUEST: the follower has missed ten heartbeats; the Handle's three probes of the leader all fail, and it will grant, or
one is answered, and it refuses with a record (13 R651). -/
def leaseRequest (s : State) (answered : Bool) : State :=
  let h := s.lead.leader
  if beatsMissed s h = false ∨ handleUp s = false ∨ cpWorks s h.other = false then s
  else if answered then
    let s1 := { s with lead := { s.lead with granting := false } }
    addLog s1 0x06 0 { unit := cpUnit h.other, arg0 := 1, arg1 := h.num }
  else { s with lead := { s.lead with granting := true } }

def execLeaseRequest (answered : Bool) (s : State) : Host.Outcome State Fault Refusal := .next (leaseRequest s answered)

/-- FOLLOWER_PROBE: the leader has missed ten heartbeats; when all three probes fail the Handle resets the follower, and the leader
drives both halves under the same epoch (13 R653). -/
def followerProbe (s : State) (answered : Bool) : State :=
  let f := s.lead.leader.other
  if answered = true ∨ beatsMissed s f = false ∨ handleUp s = false ∨ cpWorks s f = false then s
  else resetProcessor s f 3 none

def execFollowerProbe (answered : Bool) (s : State) : Host.Outcome State Fault Refusal := .next (followerProbe s answered)

/-- The lease is claimed twice: the processor under the lower epoch, or CP-E when they are equal, is fenced and held in reset, and
the other leads, taking the lease if it did not hold it (13 R655). -/
def splitClaim (s : State) (epochWest epochEast : U32) : State :=
  if handleUp s = false ∨ cpWorks s .west = false ∨ cpWorks s .east = false then s
  else
    let x : Half := if epochWest < epochEast then .west else .east
    let taken := s.lead.leader == x
    let s1 := if taken then bucketEvent (takeLease (abandonUpdate s) x.other 2 false) 18 (cpUnit x) 0 0
      else abandonUpdate s
    let s2 := addLog (raiseIncarn s1 (cpUnit x)) 0x06 2 { unit := cpUnit x, arg0 := 2, arg1 := x.other.num }
    { s2 with lead := { s2.lead with heldProcessor := if isRetired s2 (cpUnit x) then none else some x, degraded := true, followerUp := false } }

def execSplitLeaseClaim (epochWest epochEast : U32) (s : State) : Host.Outcome State Fault Refusal :=
  .next (splitClaim s epochWest epochEast)

/-- LEASE_RENEWAL: the leader renews under the current epoch; a renewal under another epoch is a second claim (13 R649, R655). -/
def leaseRenewal (s : State) (h : Half) (epoch : U32) : State :=
  if handleUp s = false ∨ cpWorks s h = false then s
  else if epoch ≠ s.lead.epoch then
    match h with
    | .west => splitClaim s epoch s.lead.epoch
    | .east => splitClaim s s.lead.epoch epoch
  else if h = s.lead.leader then { s with lead := { s.lead with lastRenewal := s.now } }
  else s

def execLeaseRenewal (half : Half) (epoch : U32) (s : State) : Host.Outcome State Fault Refusal := .next (leaseRenewal s half epoch)

/-- HANDLE_WATCHDOG_RESTART: the Handle restarts within 50 ms and grants nothing meanwhile (13 R656). -/
def execHandleWatchdogRestart (s : State) : Host.Outcome State Fault Refusal :=
  .next { s with lead := { s.lead with handleUntil := s.now + 50000000, granting := false } }

end Sys2Proof.Machine
end

