-- ==== Sys2Proof/Machine/Power.lean ====
section
/-! DEFINITION. The power governor, HOLD_OFF#, heat, the fabric reference, and the tenants' token buckets (14 R680-R692; 12
R618, R621). -/

namespace Sys2Proof.Machine

/-! ### The governor (14 R681-R685) -/

/-- The ceiling: the effective cap less 30 W (14 R682). -/
def ceilingW (s : State) : Int := (effectiveCap s : Int) - 30

/-- The estimate E + D expected at a throttle level; the coefficients are calibrated at manufacture (log entry 11). -/
def expectedAt (s : State) (l : Nat) : Int :=
  Config.estimateAt s.power.estimateWest s.power.estimateEast s.power.offset l

/-- The lowest level from l up at which the expected power is within a limit; 63 when none is. -/
def lowestLevel (s : State) (limit : Int) (l : Nat) : Nat :=
  match (List.range 64).find? fun k => decide (l ≤ k) && decide (expectedAt s k ≤ limit) with
  | some k => k
  | none => 63

/-- The brake level: the lowest L that keeps the interval at or below BRAKE_FLOOR_W (14 R687). -/
def brakeLevel (s : State) : Nat := lowestLevel s s.power.config.brakeFloorW 0

/-- A brake is in force: HOLD_OFF#, or the thermal brake. -/
def braking (s : State) : Bool := s.power.holdOff || s.power.thermalBrake

/-- The level after an interval: the brake level under a brake; raised to the lowest that keeps within the ceiling, or lowered
by 1 when that would stay within it (14 R685, R687). -/
def governedLevel (s : State) : Nat :=
  let l := s.power.level
  let e : Int := s.power.estimateWest + s.power.estimateEast + s.power.offset
  if braking s then brakeLevel s
  else if ceilingW s < e then lowestLevel s (ceilingW s) l
  else if 0 < l ∧ expectedAt s (l - 1) ≤ ceilingW s then l - 1
  else l

/-- A level with its allowance: falling issue is not limited, and a level lowered by the governor gives its share back. -/
def setLevel (s : State) (l : Nat) : State :=
  { s with power := { s.power with level := l, allowance := if l < s.power.level then Nat.max s.power.allowance (64 - l)
                                                            else Nat.min s.power.allowance (64 - l) } }

/-- The mean of E over the interval that ends: its updates, or the present estimates when there was none. -/
def meanEstimate (p : Power) : Int := if p.estimates = 0 then p.estimateWest + p.estimateEast else p.estimateSum / p.estimates

/-- GOVERNOR_INTERVAL: the measured average sets the offset and the level; an interval above 1,500 W is recorded (14 R681, R682,
R685, R694). -/
def governorInterval (s : State) (watts : Nat) : State :=
  if s.power.railsOn = false then s
  else
    let p := s.power
    let uj := p.energyUj + 10 * watts
    let s1 := { s with power := { p with
      powerW := watts, offset := (watts : Int) - meanEstimate p, estimateSum := 0, estimates := 0, energyMj := p.energyMj + uj / 1000,
      energyUj := uj % 1000, rampHeld := p.rampRefused, rampRefused := false } }
    let s2 := setLevel s1 (governedLevel s1)
    if 1500 < watts then powerLog s2 9 3 else s2

def execGovernorInterval (watts : Nat) (s : State) : Host.Outcome State Fault Refusal := .next (governorInterval s watts)

/-- POWER_ESTIMATE_UPDATE: a half's estimate, every 125 ns (14 R682). -/
def powerEstimateUpdate (s : State) (h : Half) (watts : Nat) : State :=
  let p := match h with | .west => { s.power with estimateWest := watts } | .east => { s.power with estimateEast := watts }
  { s with power := { p with estimateSum := p.estimateSum + p.estimateWest + p.estimateEast, estimates := p.estimates + 1 } }

def execPowerEstimateUpdate (half : Half) (watts : Nat) (s : State) : Host.Outcome State Fault Refusal :=
  .next (powerEstimateUpdate s half watts)

/-! ### Ramping (14 R683, R684) -/

/-- An engine leaves idle and has not reached its full rate. -/
def ramping (s : State) : Bool := s.engines.any fun e => !e.idle && decide (e.rampStep < 16)

/-- RAMP_STEP: the allowance may rise by 1/16, when E + D after the step stays within the ceiling, and never above what L leaves;
else the step is refused, and L is what the allowance reached (14 R684 and its worked example). -/
def rampStep (s : State) : State :=
  let p := s.power
  let next := Nat.min (64 - p.level) (p.allowance + 4)
  if ramping s = false ∧ p.allowance = 64 - p.level then s
  else if p.allowance < next ∧ ceilingW s < expectedAt s (64 - next) then
    { s with power := { p with rampRefused := true, level := Nat.min 63 (Nat.max p.level (64 - p.allowance)) } }
  else
    { s with power := { p with allowance := next, rampRefused := false },
             engines := mapIf (fun e => !e.idle) (fun e => { e with rampStep := Nat.min 16 (e.rampStep + 1) }) s.engines }

def execRampStep (s : State) : Host.Outcome State Fault Refusal := .next (rampStep s)

/-- ENGINE_IDLE: an instance that has issued nothing for 1 µs is idle (14 R683); with all idle nothing is issued. -/
def engineIdle (s : State) (inst : EngineInst) : State :=
  let e := findEngine s inst
  if e.idle ∨ s.now < e.lastIssue + 1000 ∨ engineBusy e then s
  else
    let s1 := setEngine s inst fun e => { e with idle := true, rampStep := 0 }
    if s1.engines.all fun x => x.idle then { s1 with power := { s1.power with allowance := 0 } } else s1

def execEngineIdle (inst : EngineInst) (s : State) : Host.Outcome State Fault Refusal := .next (engineIdle s inst)

/-! ### Brakes (14 R687, R690) -/

/-- Enter a brake: L is kept for the release, unless another brake already stands. -/
def enterBrake (s : State) (f : Power → Power) : State :=
  let before := if braking s then s.power.levelBeforeBrake else s.power.level
  let s1 := { s with power := f { s.power with levelBeforeBrake := before } }
  setLevel s1 (brakeLevel s1)

/-- Leave a brake: L returns to its value before, once no brake is in force; the allowance ramps. -/
def leaveBrake (s : State) (f : Power → Power) : State :=
  let s1 := { s with power := f s.power }
  if braking s1 then s1 else { s1 with power := { s1.power with level := s1.power.levelBeforeBrake } }

/-- HOLD_OFF_ASSERT: the brake, and upsett pauses at its next boundary (14 R674, R687). -/
def holdOffAssert (s : State) : State :=
  if s.power.holdOff ∨ s.power.auxPresent = false then s
  else powerLog (enterBrake s fun p => { p with holdOff := true }) 0 0

def execHoldOffAssert (s : State) : Host.Outcome State Fault Refusal := .next (holdOffAssert s)

/-- HOLD_OFF_RELEASE: L returns to its value before the brake, and a paused upsett goes on (14 R674, R687). -/
def holdOffRelease (s : State) (o : UpsettOutcome) : State :=
  if s.power.holdOff = false ∨ s.power.auxPresent = false then s
  else
    let s1 := powerLog (leaveBrake s fun p => { p with holdOff := false }) 1 0
    if s1.power.upsettPaused then upsettFrom (s1.power.upsettStep + 1) o s1 else s1

def execHoldOffRelease (outcome : UpsettOutcome) (s : State) : Host.Outcome State Fault Refusal := .next (holdOffRelease s outcome)

/-! ### Heat (14 R690-R692, R694) -/

/-- A THERMAL record: the hottest sensor of the hotter die, named by the first index of that die (14 Table 14.8). -/
def thermalLog (s : State) (event severity : Nat) : State :=
  let t := Nat.max s.power.tempWest s.power.tempEast
  let index := if s.power.tempWest < s.power.tempEast then 64 else 0
  addLog s 0x0F severity { arg0 := event, arg1 := t % 65536 + 65536 * index }

/-- The thermal throttle, by the hottest sensor (14 Table 14.6). -/
def thermalThrottle (s : State) (t : Nat) : State :=
  if 100 ≤ t ∧ s.power.thermalThrottle = false then
    thermalLog { s with power := { s.power with thermalThrottle := true, recovering := false } } 0 2
  else if t < 97 ∧ s.power.thermalThrottle = true then
    thermalLog { s with power := { s.power with thermalThrottle := false, recovering := true } } 1 0
  else s

/-- The thermal brake, in addition to the throttle (14 Table 14.6). -/
def thermalBrake (s : State) (t : Nat) : State :=
  if 105 ≤ t ∧ s.power.thermalBrake = false then thermalLog (enterBrake s fun p => { p with thermalBrake := true }) 2 2
  else if t < 102 ∧ s.power.thermalBrake = true then thermalLog (leaveBrake s fun p => { p with thermalBrake := false }) 3 0
  else s

/-- THERMTRIP#: the rails go, the power-loss sequence runs and the module is DOWN (14 R691). -/
def thermtrip (s : State) : State :=
  let s1 := thermalLog { s with power := { s.power with thermtrip := true } } 4 4
  if s1.power.railsOn then railsOff s1 .down else setMState s1 .down

/-- JUNCTION_SENSOR_READ: the hottest sensor of each die (14 R690). -/
def junctionSensorRead (s : State) (west east : Nat) : State :=
  if s.power.auxPresent = false then s
  else
    let s1 := { s with power := { s.power with tempWest := west, tempEast := east } }
    let t := Nat.max west east
    let s2 := thermalBrake (thermalThrottle s1 t) t
    updateAlert (if 120 ≤ t ∧ s2.power.thermtrip = false then thermtrip s2 else s2)

def execJunctionSensorRead (west east : Nat) (s : State) : Host.Outcome State Fault Refusal := .next (junctionSensorRead s west east)

/-- THERMAL_THROTTLE_STEP: each 1 ms the cap falls by THERMAL_STEP_W under throttle, or climbs back to CAP_W (14 Table 14.6). -/
def thermalThrottleStep (s : State) : State :=
  let p := s.power
  if p.thermalThrottle then
    updateAlert { s with power := { p with thermalCap := Nat.min p.thermalCap p.config.capW - p.config.thermalStepW } }
  else if p.recovering then
    let c := p.thermalCap + p.config.thermalStepW
    updateAlert { s with power := if p.config.capW ≤ c then { p with thermalCap := 1500, recovering := false } else { p with thermalCap := c } }
  else s

def execThermalThrottleStep (s : State) : Host.Outcome State Fault Refusal := .next (thermalThrottleStep s)

/-! ### The fabric reference (14 R680) -/

/-- REFERENCE_LOST: the ports go DOWN, and time runs free. -/
def referenceLost (s : State) : State :=
  if s.power.referenceOk = false then s
  else
    let up := (s.fabric.ports.filter fun p => p.state != .retired).map fun p => p.num
    let s1 := up.foldl (fun st n => match findPort st n with
      | some p => portDown st n (p.nextSeq - BitVec.ofNat 12 p.retry.length - 1) .down
      | none => st) { s with power := { s.power with referenceOk := false } }
    let s2 := linksChanged s1
    powerLog { s2 with fabric := { s2.fabric with locked := false } } 6 2

def execReferenceLost (s : State) : Host.Outcome State Fault Refusal := .next (referenceLost s)

/-- REFERENCE_RESTORED: the ports train again and come up by their link states; time relocks by slewing. -/
def referenceRestored (s : State) : State :=
  if s.power.referenceOk then s
  else
    let s1 := { s with power := { s.power with referenceOk := true },
                       fabric := { s.fabric with ports := mapIf (fun p => p.state == .down) (fun p => { p with state := .training }) s.fabric.ports } }
    powerLog (chooseGrandmaster s1) 7 0

def execReferenceRestored (s : State) : Host.Outcome State Fault Refusal := .next (referenceRestored s)

/-! ### Token buckets (12 R618, R621) -/

/-- A bucket after 1 µs: its rate of RATE ÷ 10⁶ bytes times the governor's factor, up to its depth. A rate in MB/s is a number of
bytes for each µs. -/
def refilled (level rate burstKib : Nat) (tokens : Option Nat) : Option Nat :=
  if rate = unlimited then none
  else some (Nat.min (burstKib * kib) (tokens.getD (burstKib * kib) + rate * (64 - level) / 64))

/-- TOKEN_BUCKET_REFILL: every 1 µs; packets that waited for tokens go. -/
def tokenBucketRefill (s : State) : State :=
  drainWaiting { s with tenants := s.tenants.map fun t =>
      { t with hbmTokens := refilled s.power.level (quotaLimit s t.id 0x10) (quotaLimit s t.id 0x11) t.hbmTokens,
               fabricTokens := refilled s.power.level (quotaLimit s t.id 0x12) (quotaLimit s t.id 0x13) t.fabricTokens } }

def execTokenBucketRefill (s : State) : Host.Outcome State Fault Refusal := .next (tokenBucketRefill s)

end Sys2Proof.Machine
end

