-- ==== Sys2Proof/Machine/Telemetry.lean ====
section
/-! DEFINITION. The telemetry window of PF0 and its 1-ms sample (02 R123, R124; 09 R453, R454, R465; and the BAR2 tables of the
chapters that own the fields). -/

namespace Sys2Proof.Machine

/-! ### The words of BAR2 -/

/-- Words at rising offsets of 8 bytes from a base. -/
def wordsAt (base : Nat) (l : List Nat) : List (Nat × U64) :=
  (List.range l.length).zip l |>.map fun p => (base + 8 * p.1, BitVec.ofNat 64 p.2)

/-- A counter record summed over all contexts. -/
def sumCounters (s : State) (n : Nat) (f : Context → List U64) : List Nat :=
  (List.range n).map fun i => sumNat (s.contexts.map fun c => ((f c)[i]?.getD 0).toNat)

def saturate (bits v : Nat) : Nat := Nat.min v (2 ^ bits - 1)

/-- A Splint's entry: rows issued, busy time in µs, retired (06 R341). -/
def splintWord (s : State) (k : Nat) : List Nat :=
  let find := fun (l : List (Nat × Nat)) => match l.find? fun p => p.1 == k with | some p => p.2 | none => 0
  [find s.splintIssued, saturate 32 (find s.splintBusyNs / 1000) + (if isRetired s (BitVec.ofNat 16 (0x3000 + k)) then 2 ^ 32 else 0)]

/-- The column-map entry of a half (07 R390): disabled columns, the spare, and the check column, which serves while the Weave has
not lost it to a spare. -/
def columnWord (s : State) (h : Half) : Nat :=
  let k := columnsOf s h
  (s.weave.west.disabled ||| s.weave.east.disabled).toNat + 2 ^ 32 * k.spare + (if k.spare = 0x3F then 2 ^ 38 else 0)

/-- HBM_PC (09 Table 9.5). -/
def pcWord (s : State) (p : PseudoChannel) : Nat :=
  let bucket := match findBucket s 1 (BitVec.ofNat 16 (0x7000 + p.num)) 0 with | some b => (drained b s.now).1 | none => 0
  saturate 32 p.window + 2 ^ 32 * saturate 16 bucket + (if p.retired then 2 ^ 48 else 0) +
    (if s.hbm.poisoned.any fun k => k / 2 ^ 40 == p.num then 2 ^ 49 else 0)

/-- HBM_STACK (09 Table 9.5). -/
def stackWord (x : Stack) : Nat := x.temp % 256 + 256 * x.thermal + 65536 * saturate 16 x.spares

/-- TIER_CH (10 Table 10.9). -/
def channelWord (s : State) (c : Channel) : Nat :=
  saturate 16 c.eraseSpread + 2 ^ 16 * saturate 16 c.eraseMean + 2 ^ 32 * saturate 16 (spareGbOf s c) + 2 ^ 48 * c.state + 2 ^ 56 * c.diesLive

/-- TIER_WEAR (10 Table 10.9). -/
def wearWord (s : State) : Nat :=
  s.tier.wearBytes / 10 ^ 9 % 2 ^ 32 + 2 ^ 32 * saturate 16 (s.tier.lifeBytes * 1000 / 116800000000000000) +
    (if s.tier.throttle then 2 ^ 48 else 0)

/-- The newest step of a context's ring. -/
def newestStep (s : State) (sess : U32) : Nat :=
  match findCtx s sess with
  | some c => (c.ring.map fun e => e.step).foldl Nat.max 0
  | none => 0

/-- TIER_LOG (10 Table 10.9). -/
def logWord (s : State) : Nat :=
  ceilDiv (sumNat (s.tier.log.map LogEntry.size)) mib % 2 ^ 32 +
    2 ^ 32 * saturate 16 ((s.tier.log.map fun e => newestStep s e.sess - e.step).foldl Nat.max 0)

def PortState.code : PortState → Nat
  | .down => 0
  | .training => 1
  | .up => 2
  | .held => 3
  | .wiring => 4
  | .retired => 5

/-- LNK_PORT (11 Table 11.12). -/
def portWord (p : Port) : Nat :=
  saturate 16 p.retrains + 2 ^ 16 * p.state.code + 2 ^ 28 * p.lanes.toNat + 2 ^ 32 * (p.peerPort % 16) + 2 ^ 36 * (p.peer % 4096)

/-- LNK_ERR (11 Table 11.12). -/
def errWord (s : State) (p : Port) : Nat :=
  let bucket := fun (row : Nat) => match findBucket s row (BitVec.ofNat 16 (0xC000 + p.num)) 0 with | some b => (drained b s.now).1 | none => 0
  saturate 32 p.replayUs + 2 ^ 32 * saturate 16 (bucket 10) + 2 ^ 48 * saturate 16 (bucket 11)

/-- LNK_TIME (11 Table 11.12). -/
def timeWord (s : State) : Nat :=
  (s.fabric.offset % 2 ^ 32).toNat + 2 ^ 36 * (s.fabric.gm % 4096) + (if s.fabric.locked then 2 ^ 48 else 0) +
    (if s.fabric.grandmaster then 2 ^ 49 else 0)

/-- Main input current in units of 10 mA, from the average power and the input (14 Table 14.5). -/
def inputCa (p : Power) : Nat := if p.inputMv = 0 then 0 else p.powerW * 100000 / p.inputMv

/-- PWR_STATUS (14 Table 14.5). -/
def statusWord (s : State) : Nat :=
  let p := s.power
  let bit := fun (b : Bool) (k : Nat) => if b then 2 ^ k else 0
  saturate 16 (effectiveCap s) + bit p.rampHeld 16 + bit (p.thermalThrottle || decide (effectiveCap s < Nat.min 1500 p.config.capW)) 17 +
    bit p.thermalBrake 18 + bit p.holdOff 19 + 2 ^ 20 * p.level + 2 ^ 32 * saturate 16 p.powerW

/-- PWR_INPUT and PWR_TEMP (14 Table 14.5). -/
def inputWord (p : Power) : Nat := saturate 16 (inputCa p) + 2 ^ 16 * saturate 16 p.inputMv + 2 ^ 32 * saturate 16 p.auxMv
def tempWord (p : Power) : Nat := saturate 8 p.tempWest + 2 ^ 8 * saturate 8 p.tempEast + 2 ^ 16 * saturate 8 p.coolantOut

/-- The whole window beyond its head. TAG_DROPS of the fabric record counts the module's drops (11 R601). -/
def windowWords (s : State) : List (Nat × U64) :=
  wordsAt 0x20000 (sumCounters s 20 fun c => c.splintCtr) ++
  wordsAt 0x20100 ((List.range 64).flatMap (splintWord s)) ++
  wordsAt 0x30000 (sumCounters s 16 fun c => c.weaveCtr) ++
  wordsAt 0x30100 [columnWord s .west, columnWord s .east] ++
  wordsAt 0x40000 (sumCounters s 16 fun c => c.rimCtr) ++
  wordsAt 0x50000 (sumCounters s 16 fun c => c.memCtr) ++
  wordsAt 0x50100 (s.hbm.pcs.map (pcWord s)) ++
  wordsAt 0x51100 (s.hbm.stackList.map stackWord) ++
  wordsAt 0x51140 [saturate 16 s.hbm.skew + 2 ^ 32 * saturate 16 s.hbm.skewRun] ++
  wordsAt 0x60000 (sumCounters s 16 fun c => c.tierCtr) ++
  wordsAt 0x60100 (s.tier.channels.map (channelWord s)) ++
  wordsAt 0x60200 [wearWord s, logWord s] ++
  wordsAt 0x70000 (modifyAt (fun n => n + s.fabric.tagDrops) 14 (sumCounters s 16 fun c => c.fabricCtr)) ++
  wordsAt 0x70100 (s.fabric.ports.map portWord) ++
  wordsAt 0x70180 (s.fabric.ports.map (errWord s)) ++
  wordsAt 0x70200 [timeWord s, s.fabric.lostCut] ++
  wordsAt 0x80000 [statusWord s, inputWord s.power, s.power.energyMj, tempWord s.power, s.power.throttledNs / 1000]

/-- What a read of an aligned 64-bit word of BAR2 returns; the reads have no row of their own. -/
def readWindow (s : State) (offset : Nat) : U64 :=
  if offset = 0 then s.tel.version.setWidth 64 + (s.tel.seq.setWidth 64) * 2 ^ 32
  else if offset = 8 then s.tel.time
  else match s.tel.window.find? fun p => p.1 == offset with
    | some p => p.2
    | none => 0

/-! ### The sample -/

/-- The state of a stack of temperature t that was in state k: entered at 85, 95 and 100 °C, left 2 °C below (09 R465). -/
def thermalState (k t : Nat) : Nat :=
  if 100 ≤ t ∨ (3 ≤ k ∧ 98 < t) then 3
  else if 95 ≤ t ∨ (2 ≤ k ∧ 93 < t) then 2
  else if 85 ≤ t ∨ (1 ≤ k ∧ 83 < t) then 1
  else 0

def heatStack (now t : Nat) (x : Stack) : Stack :=
  let k := thermalState x.thermal t
  { x with temp := t, thermal := k, stoppedAt := if k = 3 ∧ x.thermal ≠ 3 then now else x.stoppedAt }

/-- The pseudo-channels counted in the skew, their sum and the largest (09 R453). -/
def skewOf (pcs : List PseudoChannel) : Nat × Nat × Nat :=
  let live := (pcs.filter fun p => !p.retired).map fun p => p.sectors
  (live.length, sumNat live, live.foldl Nat.max 0)

/-- The window of 1 ms ends: its skew, the run of windows above 3, and HBM_SKEW after 1,000 of them, once until a window of 2 or
less (09 R453, R454). -/
def skewWindow (s : State) : State :=
  let k := skewOf s.hbm.pcs
  let served := decide (10 ^ 9 ≤ 32 * k.2.1)
  let above := served && decide (3 * k.2.1 < k.2.2 * k.1)
  let calm := served && decide (k.2.2 * k.1 ≤ 2 * k.2.1)
  let run := if above then s.hbm.skewRun + 1 else 0
  let skew := if served then saturate 16 (256 * k.2.2 * k.1 / k.2.1) else 0
  let raise := decide (1000 ≤ run) && s.hbm.skewArmed
  let pcs := s.hbm.pcs.map fun p => { p with window := p.sectors, sectors := 0 }
  let s1 := { s with hbm := { s.hbm with skewRun := run, skew := skew, skewArmed := (s.hbm.skewArmed && !raise) || calm, pcs := pcs } }
  if raise then addLog (telemetryEvent s1 0x0009 0xFFFF) 0x0A 0 { code := 0x0009, arg0 := skew, arg1 := run } else s1

/-- The outlet rises above 65 °C: recorded (14 R692, Table 14.8). -/
def outletRead (s : State) (t : Nat) : State :=
  let s1 := { s with power := { s.power with coolantOut := t } }
  if 65 < t ∧ s.power.coolantOut ≤ 65 then addLog s1 0x0F 2 { arg0 := 5, arg1 := t % 65536 + 65536 * 0xFFFF } else s1

/-- TELEMETRY_SAMPLE: temperatures are read, the skew window ends, and the window is refreshed with TEL_SEQ odd in between, even
after. -/
def telemetrySample (s : State) (temps : List Nat) (outlet : Nat) : State :=
  if s.power.railsOn = false then s
  else
    let stackList := s.hbm.stackList.map fun x => heatStack s.now (temps[x.num]?.getD x.temp) x
    let s0 := s.contexts.foldl (fun st c => unseenEvents st c.sess) s
    let s1 := updateAlert (outletRead (skewWindow { s0 with hbm := { s0.hbm with stackList := stackList } }) outlet)
    { s1 with tel := { s1.tel with seq := s1.tel.seq + 2, time := BitVec.ofNat 64 (nowUs s1), samples := s1.tel.samples + 1, window := windowWords s1 } }

def execTelemetrySample (stackTemps : List Nat) (coolantOut : Nat) (s : State) : Host.Outcome State Fault Refusal :=
  .next (telemetrySample s stackTemps coolantOut)

end Sys2Proof.Machine
end

