-- ==== Sys2Proof/Machine/Management.lean ====
section
/-! DEFINITION. The management interface and the host's refusals (15 R704-R706; 11 R551; 14 R677, R678; 01 R718). The interface
works whenever auxiliary power is present (15 R697). -/

namespace Sys2Proof.Machine

/-- The interface's reply to the last message. -/
def reply (s : State) (code : Nat) (ok : Bool) (data : List Byte) : State :=
  { s with mgmt := { s.mgmt with reply := some { code := code, ok := ok, data := data } } }

/-- Run a message when the Handle has power. -/
def onAux (s : State) (f : State → State) : State := if s.power.auxPresent then f s else s

/-! ### The bus (15 R704) -/

/-- The static address: 0x50 + SLOT_ID. -/
def staticAddress : BitVec 7 := 0x50 + Config.slotId.setWidth 7

/-- ENTDAA: the module takes a dynamic address, as an I3C target. -/
def execEntdaa (address : BitVec 7) (s : State) : Host.Outcome State Fault Refusal :=
  .next (onAux s fun s => if s.mgmt.smbus then s else { s with mgmt := { s.mgmt with dynamicAddress := some address } })

/-- SMBUS_FIRST_ADDRESS: SMBus from the first access to the static address in SMBus form, until the next power-on. -/
def execSmbusFirstAddress (address : BitVec 7) (s : State) : Host.Outcome State Fault Refusal :=
  .next (onAux s fun s => if address = staticAddress then { s with mgmt := { s.mgmt with smbus := true, dynamicAddress := none } } else s)

/-! ### PLDM (15 R705) -/

/-- The sensors and states that PLDM type 2 exposes, in the order in which R705 names them: the fields of PWR_STATUS, PWR_INPUT and
PWR_TEMP from the highest bits down, the state of each stack; STATE, DEGRADED_HALF and each port (numbered by the model, log entry
27). -/
def sensors (s : State) : List Nat :=
  let p := s.power
  let bit := fun (b : Bool) => if b then 1 else 0
  [p.powerW, p.level, bit p.holdOff, bit p.thermalBrake, bit (statusWord s / 2 ^ 17 % 2 == 1), bit p.rampHeld, effectiveCap s,
    p.auxMv, p.inputMv, inputCa p, p.coolantOut, p.tempEast, p.tempWest] ++ s.hbm.stackList.map (fun x => x.thermal) ++
    [s.mstate.code, bit s.lead.degraded] ++ s.fabric.ports.map fun p => p.state.code

/-- ZH3-M384-F32-A (15 R713). -/
def partNumber : List Byte := [0x5A, 0x48, 0x33, 0x2D, 0x4D, 0x33, 0x38, 0x34, 0x2D, 0x46, 0x33, 0x32, 0x2D, 0x41]

/-- PLDM_REQUEST: type 0 discovery; type 2 a sensor, or after the last the FRU record with the part number and the serial number.
Another type or sensor is not supported. -/
def pldmRequest (s : State) (ptype : Byte) (sensor : Nat) : State :=
  if ptype = 0 then reply s 0x100 true (Config.mgmtBody 0x100 [0, 2] [])
  else if ptype = 2 then
    match (sensors s)[sensor]? with
    | some v => reply s 0x102 true (Config.mgmtBody 0x102 [sensor, v] [])
    | none =>
      if sensor = (sensors s).length then reply s 0x102 true (Config.mgmtBody 0x102 [sensor, Config.serial.toNat] partNumber)
      else reply s 0x102 false []
  else reply s (0x100 + ptype.toNat) false []

def execPldmRequest (ptype : Byte) (sensor : Nat) (s : State) : Host.Outcome State Fault Refusal :=
  .next (onAux s fun s => pldmRequest s ptype sensor)

/-! ### Configuration and map (15 Table 15.5; 14 Table 14.3; 11 R551) -/

def configFields (c : OpConfig) : List Nat := [c.tickNs, c.cacheSlices, c.logGib, c.capW, c.brakeFloorW, c.thermalStepW]

/-- READ_CONFIG: the configuration written last (14 R677). -/
def execReadConfig (s : State) : Host.Outcome State Fault Refusal :=
  .next (onAux s fun s => reply s 0x01 true (Config.mgmtBody 0x01 (configFields s.power.stored) []))

/-- The ranges of 14 Table 14.3. -/
def configValid (c : OpConfig) : Bool :=
  decide (250 ≤ c.tickNs ∧ c.tickNs ≤ 16000 ∧ c.tickNs % 250 = 0) && decide (4 ≤ c.cacheSlices ∧ c.cacheSlices ≤ 12) &&
    decide (16 ≤ c.logGib ∧ c.logGib ≤ 64) && decide (800 ≤ c.capW ∧ c.capW ≤ 1500) &&
    decide (500 ≤ c.brakeFloorW ∧ c.brakeFloorW ≤ 1200) && decide (10 ≤ c.thermalStepW ∧ c.thermalStepW ≤ 100)

/-- WRITE_CONFIG: CAP_W and BRAKE_FLOOR_W take effect within 10 ms, here at once; the others at the next upsett (14 R678). A value
outside its range is refused. -/
def writeConfig (s : State) (c : OpConfig) : State :=
  if configValid c = false then reply s 0x02 false []
  else
    let now := { s.power.config with capW := c.capW, brakeFloorW := c.brakeFloorW }
    updateAlert (reply { s with power := { s.power with stored := c, config := now } } 0x02 true [])

def execWriteConfig (cfg : OpConfig) (s : State) : Host.Outcome State Fault Refusal := .next (onAux s fun s => writeConfig s cfg)

/-- WRITE_MAP: the map is taken at the next upsett, valid or not (11 R551, R552). -/
def execWriteMap (dims coords : List Nat) (s : State) : Host.Outcome State Fault Refusal :=
  .next (onAux s fun s =>
    reply { s with fabric := { s.fabric with nextDims := dims, nextCoords := coords, mapWritten := true } } 0x03 true [])

/-! ### Keys (15 R706; 02 R108; 06 R332) -/

/-- INSTALL_ROOT: the hash of the first root key is kept; every later one is refused. -/
def execInstallRoot (key : List Byte) (s : State) : Host.Outcome State Fault Refusal :=
  .next (onAux s fun s =>
    match s.mgmt.rootHash with
    | some _ => reply s 0x04 false []
    | none => reply { s with mgmt := { s.mgmt with rootHash := some (sha384 key) } } 0x04 true [])

/-- A public key as bytes: x then y, big-endian, 48 B each. -/
def publicKey (bs : List Byte) : Nat × Nat := (beNat (bs.take 48), beNat ((bs.drop 48).take 48))

/-- A key message is signed under the operator root key, whose hash stands (15 R706); the message is its code and its payload. -/
def signedMessage (s : State) (code : Nat) (payload root sig : List Byte) : Bool :=
  s.mgmt.rootHash == some (sha384 root) && ecdsaVerify (publicKey root) (BitVec.ofNat 8 code :: payload) sig

/-- Run a signed message, or refuse it; f gives none for a payload that it cannot use. -/
def keyMessage (s : State) (code : Nat) (payload root sig : List Byte) (f : Management → Option Management) : State :=
  match (if signedMessage s code payload root sig then f s.mgmt else none) with
  | some m => reply { s with mgmt := m } code true []
  | none => reply s code false []

/-- INSTALL_KEK: the key-encryption key of 02 R108, wrapped under the module's transport key. -/
def execInstallKek (payload root sig : List Byte) (s : State) : Host.Outcome State Fault Refusal :=
  .next (onAux s fun s => keyMessage s 0x05 payload root sig fun m => (Config.unwrapKek payload).map fun k => { m with kek := some k })

/-- INSTALL_COIL_KEY: a KEY_ID and its public key. -/
def execInstallCoilKey (payload root sig : List Byte) (s : State) : Host.Outcome State Fault Refusal :=
  .next (onAux s fun s => keyMessage s 0x06 payload root sig fun m =>
    if payload.length = 100 then
      let id := BitVec.ofNat 32 (fieldAt payload 0 4)
      some { m with coilKeys := (m.coilKeys.filter fun k => k.1 != id) ++ [(id, publicKey (payload.drop 4))] }
    else none)

/-- REVOKE_COIL_KEY: by KEY_ID. -/
def execRevokeCoilKey (payload root sig : List Byte) (s : State) : Host.Outcome State Fault Refusal :=
  .next (onAux s fun s => keyMessage s 0x07 payload root sig fun m =>
    if payload.length = 4 then some { m with coilKeys := m.coilKeys.filter fun k => k.1 != BitVec.ofNat 32 (fieldAt payload 0 4) }
    else none)

/-- READ_IDENTITY: serial number, module incarnation, running image versions and the transport key. -/
def execReadIdentity (s : State) : Host.Outcome State Fault Refusal :=
  .next (onAux s fun s => reply s 0x08 true
    (Config.mgmtBody 0x08 [Config.serial.toNat, s.faults.moduleIncarnation.toNat, s.fw.runningVersion.toNat] Config.transportKey))

/-! ### Host memory that does not answer (01 R718) -/

/-- PCIE_COMPLETION_TIMEOUT: bus addresses lo to hi − 1 are not answered; from now on an access there is one without a valid
translation. -/
def execPcieCompletionTimeout (lo hi : Nat) (s : State) : Host.Outcome State Fault Refusal :=
  .next (if lo < hi ∧ s.hostRefuse.contains (lo, hi) = false then { s with hostRefuse := s.hostRefuse ++ [(lo, hi)] } else s)

end Sys2Proof.Machine
end

