-- ==== Sys2Proof/Machine/StepCommit.lean ====
section
/-! DEFINITION. The step operations of RM_OP: two-version regions, the vote and its application, the loss-scale policy and
the generator state (chapters 05 and 08). -/

namespace Sys2Proof.Machine

/-- The operations 0x0E00 to 0x0F00 take neither input nor output (08 R395, R721). -/
def noStreams (inst : EngineInst) (w : BitVec 512) : Except CmdErr Unit :=
  mustBe inst (fld w 0x10 50 0 == 0 && fld w 0x18 50 0 == 0)

def auxOf (w : BitVec 512) : Nat := fld w 0x28 47 0

/-- Run a step operation whose half comes first. -/
def stepOp (op : Nat) (h : Half) (f : State → Context → Running → Except CmdErr State) (s : State) : State :=
  withRunning s (.rim h) (rimSel op) (onceOp h fun s c r => do
    noStreams (.rim h) r.word
    f s c r)

/-! ### Two-version regions (08 R421, R422, R427) -/

def allocAt (c : Context) (va n : Nat) : Option Alloc :=
  c.allocs.find? fun a => a.has va && decide (va + n ≤ a.base + a.size)

def overlap (a n b m : Nat) : Bool := decide (a < b + m) && decide (b < a + n)

/-- The bind record's conditions: the region lies in one plain allocation of HBM or the Basket, on its pages; the shadow is a
plain allocation of the same page size and placement, large enough; no overlap; at most 64 regions. -/
def bindOk (c : Context) (region bytes shadow : Nat) : Bool :=
  match allocAt c region bytes, c.allocs.find? fun a => a.base == shadow with
  | some a, some b =>
    a.use == .plain && b.use == .plain && a.backing != .host && a.page == b.page && a.backing == b.backing &&
    region % a.page == 0 && bytes % a.page == 0 && bytes != 0 && !overlap region bytes b.base b.size &&
    decide (alignUp (bytes + ceilDiv bytes 2048) a.page ≤ b.size) &&
    !(c.regions.any fun r => r.table == 0 && overlap region bytes r.base r.bytes) &&
    decide ((c.regions.filter fun r => r.table == 0).length < 64)
  | _, _ => false

/-- The three fields of a bind record (08 Table 8.5). -/
def readBind (s : State) (c : Context) (va : Nat) : Except MemErr (Nat × Nat × Nat) :=
  (readVa s c .rd va 32).map fun b => (fieldAt b 0 6, fieldAt b 8 6, fieldAt b 0x10 6)

def setUse (base : Nat) (u : AllocUse) (c : Context) : Context :=
  { c with allocs := mapIf (fun a => a.base == base) (fun a => { a with use := u }) c.allocs }

def versionBind (h : Half) (s : State) (c : Context) (r : Running) : Except CmdErr State := do
  let b ← memTry h.num (readBind s c (auxOf r.word))
  mustBe (.rim h) (bindOk c b.1 b.2.1 b.2.2)
  let rg : Region := { table := 0, base := b.1, bytes := b.2.1, shadow := b.2.2, inShadow := [], provisional := [], unsettled := [] }
  pure (setCtx s c.sess fun c => { setUse b.2.2 .shadow c with regions := c.regions ++ [rg] })

def execVersionBind (h : Half) (s : State) : Host.Outcome State Fault Refusal := .next (stepOp 0x0E00 h (versionBind h) s)

/-- Copy the committed granules that lie in the shadow back into the region. -/
def homeGranules (s : State) (sess : U32) (r : Region) : State :=
  r.inShadow.foldl (fun st g => copyGranule st sess r g) s

/-- Contents the spec leaves unspecified fill an allocation (log entry 5). -/
def scramble (s : State) (sess : U32) (base n : Nat) : State :=
  let k := choose s
  match findCtx s sess with
  | none => s
  | some c => putBytes k.2 c .inner base ((List.range n).map fun i => Config.openByte k.1 i)

def versionUnbind (h : Half) (s : State) (c : Context) (r : Running) : Except CmdErr State := do
  let b ← memTry h.num (readBind s c (auxOf r.word))
  mustBe (.rim h) (c.rim.pending == 0 && c.settles.isEmpty)
  match c.regions.find? fun x => x.table == 0 && x.base == b.1 && x.bytes == b.2.1 && x.shadow == b.2.2 with
  | none => .error (errBad (.rim h))
  | some rg =>
    let size := match c.allocs.find? fun a => a.base == rg.shadow with | some a => a.size | none => 0
    let s1 := scramble (homeGranules s c.sess rg) c.sess rg.shadow size
    pure (setCtx s1 c.sess fun c => { setUse rg.shadow .plain c with regions := c.regions.filter fun x => !(x.table == 0 && x.base == rg.base) })

def execVersionUnbind (h : Half) (s : State) : Host.Outcome State Fault Refusal := .next (stepOp 0x0E01 h (versionUnbind h) s)

/-! ### STEP_VOTE (08 R429-R433) -/

structure StepRecord where
  group : Nat
  step : Nat
  mask : Nat

def readStep (s : State) (c : Context) (va : Nat) : Except MemErr StepRecord :=
  (readVa s c .rd va 64).map fun b => { group := fieldAt b 0 3, step := fieldAt b 4 4, mask := fieldAt b 8 4 % 2 ^ 30 }

/-- The record of a decision abort that came before the vote. -/
def abortBefore (c : Context) (q : StepRecord) : Option (Nat × Nat) :=
  (findGroup c q.group).bind fun g => (g.aborts.find? fun x => x.1 == 1 && x.2.1 == q.step).map fun x => (x.2.2.1, x.2.2.2)

def votedAlready (c : Context) (q : StepRecord) : Bool :=
  (match c.vote with | some v => v.step == q.step | none => false) || (stepDecided c q.step && (abortBefore c q).isNone)

def stepVote (h : Half) (s : State) (c : Context) (r : Running) : Except CmdErr State := do
  let inst := EngineInst.rim h
  let q ← memTry h.num (readStep s c (auxOf r.word))
  mustBe inst (q.step != 0 && !(c.rim.pending != 0 && c.rim.pending != q.step) && !votedAlready c q)
  mustBe inst (q.group == 0 || (match findGroup c q.group with | some g => g.complete | none => false))
  let set := c.rim.latch || (c.flags.toNat &&& q.mask) != 0
  let me := myNumber s
  let v : VoteState := { step := q.step, group := q.group, myVote := set, castAt := s.now, phase := if q.group = 0 then 3 else 0, set := set,
                         lowest := if set then me else noModule, decision := .none, decidedAt := 0, origin := 0xFFFFFFFF, error := 0 }
  let s1 := setCtx s c.sess fun c => { c with vote := some v, rim := { c.rim with latch := false, pending := if stepDecided c q.step then c.rim.pending else q.step } }
  match abortBefore c q with
  | some (o, e) =>
    pure (voteAborted (if stepDecided c q.step then s1 else skipStep s1 c.sess q.step) c.sess o e)
  | none =>
    let s2 := match findGroup c q.group with
      | some g => floodAxis s1 c g 0 (votePacket s1 g q.step false 0 set v.lowest)
      | none => s1
    pure (advanceVote 4 s2 c.sess)

def execStepVote (h : Half) (s : State) : Host.Outcome State Fault Refusal := .next (stepOp 0x0E02 h (stepVote h) s)

/-! ### STEP_APPLY (08 R435-R438, R444; 09 R497) -/

/-- The fields that STEP_APPLY writes into its record (08 Table 8.6). -/
def stepFields (v : VoteState) (granules settleUs : Nat) (ls : U32) : List Byte :=
  let d := match v.decision with | .none => 0 | .commit => 1 | .skip => 2 | .aborted => 3
  [BitVec.ofNat 8 d, if v.myVote then 1 else 0] ++ leBytes 2 v.lowest ++ leBytes 4 ((v.decidedAt - v.castAt) / 1000) ++ leBytes 4 settleUs ++
    leBytes 4 granules ++ leBytes 4 v.origin ++ leBytes 4 ls.toNat

/-- Apply a decision to the context: versions, log entries, ring, loss scale, counters. -/
def applyDecision (s : State) (c : Context) (v : VoteState) (record : Nat) (ref : CmdRef) : State :=
  let sess := c.sess
  match v.decision with
  | .commit =>
    let s1 := setCtx s sess (commitCtx v.step)
    let x : Settle := { step := v.step, group := v.group, record := record, startedAt := s.now, phase := 0, aborted := false, ref := ref }
    let s2 := setCtx s1 sess fun c => { c with vote := none, rim := lossScale true c.rim, settles := c.settles ++ [x] }
    s2
  | .skip => setCtx (bumpRim (skipStep s sess v.step) sess 7 1) sess fun c => { c with vote := none, rim := lossScale false c.rim }
  | _ =>
    let s1 := if c.rim.pending = v.step then skipStep s sess v.step else s
    setCtx (bumpRim s1 sess 8 1) sess fun c => { c with vote := none, rim := lossScale false c.rim }

/-- The settle starts: at once done for a step of the module alone. -/
def startSettle (s : State) (sess : U32) (v : VoteState) : State :=
  match (findCtx s sess).bind fun c => (findGroup c v.group).map fun g => (c, g) with
  | some (c, g) => advanceSettle 4 (floodAxis s c g 0 (votePacket s g v.step true 0 false noModule)) sess v.step
  | none =>
    match (findCtx s sess).bind fun c => c.settles.find? fun x => x.step == v.step with
    | some x => settleDone s sess x
    | none => s

/-- The decision applied, the record written, and the error with which an aborted step ends the command. -/
def stepApply (h : Half) (s : State) (c : Context) (r : Running) : Except CmdErr (State × Option CmdErr) := do
  let inst := EngineInst.rim h
  let va := auxOf r.word
  let q ← memTry h.num (readStep s c va)
  match c.vote with
  | none => .error (errBad inst)
  | some v =>
    mustBe inst (q.step != 0 && v.step == q.step && v.decision != .none)
    match spanOk s c .wr (va + 0x10) 0x18 with
    | some bad => .error (.code faultTranslation h.num bad)
    | none =>
      let n := pendingGranules c
      let s1 := applyDecision s c v va r.ref
      let ls := match findCtx s1 c.sess with | some c => c.rim.lsScale | none => 0
      let s2 := writeRecord s1 c.sess (va + 0x10) (stepFields v n 0xFFFFFFFF ls)
      let s3 := if v.decision = .commit then startSettle s2 c.sess v else releaseHeld s2 c.sess
      match v.decision with
      | .aborted => pure (s3, some (.group v.error v.origin inst.unit))
      | _ => pure (s3, none)

/-- STEP_APPLY on a half: an aborted step takes its effects and then ends its list. -/
def runApply (h : Half) (s : State) : State :=
  match (findEngine s (.rim h)).running.find? fun r => rimSel 0x0E03 r.word && !r.started with
  | none => s
  | some r =>
    match findCtx s r.sess with
    | none => s
    | some c =>
      if otherDone s h r.ref then armWaits (shareDone s (.rim h) r.ref)
      else
        match (noStreams (.rim h) r.word).bind fun _ => stepApply h s c r with
        | .error e => faultCommand s r.ref e
        | .ok (s1, some e) => faultCommand s1 r.ref e
        | .ok (s1, none) => armWaits (shareDone s1 (.rim h) r.ref)

def execStepApply (h : Half) (s : State) : Host.Outcome State Fault Refusal := .next (runApply h s)

/-! ### SCALE_SET and PLAIT_SET (08 R444, 05 R273) -/

def scaleSet (h : Half) (s : State) (c : Context) (r : Running) : Except CmdErr State := do
  let b ← memTry h.num (readVa s c .rd (auxOf r.word) 32)
  pure (setCtx s c.sess fun c => { c with rim := loadPolicy b c.rim })

def execScaleSet (h : Half) (s : State) : Host.Outcome State Fault Refusal := .next (stepOp 0x0E04 h (scaleSet h) s)

/-- The generator state after PLAIT_SET: IMM bit i loads base i, bit 32 the key. -/
def loadPlait (imm : Nat) (b : List Byte) (c : Context) : Context :=
  { c with plaitKey := if imm / 2 ^ 32 % 2 = 1 then BitVec.ofNat 128 (leNat (b.take 16)) else c.plaitKey,
           bases := (List.range 32).map fun i => if imm / 2 ^ i % 2 = 1 then BitVec.ofNat 64 (fieldAt b (0x10 + 8 * i) 8) else nthD 0 c.bases i }

def plaitSet (h : Half) (s : State) (c : Context) (r : Running) : Except CmdErr State := do
  let b ← memTry h.num (readVa s c .rd (auxOf r.word) 272)
  pure (setCtx s c.sess (loadPlait (fld r.word 0x30 63 0) b))

def execPlaitSet (h : Half) (s : State) : Host.Outcome State Fault Refusal := .next (stepOp 0x0F00 h (plaitSet h) s)

end Sys2Proof.Machine
end

