-- ==== Sys2Proof/Machine/Dispatch.lean ====
section
/-! DEFINITION. The dispatch of commands: one arm per command of the table, one direct call of its meaning. -/

namespace Sys2Proof.Machine

def exec (i : Instr) (s : State) : Host.Outcome State Fault Refusal :=
  match i with
  | .mbxSqDoorbell fn value => Sys2Proof.Machine.execMbxSqDoorbell fn value s
  | .mbxCqDoorbell fn value => Sys2Proof.Machine.execMbxCqDoorbell fn value s
  | .enableSet fn => Sys2Proof.Machine.execEnableSet fn s
  | .enableClear fn => Sys2Proof.Machine.execEnableClear fn s
  | .ringReset fn => Sys2Proof.Machine.execRingReset fn s
  | .mbxErrClear fn value => Sys2Proof.Machine.execMbxErrClear fn value s
  | .mbxTimeLoRead fn => Sys2Proof.Machine.execMbxTimeLoRead fn s
  | .registerWrite bar fn offset size value => Sys2Proof.Machine.execRegisterWrite bar fn offset size value s
  | .submissionFetch fn => Sys2Proof.Machine.execSubmissionFetch fn s
  | .noticeWrite fn => Sys2Proof.Machine.execNoticeWrite fn s
  | .completionIntCoalTimer fn => Sys2Proof.Machine.execCompletionIntCoalTimer fn s
  | .telemetryIntTimer fn => Sys2Proof.Machine.execTelemetryIntTimer fn s
  | .interimQueued fn tag => Sys2Proof.Machine.execInterimQueued fn tag s
  | .reservedOpcode fn tag => Sys2Proof.Machine.execReservedOpcode fn tag s
  | .identificationQuery fn tag => Sys2Proof.Machine.execIdentificationQuery fn tag s
  | .openSession fn tag => Sys2Proof.Machine.execOpenSession fn tag s
  | .authResponse fn tag => Sys2Proof.Machine.execAuthResponse fn tag s
  | .closeSession fn tag => Sys2Proof.Machine.execCloseSession fn tag s
  | .keepalive fn tag => Sys2Proof.Machine.execKeepalive fn tag s
  | .nonceExpiry sess => Sys2Proof.Machine.execNonceExpiry sess s
  | .sessionIdleExpiry sess => Sys2Proof.Machine.execSessionIdleExpiry sess s
  | .lockoutEnd tenant => Sys2Proof.Machine.execLockoutEnd tenant s
  | .allocMem fn tag => Sys2Proof.Machine.execAllocMem fn tag s
  | .freeMem fn tag => Sys2Proof.Machine.execFreeMem fn tag s
  | .mapHost fn tag => Sys2Proof.Machine.execMapHost fn tag s
  | .createTable fn tag => Sys2Proof.Machine.execCreateTable fn tag s
  | .createGraph fn tag => Sys2Proof.Machine.execCreateGraph fn tag s
  | .setOwnership fn tag => Sys2Proof.Machine.execSetOwnership fn tag s
  | .destroyObject fn tag => Sys2Proof.Machine.execDestroyObject fn tag s
  | .loadCoil fn tag => Sys2Proof.Machine.execLoadCoil fn tag s
  | .submitList fn tag => Sys2Proof.Machine.execSubmitList fn tag s
  | .contextWaitServe => Sys2Proof.Machine.execContextWaitServe s
  | .cancelList fn tag => Sys2Proof.Machine.execCancelList fn tag s
  | .joinGroup fn tag => Sys2Proof.Machine.execJoinGroup fn tag s
  | .joinGroupTimeout fn tag => Sys2Proof.Machine.execJoinGroupTimeout fn tag s
  | .openPeerStream fn tag => Sys2Proof.Machine.execOpenPeerStream fn tag s
  | .openPeerStreamTimeout fn tag => Sys2Proof.Machine.execOpenPeerStreamTimeout fn tag s
  | .tierSync fn tag => Sys2Proof.Machine.execTierSync fn tag s
  | .saveContext fn tag => Sys2Proof.Machine.execSaveContext fn tag s
  | .restoreContext fn tag => Sys2Proof.Machine.execRestoreContext fn tag s
  | .queryCountersSplint fn tag => Sys2Proof.Machine.execQueryCountersSplint fn tag s
  | .queryCountersWeave fn tag => Sys2Proof.Machine.execQueryCountersWeave fn tag s
  | .queryCountersRim fn tag => Sys2Proof.Machine.execQueryCountersRim fn tag s
  | .queryCountersMemory fn tag => Sys2Proof.Machine.execQueryCountersMemory fn tag s
  | .queryCountersTier fn tag => Sys2Proof.Machine.execQueryCountersTier fn tag s
  | .queryCountersFabric fn tag => Sys2Proof.Machine.execQueryCountersFabric fn tag s
  | .queryCountersQuota fn tag => Sys2Proof.Machine.execQueryCountersQuota fn tag s
  | .queryCountersReserved fn tag => Sys2Proof.Machine.execQueryCountersReserved fn tag s
  | .readFlags fn tag => Sys2Proof.Machine.execReadFlags fn tag s
  | .clearFlags fn tag => Sys2Proof.Machine.execClearFlags fn tag s
  | .setTenantKey fn tag => Sys2Proof.Machine.execSetTenantKey fn tag s
  | .setQuota fn tag => Sys2Proof.Machine.execSetQuota fn tag s
  | .setPolicy fn tag => Sys2Proof.Machine.execSetPolicy fn tag s
  | .fwUpdate fn tag => Sys2Proof.Machine.execFwUpdate fn tag s
  | .fwUpdateActivate fn tag => Sys2Proof.Machine.execFwUpdateActivate fn tag s
  | .fwUpdateRecover fn tag => Sys2Proof.Machine.execFwUpdateRecover fn tag s
  | .fwFollowerHealthy => Sys2Proof.Machine.execFwFollowerHealthy s
  | .fwActivationDone => Sys2Proof.Machine.execFwActivationDone s
  | .fwPhaseTimeout => Sys2Proof.Machine.execFwPhaseTimeout s
  | .resetUnit fn tag => Sys2Proof.Machine.execResetUnit fn tag s
  | .unitResetEnd unit returned => Sys2Proof.Machine.execUnitResetEnd unit returned s
  | .retireUnit fn tag => Sys2Proof.Machine.execRetireUnit fn tag s
  | .rekeyHbm fn tag => Sys2Proof.Machine.execRekeyHbm fn tag s
  | .readErrorLog fn tag => Sys2Proof.Machine.execReadErrorLog fn tag s
  | .functionLevelReset fn => Sys2Proof.Machine.execFunctionLevelReset fn s
  | .vfDisable numVfs => Sys2Proof.Machine.execVfDisable numVfs s
  | .perst => Sys2Proof.Machine.execPerst s
  | .taskChoice inst => Sys2Proof.Machine.execTaskChoice inst s
  | .preempt inst => Sys2Proof.Machine.execPreempt inst s
  | .reservedEngineOpcode inst => Sys2Proof.Machine.execReservedEngineOpcode inst s
  | .listEnd fn tag => Sys2Proof.Machine.execListEnd fn tag s
  | .syWait inst => Sys2Proof.Machine.execSyWait inst s
  | .syWaitTimeout inst => Sys2Proof.Machine.execSyWaitTimeout inst s
  | .sySignal inst => Sys2Proof.Machine.execSySignal inst s
  | .syDelay inst => Sys2Proof.Machine.execSyDelay inst s
  | .delayEntryExpiry h => Sys2Proof.Machine.execDelayEntryExpiry h s
  | .delayEntryFreed h => Sys2Proof.Machine.execDelayEntryFreed h s
  | .wvMatmul check => Sys2Proof.Machine.execWvMatmul check s
  | .wvEdge => Sys2Proof.Machine.execWvEdge s
  | .edgeTileArrival check => Sys2Proof.Machine.execEdgeTileArrival check s
  | .weaveDoneHandshake h => Sys2Proof.Machine.execWeaveDoneHandshake h s
  | .weavePatternTest h failing => Sys2Proof.Machine.execWeavePatternTest h failing s
  | .columnDisable => Sys2Proof.Machine.execColumnDisable s
  | .spGather h => Sys2Proof.Machine.execSpGather h s
  | .spScatter h => Sys2Proof.Machine.execSpScatter h s
  | .spRun h => Sys2Proof.Machine.execSpRun h s
  | .chunkClaim c => Sys2Proof.Machine.execChunkClaim c s
  | .chunkApply h => Sys2Proof.Machine.execChunkApply h s
  | .sortWindowIssue pc => Sys2Proof.Machine.execSortWindowIssue pc s
  | .hbmAccessDone req symbols => Sys2Proof.Machine.execHbmAccessDone req symbols s
  | .replyDelivery req badLanes => Sys2Proof.Machine.execReplyDelivery req badLanes s
  | .aluAdd c d a b => Sys2Proof.Machine.execAluAdd c d a b s
  | .aluSub c d a b => Sys2Proof.Machine.execAluSub c d a b s
  | .aluAnd c d a b => Sys2Proof.Machine.execAluAnd c d a b s
  | .aluOr c d a b => Sys2Proof.Machine.execAluOr c d a b s
  | .aluXor c d a b => Sys2Proof.Machine.execAluXor c d a b s
  | .aluShl c d a b => Sys2Proof.Machine.execAluShl c d a b s
  | .aluShr c d a b => Sys2Proof.Machine.execAluShr c d a b s
  | .aluSar c d a b => Sys2Proof.Machine.execAluSar c d a b s
  | .aluMul c d a b => Sys2Proof.Machine.execAluMul c d a b s
  | .aluMulhu c d a b => Sys2Proof.Machine.execAluMulhu c d a b s
  | .aluMinu c d a b => Sys2Proof.Machine.execAluMinu c d a b s
  | .aluMaxu c d a b => Sys2Proof.Machine.execAluMaxu c d a b s
  | .aluMins c d a b => Sys2Proof.Machine.execAluMins c d a b s
  | .aluMaxs c d a b => Sys2Proof.Machine.execAluMaxs c d a b s
  | .aluSltu c d a b => Sys2Proof.Machine.execAluSltu c d a b s
  | .aluSlts c d a b => Sys2Proof.Machine.execAluSlts c d a b s
  | .addi c d a imm => Sys2Proof.Machine.execAddi c d a imm s
  | .andi c d a imm => Sys2Proof.Machine.execAndi c d a imm s
  | .ori c d a imm => Sys2Proof.Machine.execOri c d a imm s
  | .xori c d a imm => Sys2Proof.Machine.execXori c d a imm s
  | .shli c d a imm => Sys2Proof.Machine.execShli c d a imm s
  | .shri c d a imm => Sys2Proof.Machine.execShri c d a imm s
  | .sari c d a imm => Sys2Proof.Machine.execSari c d a imm s
  | .lih c d a imm => Sys2Proof.Machine.execLih c d a imm s
  | .ld1 c d a imm => Sys2Proof.Machine.execLd1 c d a imm s
  | .ld2 c d a imm => Sys2Proof.Machine.execLd2 c d a imm s
  | .ld4 c d a imm => Sys2Proof.Machine.execLd4 c d a imm s
  | .ld8 c d a imm => Sys2Proof.Machine.execLd8 c d a imm s
  | .beq c a b ofs => Sys2Proof.Machine.execBeq c a b ofs s
  | .bne c a b ofs => Sys2Proof.Machine.execBne c a b ofs s
  | .blts c a b ofs => Sys2Proof.Machine.execBlts c a b ofs s
  | .bges c a b ofs => Sys2Proof.Machine.execBges c a b ofs s
  | .bltu c a b ofs => Sys2Proof.Machine.execBltu c a b ofs s
  | .bgeu c a b ofs => Sys2Proof.Machine.execBgeu c a b ofs s
  | .jmp c ofs => Sys2Proof.Machine.execJmp c ofs s
  | .rnd c d a b f => Sys2Proof.Machine.execRnd c d a b f s
  | .etile c d a b f => Sys2Proof.Machine.execEtile c d a b f s
  | .grow c a b f => Sys2Proof.Machine.execGrow c a b f s
  | .eclose c => Sys2Proof.Machine.execEclose c s
  | .coilEnd c => Sys2Proof.Machine.execCoilEnd c s
  | .smSample h => Sys2Proof.Machine.execSmSample h s
  | .sampleReq p => Sys2Proof.Machine.execSampleReq p s
  | .sampleReply p => Sys2Proof.Machine.execSampleReply p s
  | .copy h => Sys2Proof.Machine.execCopy h s
  | .relu h => Sys2Proof.Machine.execRelu h s
  | .leakyRelu h => Sys2Proof.Machine.execLeakyRelu h s
  | .gelu h => Sys2Proof.Machine.execGelu h s
  | .sigmoid h => Sys2Proof.Machine.execSigmoid h s
  | .tanh h => Sys2Proof.Machine.execTanh h s
  | .exp h => Sys2Proof.Machine.execExp h s
  | .log h => Sys2Proof.Machine.execLog h s
  | .sqrt h => Sys2Proof.Machine.execSqrt h s
  | .recip h => Sys2Proof.Machine.execRecip h s
  | .add h => Sys2Proof.Machine.execAdd h s
  | .sub h => Sys2Proof.Machine.execSub h s
  | .mul h => Sys2Proof.Machine.execMul h s
  | .div h => Sys2Proof.Machine.execDiv h s
  | .max h => Sys2Proof.Machine.execMax h s
  | .min h => Sys2Proof.Machine.execMin h s
  | .axpy h => Sys2Proof.Machine.execAxpy h s
  | .rowExpSub h => Sys2Proof.Machine.execRowExpSub h s
  | .rowScale h => Sys2Proof.Machine.execRowScale h s
  | .rowDiv h => Sys2Proof.Machine.execRowDiv h s
  | .dropout h => Sys2Proof.Machine.execDropout h s
  | .test h => Sys2Proof.Machine.execTest h s
  | .scaleLoss h => Sys2Proof.Machine.execScaleLoss h s
  | .initUniform h => Sys2Proof.Machine.execInitUniform h s
  | .initNormalBm h => Sys2Proof.Machine.execInitNormalBm h s
  | .initNormalZig h => Sys2Proof.Machine.execInitNormalZig h s
  | .aliasBuild h => Sys2Proof.Machine.execAliasBuild h s
  | .versionBind h => Sys2Proof.Machine.execVersionBind h s
  | .versionUnbind h => Sys2Proof.Machine.execVersionUnbind h s
  | .stepVote h => Sys2Proof.Machine.execStepVote h s
  | .stepApply h => Sys2Proof.Machine.execStepApply h s
  | .scaleSet h => Sys2Proof.Machine.execScaleSet h s
  | .plaitSet h => Sys2Proof.Machine.execPlaitSet h s
  | .rmReduceRecords h => Sys2Proof.Machine.execRmReduceRecords h s
  | .rmReduceDenseSum h => Sys2Proof.Machine.execRmReduceDenseSum h s
  | .rmConvert h => Sys2Proof.Machine.execRmConvert h s
  | .rmOpt h => Sys2Proof.Machine.execRmOpt h s
  | .rmOptTable h => Sys2Proof.Machine.execRmOptTable h s
  | .rmPrune h => Sys2Proof.Machine.execRmPrune h s
  | .fbSend => Sys2Proof.Machine.execFbSend s
  | .allReduce => Sys2Proof.Machine.execAllReduce s
  | .reduceScatter => Sys2Proof.Machine.execReduceScatter s
  | .allGather => Sys2Proof.Machine.execAllGather s
  | .allToAll => Sys2Proof.Machine.execAllToAll s
  | .broadcast => Sys2Proof.Machine.execBroadcast s
  | .barrier => Sys2Proof.Machine.execBarrier s
  | .trFold => Sys2Proof.Machine.execTrFold s
  | .trSync => Sys2Proof.Machine.execTrSync s
  | .writePacket p => Sys2Proof.Machine.execWritePacket p s
  | .collData p mismatches => Sys2Proof.Machine.execCollData p mismatches s
  | .collReady p => Sys2Proof.Machine.execCollReady p s
  | .rowReq p => Sys2Proof.Machine.execRowReq p s
  | .rowReply p => Sys2Proof.Machine.execRowReply p s
  | .bagReq p => Sys2Proof.Machine.execBagReq p s
  | .bagReply p => Sys2Proof.Machine.execBagReply p s
  | .contrib p => Sys2Proof.Machine.execContrib p s
  | .contribStoreWaitDone sess => Sys2Proof.Machine.execContribStoreWaitDone sess s
  | .accept p => Sys2Proof.Machine.execAccept p s
  | .replicaWrite p => Sys2Proof.Machine.execReplicaWrite p s
  | .replicaMark p => Sys2Proof.Machine.execReplicaMark p s
  | .refusal p => Sys2Proof.Machine.execRefusal p s
  | .streamOpen p => Sys2Proof.Machine.execStreamOpen p s
  | .streamAccept p => Sys2Proof.Machine.execStreamAccept p s
  | .join p => Sys2Proof.Machine.execJoin p s
  | .barrierPacket p => Sys2Proof.Machine.execBarrierPacket p s
  | .vote p => Sys2Proof.Machine.execVote p s
  | .abort p => Sys2Proof.Machine.execAbort p s
  | .abortEnd sess group => Sys2Proof.Machine.execAbortEnd sess group s
  | .unknownPacket p => Sys2Proof.Machine.execUnknownPacket p s
  | .collectiveTimeout sess group => Sys2Proof.Machine.execCollectiveTimeout sess group s
  | .decisionTimeout sess => Sys2Proof.Machine.execDecisionTimeout sess s
  | .settleTimeout sess => Sys2Proof.Machine.execSettleTimeout sess s
  | .remoteReplyTimeout req => Sys2Proof.Machine.execRemoteReplyTimeout req s
  | .contribAcceptTimeout h => Sys2Proof.Machine.execContribAcceptTimeout h s
  | .dataFlit port flit => Sys2Proof.Machine.execDataFlit port flit s
  | .idleFlit port flit => Sys2Proof.Machine.execIdleFlit port flit s
  | .nak port seq => Sys2Proof.Machine.execNak port seq s
  | .nakRepeat port => Sys2Proof.Machine.execNakRepeat port s
  | .linkState port peer peerPort incarnation => Sys2Proof.Machine.execLinkState port peer peerPort incarnation s
  | .wiringRetry port => Sys2Proof.Machine.execWiringRetry port s
  | .hold port => Sys2Proof.Machine.execHold port s
  | .resume port => Sys2Proof.Machine.execResume port s
  | .laneFailure port lane => Sys2Proof.Machine.execLaneFailure port lane s
  | .portHoldTimeout port lastAccepted => Sys2Proof.Machine.execPortHoldTimeout port lastAccepted s
  | .linkStateUpdate module live => Sys2Proof.Machine.execLinkStateUpdate module live s
  | .timeExchange offset => Sys2Proof.Machine.execTimeExchange offset s
  | .promotion sess table row => Sys2Proof.Machine.execPromotion sess table row s
  | .flashFetchDone sess table row outcome => Sys2Proof.Machine.execFlashFetchDone sess table row outcome s
  | .forcedFoldAge sess => Sys2Proof.Machine.execForcedFoldAge sess s
  | .forcedFoldFull sess => Sys2Proof.Machine.execForcedFoldFull sess s
  | .backgroundFold h => Sys2Proof.Machine.execBackgroundFold h s
  | .stagingProgram h => Sys2Proof.Machine.execStagingProgram h s
  | .writeBackStage sess table row => Sys2Proof.Machine.execWriteBackStage sess table row s
  | .reclamation ch => Sys2Proof.Machine.execReclamation ch s
  | .flashPatrol ch die block relocate => Sys2Proof.Machine.execFlashPatrol ch die block relocate s
  | .readDisturbRelocate ch die block => Sys2Proof.Machine.execReadDisturbRelocate ch die block s
  | .programEraseFail ch die block => Sys2Proof.Machine.execProgramEraseFail ch die block s
  | .wearThrottleEnd => Sys2Proof.Machine.execWearThrottleEnd s
  | .hbmRetrain pc laneErrors => Sys2Proof.Machine.execHbmRetrain pc laneErrors s
  | .hbmPatrolScrub pc sector symbols => Sys2Proof.Machine.execHbmPatrolScrub pc sector symbols s
  | .sramScrub h row bits => Sys2Proof.Machine.execSramScrub h row bits s
  | .telemetrySample stackTemps coolantOut => Sys2Proof.Machine.execTelemetrySample stackTemps coolantOut s
  | .stackStopTimeout req => Sys2Proof.Machine.execStackStopTimeout req s
  | .bucketDrain row unit => Sys2Proof.Machine.execBucketDrain row unit s
  | .unitWatchdog unit => Sys2Proof.Machine.execUnitWatchdog unit s
  | .bridgeLoss channel => Sys2Proof.Machine.execBridgeLoss channel s
  | .heartbeat h => Sys2Proof.Machine.execHeartbeat h s
  | .leaseRenewal h epoch => Sys2Proof.Machine.execLeaseRenewal h epoch s
  | .leaseRequest answered => Sys2Proof.Machine.execLeaseRequest answered s
  | .leaseGrant => Sys2Proof.Machine.execLeaseGrant s
  | .followerProbe answered => Sys2Proof.Machine.execFollowerProbe answered s
  | .splitLeaseClaim epochWest epochEast => Sys2Proof.Machine.execSplitLeaseClaim epochWest epochEast s
  | .processorRejoin h => Sys2Proof.Machine.execProcessorRejoin h s
  | .handleWatchdogRestart => Sys2Proof.Machine.execHandleWatchdogRestart s
  | .auxPowerGood outcome => Sys2Proof.Machine.execAuxPowerGood outcome s
  | .mainInputInRange mv outcome => Sys2Proof.Machine.execMainInputInRange mv outcome s
  | .modReset low outcome => Sys2Proof.Machine.execModReset low outcome s
  | .holdOffAssert => Sys2Proof.Machine.execHoldOffAssert s
  | .holdOffRelease outcome => Sys2Proof.Machine.execHoldOffRelease outcome s
  | .mainInputLoss mv => Sys2Proof.Machine.execMainInputLoss mv s
  | .overvoltageOrRailFault overvoltage mv => Sys2Proof.Machine.execOvervoltageOrRailFault overvoltage mv s
  | .modPresentOpen => Sys2Proof.Machine.execModPresentOpen s
  | .referenceLost => Sys2Proof.Machine.execReferenceLost s
  | .referenceRestored => Sys2Proof.Machine.execReferenceRestored s
  | .governorInterval watts => Sys2Proof.Machine.execGovernorInterval watts s
  | .powerEstimateUpdate h watts => Sys2Proof.Machine.execPowerEstimateUpdate h watts s
  | .rampStep => Sys2Proof.Machine.execRampStep s
  | .engineIdle inst => Sys2Proof.Machine.execEngineIdle inst s
  | .junctionSensorRead west east => Sys2Proof.Machine.execJunctionSensorRead west east s
  | .thermalThrottleStep => Sys2Proof.Machine.execThermalThrottleStep s
  | .tokenBucketRefill => Sys2Proof.Machine.execTokenBucketRefill s
  | .memoryZeroed fn tag => Sys2Proof.Machine.execMemoryZeroed fn tag s
  | .pldmRequest ptype sensor => Sys2Proof.Machine.execPldmRequest ptype sensor s
  | .entdaa address => Sys2Proof.Machine.execEntdaa address s
  | .smbusFirstAddress address => Sys2Proof.Machine.execSmbusFirstAddress address s
  | .readConfig => Sys2Proof.Machine.execReadConfig s
  | .writeConfig cfg => Sys2Proof.Machine.execWriteConfig cfg s
  | .writeMap dims coords => Sys2Proof.Machine.execWriteMap dims coords s
  | .installRoot key => Sys2Proof.Machine.execInstallRoot key s
  | .installKek payload root sig => Sys2Proof.Machine.execInstallKek payload root sig s
  | .installCoilKey payload root sig => Sys2Proof.Machine.execInstallCoilKey payload root sig s
  | .revokeCoilKey payload root sig => Sys2Proof.Machine.execRevokeCoilKey payload root sig s
  | .readIdentity => Sys2Proof.Machine.execReadIdentity s
  | .pipeTileArrival inst => Sys2Proof.Machine.execPipeTileArrival inst s
  | .auxPowerLoss => Sys2Proof.Machine.execAuxPowerLoss s
  | .vfEnable numVfs => Sys2Proof.Machine.execVfEnable numVfs s
  | .managementReset outcome => Sys2Proof.Machine.execManagementReset outcome s
  | .pcieCompletionTimeout lo hi => Sys2Proof.Machine.execPcieCompletionTimeout lo hi s

end Sys2Proof.Machine
end

