-- ==== Sys2Proof/WellFormed.lean ====
section
/-! DEFINITION. Which commands are well formed: the operands that a sender can give at all, by the widths and ranges the spec
states. The meanings are total and do not rest on these checks. -/

namespace Sys2Proof

/-- A function number: PF0 or VF1 to VF255 (02 R56). -/
def functionOk (fn : Nat) : Bool := decide (fn ≤ 255)

/-- An access of a BAR: BAR0 of a function is 64 KiB, and PF0 alone has BAR2 of 16 MiB (02 R56, R57). -/
def accessOk (bar fn offset size : Nat) : Bool :=
  [1, 2, 4, 8].contains size && (bar == 0 && decide (offset + size ≤ 2 ^ 16) || bar == 2 && fn == 0 && decide (offset + size ≤ 2 ^ 24))

/-- A packet carries at most 4,096 B of data (11 R563). -/
def packetOk (p : Packet) : Bool := decide (p.data.length ≤ 4096)

/-- A flit is 256 B (11 R554). -/
def flitOk (flit : List Byte) : Bool := flit.length == 256

/-- An outcome of the upsett sequence names units of 13 Table 13.1, eight stacks and twelve ports (14 R669). -/
def outcomeOk (o : UpsettOutcome) : Bool :=
  o.failedUnits.all Machine.unitKnown && o.spareLanes.length == 8 && o.lanes.length == 12

/-- A signed key message: a P-384 point and a signature of 96 B each (15 R706). -/
def signedOk (root sig : List Byte) : Bool := root.length == 96 && sig.length == 96

/-- The well-formed commands. -/
def Instr.wf : Instr → Bool
  | .mbxSqDoorbell fn _ | .mbxCqDoorbell fn _ | .enableSet fn | .enableClear fn | .ringReset fn | .mbxErrClear fn _
  | .mbxTimeLoRead fn | .submissionFetch fn | .noticeWrite fn | .completionIntCoalTimer fn | .telemetryIntTimer fn
  | .interimQueued fn _ | .reservedOpcode fn _ | .identificationQuery fn _ | .openSession fn _ | .authResponse fn _
  | .closeSession fn _ | .keepalive fn _ | .allocMem fn _ | .freeMem fn _ | .mapHost fn _ | .createTable fn _
  | .createGraph fn _ | .setOwnership fn _ | .destroyObject fn _ | .loadCoil fn _ | .submitList fn _ | .cancelList fn _
  | .joinGroup fn _ | .joinGroupTimeout fn _ | .openPeerStream fn _ | .openPeerStreamTimeout fn _ | .tierSync fn _
  | .saveContext fn _ | .restoreContext fn _ | .queryCountersSplint fn _ | .queryCountersWeave fn _
  | .queryCountersRim fn _ | .queryCountersMemory fn _ | .queryCountersTier fn _ | .queryCountersFabric fn _
  | .queryCountersQuota fn _ | .queryCountersReserved fn _ | .readFlags fn _ | .clearFlags fn _ | .setTenantKey fn _
  | .setQuota fn _ | .setPolicy fn _ | .fwUpdate fn _ | .fwUpdateActivate fn _ | .fwUpdateRecover fn _
  | .resetUnit fn _ | .retireUnit fn _ | .rekeyHbm fn _ | .readErrorLog fn _ | .functionLevelReset fn | .listEnd fn _
  | .memoryZeroed fn _ => functionOk fn
  | .registerWrite bar fn offset size _ => functionOk fn && accessOk bar fn offset size
  | .nonceExpiry _ | .sessionIdleExpiry _ | .lockoutEnd _ | .contextWaitServe | .fwFollowerHealthy | .fwActivationDone
  | .fwPhaseTimeout | .perst | .taskChoice _ | .preempt _ | .reservedEngineOpcode _ | .syWait _ | .syWaitTimeout _
  | .sySignal _ | .syDelay _ | .delayEntryExpiry _ | .delayEntryFreed _ | .wvMatmul _ | .wvEdge | .edgeTileArrival _
  | .weaveDoneHandshake _ | .columnDisable | .spGather _ | .spScatter _ | .spRun _ | .chunkClaim _ | .chunkApply _
  | .sortWindowIssue _ | .hbmAccessDone _ _ | .aluAdd _ _ _ _ | .aluSub _ _ _ _ | .aluAnd _ _ _ _ | .aluOr _ _ _ _
  | .aluXor _ _ _ _ | .aluShl _ _ _ _ | .aluShr _ _ _ _ | .aluSar _ _ _ _ | .aluMul _ _ _ _ | .aluMulhu _ _ _ _
  | .aluMinu _ _ _ _ | .aluMaxu _ _ _ _ | .aluMins _ _ _ _ | .aluMaxs _ _ _ _ | .aluSltu _ _ _ _ | .aluSlts _ _ _ _
  | .addi _ _ _ _ | .andi _ _ _ _ | .ori _ _ _ _ | .xori _ _ _ _ | .shli _ _ _ _ | .shri _ _ _ _ | .sari _ _ _ _
  | .lih _ _ _ _ | .ld1 _ _ _ _ | .ld2 _ _ _ _ | .ld4 _ _ _ _ | .ld8 _ _ _ _ | .beq _ _ _ _ | .bne _ _ _ _
  | .blts _ _ _ _ | .bges _ _ _ _ | .bltu _ _ _ _ | .bgeu _ _ _ _ | .jmp _ _ | .rnd _ _ _ _ _ | .etile _ _ _ _ _
  | .grow _ _ _ _ | .eclose _ | .coilEnd _ | .smSample _ | .copy _ | .relu _ | .leakyRelu _ | .gelu _ | .sigmoid _
  | .tanh _ | .exp _ | .log _ | .sqrt _ | .recip _ | .add _ | .sub _ | .mul _ | .div _ | .max _ | .min _ | .axpy _
  | .rowExpSub _ | .rowScale _ | .rowDiv _ | .dropout _ | .test _ | .scaleLoss _ | .initUniform _ | .initNormalBm _
  | .initNormalZig _ | .aliasBuild _ | .versionBind _ | .versionUnbind _ | .stepVote _ | .stepApply _ | .scaleSet _
  | .plaitSet _ | .rmReduceRecords _ | .rmReduceDenseSum _ | .rmConvert _ | .rmOpt _ | .rmOptTable _ | .rmPrune _
  | .fbSend | .allReduce | .reduceScatter | .allGather | .allToAll | .broadcast | .barrier | .trFold | .trSync
  | .contribStoreWaitDone _ | .abortEnd _ _ | .collectiveTimeout _ _ | .decisionTimeout _ | .settleTimeout _
  | .remoteReplyTimeout _ | .contribAcceptTimeout _ | .nak _ _ | .nakRepeat _ | .linkState _ _ _ _ | .wiringRetry _
  | .hold _ | .resume _ | .laneFailure _ _ | .portHoldTimeout _ _ | .linkStateUpdate _ _ | .timeExchange _
  | .promotion _ _ _ | .flashFetchDone _ _ _ _ | .forcedFoldAge _ | .forcedFoldFull _ | .backgroundFold _
  | .stagingProgram _ | .writeBackStage _ _ _ | .reclamation _ | .wearThrottleEnd | .hbmRetrain _ _
  | .hbmPatrolScrub _ _ _ | .sramScrub _ _ _ | .stackStopTimeout _ | .bridgeLoss _ | .heartbeat _ | .leaseRenewal _ _
  | .leaseRequest _ | .leaseGrant | .followerProbe _ | .splitLeaseClaim _ _ | .processorRejoin _
  | .handleWatchdogRestart | .holdOffAssert | .mainInputLoss _ | .overvoltageOrRailFault _ _ | .modPresentOpen
  | .referenceLost | .referenceRestored | .governorInterval _ | .powerEstimateUpdate _ _ | .rampStep | .engineIdle _
  | .junctionSensorRead _ _ | .thermalThrottleStep | .tokenBucketRefill | .pldmRequest _ _ | .entdaa _
  | .smbusFirstAddress _ | .readConfig | .writeConfig _ | .readIdentity | .pipeTileArrival _ | .auxPowerLoss => true
  | .unitResetEnd unit _ => Machine.unitKnown unit
  | .vfDisable numVfs => functionOk numVfs
  | .weavePatternTest _ failing => failing.all (· < 33)
  | .replyDelivery _ badLanes => badLanes.all (fun l => l.1 < 4)
  | .sampleReq p | .sampleReply p | .writePacket p | .collData p _ | .collReady p | .rowReq p | .rowReply p | .bagReq p
  | .bagReply p | .contrib p | .accept p | .replicaWrite p | .replicaMark p | .refusal p | .streamOpen p
  | .streamAccept p | .join p | .barrierPacket p | .vote p | .abort p | .unknownPacket p => packetOk p
  | .dataFlit _ flit => flitOk flit
  | .idleFlit _ flit => flitOk flit
  | .flashPatrol _ _ block _ => decide (block < Machine.blocksPerDie)
  | .readDisturbRelocate _ _ block => decide (block < Machine.blocksPerDie)
  | .programEraseFail _ _ block => decide (block < Machine.blocksPerDie)
  | .telemetrySample stackTemps _ => stackTemps.length == 8
  | .bucketDrain row _ => decide (1 ≤ row) && decide (row ≤ 18)
  | .unitWatchdog unit => Machine.unitKnown unit
  | .auxPowerGood outcome => outcomeOk outcome
  | .mainInputInRange _ outcome => outcomeOk outcome
  | .modReset _ outcome => outcomeOk outcome
  | .holdOffRelease outcome => outcomeOk outcome
  | .writeMap dims coords => dims.length == 3 && coords.length == 3
  | .installRoot key => key.length == 96
  | .installKek _ root sig => signedOk root sig
  | .installCoilKey _ root sig => signedOk root sig
  | .revokeCoilKey _ root sig => signedOk root sig
  | .vfEnable numVfs => functionOk numVfs
  | .managementReset outcome => outcomeOk outcome
  | .pcieCompletionTimeout lo hi => decide (lo ≤ hi)

end Sys2Proof
end

