-- ==== Sys2Proof/Safety.lean ====
section
/-! DEFINITION. The words that the statements share: what a sound state is, when a command can stop the machine, and when the
module acts on a command of a mailbox or of an engine. -/

namespace Sys2Proof.Machine

/-- Both memories are in their one canonical form: addresses strictly rising, no byte listed that an unlisted address
reads as. -/
def Sound (s : State) : Prop := Memory.wf s.mem = true ∧ Memory.wf s.hostMem = true

/-- The command is one of a mailbox's registers, the only kind that can stop the machine, and names a function that the module
does not expose (02 R56, R75). -/
def missesBox (s : State) : Instr → Bool
  | .mbxSqDoorbell fn _ | .mbxCqDoorbell fn _ | .enableSet fn | .enableClear fn | .ringReset fn | .mbxErrClear fn _
  | .mbxTimeLoRead fn | .registerWrite _ fn _ _ _ => (findBox s fn).isNone
  | _ => false

/-- The module acts on the command o that is outstanding under a tag of a function: its row can run. The module is READY with a
processor dispatching, and every earlier command of the session is accepted (02 R70, R115; 09 R457; 13 R650). -/
def ActsOn (s : State) (fn : Nat) (tag : U16) (o : Outstanding) : Prop :=
  findOut s fn tag = some o ∧ o.started = false ∧ serving s = true ∧ inOrder s fn o = true

/-- The same for a command of a session's context, with the opcode of its row. -/
def ActsFor (s : State) (fn : Nat) (tag : U16) (op : Byte) (o : Outstanding) (c : Context) : Prop :=
  ActsOn s fn tag o ∧ o.sub.opcode = op ∧ findCtx s o.sub.session = some c

/-- The host takes a write of n bytes at a bus address (01 R718). -/
def HostTakes (s : State) (a n : Nat) : Prop := ∀ i, i < n → refused s (a + i) = false

/-- The command r of context c is the one that an instance's row runs: the first on the instance that the row's test of the
command word selects and whose row has not run, on an instance that is not fenced (03 R142; 13 R644). -/
def Runs (s : State) (inst : EngineInst) (sel : BitVec 512 → Bool) (r : Running) (c : Context) : Prop :=
  (findEngine s inst).running.find? (fun r => sel r.word && !r.started && !instFenced s inst) = some r ∧
    findCtx s r.sess = some c ∧ (inst = .tier → tierFenced s 0 = none ∧ tierFenced s 1 = none)

/-- The coil core with a number is at instruction i of chunk k of the command r: its image has i at the core's program counter,
and fewer than 65,536 instructions have run (06 R306, R338). -/
def CoreAt (s : State) (id : CoreId) (i : CoilInstr) (core : Core) (j : SpJob) (r : Running) (k : Chunk) (c : Context) : Prop :=
  s.cores.find? (fun x => x.id == id) = some core ∧ findJob s core.job = some j ∧ runningOfRef s core.job = some r ∧
    findChunk j core.chunk = some k ∧ findCtx s j.sess = some c ∧
    (∃ img, c.coils.find? (fun x => x.handle == core.coil) = some img ∧ img.at core.pc = some i) ∧ core.executed < 65536

/-- The rows of the coil's ALU functions, its immediate operations, its loads and its branches, by the code of 06 Table 6.10. -/
def aluRows : List (Nat × (CoreId → Reg → Reg → Reg → Instr)) :=
  [(0, .aluAdd), (1, .aluSub), (2, .aluAnd), (3, .aluOr), (4, .aluXor), (5, .aluShl), (6, .aluShr), (7, .aluSar), (8, .aluMul),
   (9, .aluMulhu), (10, .aluMinu), (11, .aluMaxu), (12, .aluMins), (13, .aluMaxs), (14, .aluSltu), (15, .aluSlts)]

def immRows : List (Nat × (CoreId → Reg → Reg → U16 → Instr)) :=
  [(0x02, .addi), (0x03, .andi), (0x04, .ori), (0x05, .xori), (0x06, .shli), (0x07, .shri), (0x08, .sari), (0x09, .lih)]

def loadRows : List (Nat × (CoreId → Reg → Reg → U16 → Instr)) := [(0x10, .ld1), (0x11, .ld2), (0x12, .ld4), (0x13, .ld8)]

def branchRows : List (Nat × (CoreId → Reg → Reg → U16 → Instr)) :=
  [(0x18, .beq), (0x19, .bne), (0x1A, .blts), (0x1B, .bges), (0x1C, .bltu), (0x1D, .bgeu)]

/-- The rows of RM_OP's stream operations, by the OP code of 08 Table 8.1. -/
def rimRows : List (Nat × (Half → Instr)) :=
  [(0x0000, .copy), (0x0001, .relu), (0x0002, .leakyRelu), (0x0003, .gelu), (0x0004, .sigmoid), (0x0005, .tanh), (0x0006, .exp),
   (0x0007, .log), (0x0008, .sqrt), (0x0009, .recip), (0x0010, .add), (0x0011, .sub), (0x0012, .mul), (0x0013, .div), (0x0014, .max),
   (0x0015, .min)] ++
  [(0x0020, .axpy), (0x0100, .rowExpSub), (0x0101, .rowScale), (0x0102, .rowDiv), (0x0200, .dropout), (0x0300, .test),
   (0x0301, .scaleLoss), (0x0400, .initUniform), (0x0401, .initNormalBm), (0x0402, .initNormalZig)]

/-- The packet p of a type arrives at this module, for group g of context c and its present incarnation (11 R565, R566). -/
def Arrives (s : State) (p : Packet) (type : Nat) (c : Context) (g : Group) : Prop :=
  p.type.toNat = type ∧ p.dstMod.toNat = myNumber s ∧ groupOfPacket (takePacket s p) p = some (c, g) ∧
    p.incarn = s.faults.moduleIncarnation

/-- The work that a packet brings finds its context resident, in state t as c' (12 R610, R615). -/
def Wakes (s : State) (p : Packet) (c : Context) (t : State) (c' : Context) : Prop :=
  activateByPacket (takePacket s p) c.sess = (t, true) ∧ findCtx t c.sess = some c'

/-- The error log holds at most 16,384 records, numbered without a gap up to the next number (13 R665). -/
def LogInOrder (s : State) : Prop :=
  s.faults.log.length ≤ 16384 ∧
    ∀ i r, s.faults.log[i]? = some r → r.index + s.faults.log.length = s.faults.nextIndex + i

/-- The rows of FB_COLL, by KIND (11 R583). -/
def collRows : List (Nat × Instr) := [(0, .allReduce), (1, .reduceScatter), (2, .allGather), (3, .allToAll), (4, .broadcast), (5, .barrier)]

/-- The rows of packets that a group's context takes up on its own, by TYPE (11 Table 11.6): all but those of the sentinel's path and
a collective's readiness and data. -/
def packetRows : List (Nat × (Packet → Instr)) :=
  [(0x01, .writePacket), (0x04, .rowReq), (0x05, .rowReply), (0x06, .bagReq), (0x07, .bagReply), (0x08, .sampleReq), (0x09, .sampleReply),
   (0x0A, .contrib), (0x0B, .replicaWrite), (0x0C, .replicaMark), (0x0F, .refusal), (0x10, .accept), (0x11, .streamOpen),
   (0x12, .streamAccept), (0x13, .join)]

/-- The packet p of a type on the sentinel's path arrives and goes on in state t, where group g of context c takes it up, of an axis
(11 R596). -/
def Floods (s : State) (p : Packet) (type : Nat) (t : State) (c : Context) (g : Group) (axis : Nat) : Prop :=
  p.type.toNat = type ∧ p.dstMod.toNat = myNumber s ∧ p.incarn = s.faults.moduleIncarnation ∧ t = forwardFlood (takePacket s p) p ∧
    groupOfPacket t p = some (c, g) ∧ g.members.contains p.srcMod.toNat = true ∧ ∃ neg n, floodFrom t p = some (axis, neg, n)

/-- The rows of the interleave's key are those of a 9 × 9 matrix with ones on the diagonal and zeros above it (09 R450). -/
def UnitLower (a : List (BitVec 9)) : Prop :=
  a.length = 9 ∧ ∀ i j, i < 9 → j < 9 → (i = j → (nthD 0 a i).getLsbD j = true) ∧ (i < j → (nthD 0 a i).getLsbD j = false)

end Sys2Proof.Machine
end

