-- ==== Sys2Proof/Certificates/Slice0/Obligations.lean ====
section
/-! DEFINITION. The statements about the model, each citing the rule of the spec that it formalises. -/

open Sys2Proof Sys2Proof.Machine


/-- A step takes the command at the front of the queue and runs it on the state with the queue's rest. On an empty queue a step
is a nanosecond of module time, 1 ns further unless the module slews to its parent (log entry 1). -/
def Obligations.StepRunsFrontCommand : Prop :=
  (∀ (s : State) (c : Instr) (rest : List Instr), s.pending = c :: rest → step s = exec c { s with pending := rest }) ∧
  (∀ s : State, s.pending = [] → step s = .next (tick s) ∧ (tick s).pending = [] ∧
    (s.fabric.slewNs = 0 → (tick s).now = s.now + 1) ∧ (tick s).now ≤ s.now + 2 ∧ s.now ≤ (tick s).now)

/-- What the spec states for reset: registers of PF0's mailbox at the values of 02 Table 2.2, TEL_SEQ 0, the epoch 1 with West
leading, and nothing waiting. The machine right after reset is sound. -/
def Obligations.ResetLeavesTableValues : Prop :=
  (State.reset.pending = [] ∧ State.reset.mstate = .upsett ∧ State.reset.boxes = [Mailbox.fresh 0] ∧
  State.reset.sessions = [] ∧ State.reset.contexts = [] ∧ State.reset.lists = [] ∧ State.reset.tel.seq = 0 ∧
  State.reset.lead.epoch = 1 ∧ State.reset.lead.leader = .west ∧
  ∀ fn, (Mailbox.fresh fn).enable = false ∧ (Mailbox.fresh fn).err = 0 ∧ (Mailbox.fresh fn).halted = false ∧
    (Mailbox.fresh fn).count = 1 ∧ (Mailbox.fresh fn).sqLog2 = 6 ∧ (Mailbox.fresh fn).cqLog2 = 6 ∧
    (Mailbox.fresh fn).sqBase = 0 ∧ (Mailbox.fresh fn).cqBase = 0 ∧ (Mailbox.fresh fn).phase = true) ∧
  (Sound State.reset)

/-- Every step from a sound state to a next state ends in a sound state. -/
def Obligations.StepKeepsSound : Prop := ∀ s t : State, Sound s → step s = .next t → Sound t

/-- A command's effect leaves the queue as it was, and only a register access to a function that the module does not expose
stops the machine: every other command has a next state. -/
def Obligations.EveryCommandAnswers : Prop :=
  ∀ (c : Instr) (s : State),
    if missesBox s c = true then exec c s = .fault .noSuchFunction else ∃ t, exec c s = .next t ∧ t.pending = s.pending

/-- No step lowers the fused minimum security version (13 R659), changes the hash of the operator root key once it is written
(15 R706), gives the epoch the value 0 (13 R648), or takes a number of the error log twice, or keeps more than 16,384 of its
records (13 R665). -/
def Obligations.NoStepGoesBack : Prop :=
  ∀ s t : State, step s = .next t →
    s.fw.fusedMinimum ≤ t.fw.fusedMinimum ∧ (∀ k, s.mgmt.rootHash = some k → t.mgmt.rootHash = some k) ∧
    (s.lead.epoch ≠ 0 → t.lead.epoch ≠ 0) ∧ s.faults.nextIndex ≤ t.faults.nextIndex ∧ (LogInOrder s → LogInOrder t)

/-- A submission doorbell within the free span, or equal to the last tail written, becomes the tail; any other is ignored, sets
SQ_TAIL_BAD and halts the mailbox, and vector 1 fires when the bit was clear (02 R66, R121). A completion doorbell releases the
written completions up to its head, and with them the slot of a notice that it passes; one that names a completion not written
sets CQ_HEAD_BAD and halts (02 R68, R71, R118). What is held is then written as far as there is room. -/
def Obligations.DoorbellsMoveTheRings : Prop :=
  (∀ (s : State) (fn : Nat) (v : U32) (b : Mailbox), findBox s fn = some b →
    let n := b.sqSize
    let t := v.toNat % 4096
    let last := b.sqTail % n
    let free := (b.sqHead % n + n - 1 + n - last) % n
    let inSpan := t < n ∧ (t = last ∨ ∃ k, 1 ≤ k ∧ k ≤ free ∧ t = (last + k) % n)
    exec (.mbxSqDoorbell fn v) s = .next (setBox s fn (sqDoorbell v)) ∧
    (inSpan → sqDoorbell v b = { b with sqTail := t }) ∧
    (¬ inSpan → sqDoorbell v b = { b with err := b.err ||| 0x02, halted := true,
                                          vector1 := if b.err.getLsbD 1 then b.vector1 else b.vector1 + 1 })) ∧
  (∀ (s : State) (fn : Nat) (v : U32) (b : Mailbox), findBox s fn = some b →
    let n := b.cqSize
    let h := v.toNat % 4096
    let released := (h + n - b.cqHead % n) % n
    exec (.mbxCqDoorbell fn v) s = .next (flush (setBox s fn (cqDoorbell v)) fn) ∧
    (h < n → released ≤ b.unreleased →
      (cqDoorbell v b).cqHead = b.cqHead + released ∧ (cqDoorbell v b).cqHead % n = h ∧
      (cqDoorbell v b).unreleased + released = b.unreleased ∧ (cqDoorbell v b).err = b.err ∧
      (∀ x, b.noticeSlot = some x → (cqDoorbell v b).noticeSlot = if x < b.cqHead + released then none else some x)) ∧
    (n ≤ h ∨ b.unreleased < released →
      cqDoorbell v b = { b with err := b.err ||| 0x10, halted := true,
                                vector1 := if b.err.getLsbD 4 then b.vector1 else b.vector1 + 1 }))

/-- ENABLE from 0 to 1 with a good configuration enables the mailbox, and leaves it halted only when a ring error is still set;
with a bad one it also sets CONFIG_BAD and halts; written as 1 over 1 it changes nothing; written as 0 it stops the mailbox.
RING_RESET returns the indices to 0 and PHASE to 1; while a command is outstanding it sets RESET_BUSY and changes no index (02
R62, R67, R71-R73). Bits of MBX_ERR are cleared by writing 1; a read of MBX_TIME_LO returns module time in whole µs and latches
its high word; a register write of another size than 32 bits, unaligned, or to BAR2 is ignored; the ring base and size registers
take a write while ENABLE is 0 and ignore it while ENABLE is 1 (02 R57, R59, R61, R63). -/
def Obligations.RegistersTakeTheirWrites : Prop :=
  (∀ (s : State) (fn : Nat) (b : Mailbox), findBox s fn = some b →
    exec (.enableSet fn) s = .next (flush (setBox s fn enableBox) fn) ∧
    exec (.enableClear fn) s = .next (setBox s fn fun b => { b with enable := false }) ∧
    exec (.ringReset fn) s = .next (flush (setBox s fn resetRings) fn) ∧
    (b.enable = true → enableBox b = b) ∧
    (b.enable = false → configOk b = true → enableBox b = { b with enable := true, halted := (b.err &&& 0x1F) != 0 }) ∧
    (b.enable = false → configOk b = false →
      enableBox b = { b with enable := true, err := b.err ||| 0x01, halted := true,
                             vector1 := if b.err.getLsbD 0 then b.vector1 else b.vector1 + 1 }) ∧
    (b.outstandingTags = [] →
      resetRings b = { b with sqHead := 0, sqTail := 0, cqHead := 0, cqTail := 0, phase := true, noticeSlot := none }) ∧
    (b.outstandingTags ≠ [] →
      resetRings b = { b with err := b.err ||| 0x80, vector1 := if b.err.getLsbD 7 then b.vector1 else b.vector1 + 1 })) ∧
  (∀ (s : State) (fn : Nat) (b : Mailbox) (v : U32) (off size bar : Nat), findBox s fn = some b →
    exec (.mbxErrClear fn v) s = .next (setBox s fn fun b => { b with err := b.err &&& ~~~(v.setWidth 8) }) ∧
    (∃ t, exec (.mbxTimeLoRead fn) s = .next t ∧ t.busRead.toNat = s.now / 1000 % 2 ^ 32 ∧
      ((findBox t fn).map fun b => b.timeHi.toNat) = some (s.now / 1000 / 2 ^ 32 % 2 ^ 32)) ∧
    ((bar ≠ 0 ∨ size ≠ 4 ∨ off % 4 ≠ 0) → exec (.registerWrite bar fn off size v) s = .next s) ∧
    (off % 4 = 0 → exec (.registerWrite 0 fn off 4 v) s = .next (flush (setBox s fn (writeReg s.tel.samples off v)) fn)) ∧
    (off ∈ [0x18, 0x1C, 0x20, 0x24, 0x28] → b.enable = true → writeReg s.tel.samples off v b = b) ∧
    (b.enable = false →
      (writeReg s.tel.samples 0x18 v b).sqBase.setWidth 32 = v &&& 0xFFFFF000 ∧
      ((writeReg s.tel.samples 0x1C v b).sqBase >>> 32).setWidth 32 = v ∧
      (writeReg s.tel.samples 0x20 v b).cqBase.setWidth 32 = v &&& 0xFFFFF000 ∧
      ((writeReg s.tel.samples 0x24 v b).cqBase >>> 32).setWidth 32 = v ∧
      (writeReg s.tel.samples 0x28 v b).sqLog2 = v.setWidth 4 ∧
      (writeReg s.tel.samples 0x28 v b).cqLog2 = (v >>> 8).setWidth 4))

/-- A submission is read from the ring entry at HEAD when two completion slots stay free after two for every outstanding command
and one for notices (02 R64, R69): HEAD moves past it; a command that passes the common checks becomes outstanding, one that
does not completes at once with their status. A read that the host refuses sets SQ_DMA and halts. The completion of an
outstanding command on an enabled mailbox with nothing held and a free slot: one entry of 32 bytes with FINAL 1 and the current
phase is written at TAIL, TAIL advances and PHASE inverts when it wraps; the tag is no longer outstanding (02 R67, R80). While a
mailbox is halted, disabled or without a free slot, a completion that falls due is held and nothing is written; what is held
keeps its order (02 R71, R72). -/
def Obligations.SubmissionsAndCompletionsPass : Prop :=
  (∀ (s : State) (fn : Nat) (b : Mailbox), findBox s fn = some b →
    b.enable = true → b.halted = false → b.sqHead % b.sqSize ≠ b.sqTail → slotsFree b = true →
    let at_ := b.sqBase.toNat + 64 * (b.sqHead % b.sqSize)
    let s1 := setBox s fn fun b => { b with sqHead := (b.sqHead % b.sqSize + 1) % b.sqSize }
    (HostTakes s at_ 64 →
      let u := decodeSubmission (readCells s.hostMem at_ 64)
      (∀ st, commonCheck s fn b u = some st → (s.boxes.filter fun x => x.fn == fn) = [b] →
        exec (.submissionFetch fn) s = .next (post s1 fn (st.toCompletion u.tag true u.quiet))) ∧
      (commonCheck s fn b u = none → (s.boxes.filter fun x => x.fn == fn) = [b] →
        ∃ t, exec (.submissionFetch fn) s = .next t ∧ (findOut t fn u.tag).map (fun o => o.sub) = some u ∧
          (findBox t fn).map (fun b => b.sqHead) = some ((b.sqHead % b.sqSize + 1) % b.sqSize) ∧
          (∀ x, x ≠ fn → findBox t x = findBox s x) ∧ t.mem = s.mem ∧ t.hostMem = s.hostMem ∧ t.contexts = s.contexts)) ∧
    (∀ i, i < 64 → refused s (at_ + i) = true → exec (.submissionFetch fn) s = .next (setBox s fn (raiseErr 0x04)))) ∧
  (∀ (s : State) (fn : Nat) (tag : U16) (st : Status) (b : Mailbox) (o : Outstanding),
    (s.boxes.filter fun x => x.fn == fn) = [b] → findOut s fn tag = some o → b.enable = true → b.halted = false → b.held = [] →
    b.unreleased < b.cqSize → HostTakes s (b.cqBase.toNat + 32 * (b.cqTail % b.cqSize)) 32 →
    let t := complete s fn tag st
    t.hostMem = writeCells s.hostMem (b.cqBase.toNat + 32 * (b.cqTail % b.cqSize))
      (leBytes 2 tag.toNat ++ [st.reason, st.cls] ++
        leBytes 4 (b.sqHead % b.sqSize % 4096 + 2 ^ 30 + (if b.phase then 2 ^ 31 else 0)) ++ leBytes 8 (st.res0 % 2 ^ 64) ++
        leBytes 8 (st.res1 % 2 ^ 64) ++ leBytes 4 (st.detail % 2 ^ 32) ++ leBytes 4 s.lead.epoch.toNat) ∧
    findOut t fn tag = none ∧
    (findBox t fn).map (fun x => (x.cqTail, x.phase, x.held)) =
      some (b.cqTail + 1, (if (b.cqTail + 1) % b.cqSize = 0 then !b.phase else b.phase), []) ∧
    (∀ x, x ≠ fn → findBox t x = findBox s x) ∧ t.mem = s.mem ∧ t.contexts = s.contexts ∧ t.lists = s.lists) ∧
  (∀ (s : State) (fn : Nat) (b : Mailbox) (c : Completion), (s.boxes.filter fun x => x.fn == fn) = [b] →
    (b.enable = false ∨ b.halted = true ∨ b.cqSize ≤ b.unreleased) →
    post s fn c = setBox s fn (fun b => { b with held := b.held ++ [c] }))

/-- A waiting notice is written to the slot kept for notices when that is free, as a completion entry with TAG 0xFFFF, class OK,
reason NOTICE and FINAL 1 (02 R117, R118); on PF0 a TELEMETRY_EVENT notice also fires vector 2 (R122). While the slot is taken,
nothing is written. A waiting notice of the kind and argument of a new one is merged with it, and EPOCH (3) and STATE (4)
notices are replaced by the latest value (02 R118). Vector 0 fires when TIME_US has passed since the first completion not
signalled, and not before (02 R120); vector 2 when PERIOD_MS samples have been taken since it last fired, and never while
PERIOD_MS is 0 (02 R122). -/
def Obligations.NoticesReachTheHost : Prop :=
  (∀ (s : State) (fn : Nat) (b : Mailbox) (n : Notice) (rest : List Notice), findBox s fn = some b → b.notices = n :: rest →
    (∀ x, b.noticeSlot = some x → exec (.noticeWrite fn) s = .next s) ∧
    (b.noticeSlot = none → b.enable = true → b.halted = false → b.unreleased < b.cqSize →
      HostTakes s (b.cqBase.toNat + 32 * (b.cqTail % b.cqSize)) 32 →
      ∃ t, exec (.noticeWrite fn) s = .next t ∧
        (findBox t fn).map (fun x => (x.notices, x.noticeSlot, x.cqTail)) = some (rest, some b.cqTail, b.cqTail + 1) ∧
        t.hostMem = writeCells s.hostMem (b.cqBase.toNat + 32 * (b.cqTail % b.cqSize))
          ([0xFF, 0xFF, 0x80, 0x00] ++ leBytes 4 (b.sqHead % b.sqSize % 4096 + 2 ^ 30 + (if b.phase then 2 ^ 31 else 0)) ++
            leBytes 8 n.kind.toNat ++ leBytes 8 n.arg.toNat ++ leBytes 4 0 ++ leBytes 4 s.lead.epoch.toNat) ∧
        (b.unsignalled + 1 ≥ Nat.max b.count.toNat 1 ∨ b.timeUs = 0 →
          (findBox t fn).map (fun x => x.vector0) = some (b.vector0 + 1)) ∧
        (findBox t fn).map (fun x => x.vector2) = some (if fn = 0 ∧ n.kind = 5 then b.vector2 + 1 else b.vector2))) ∧
  (∀ (kind arg : Nat) (b : Mailbox), kind < 256 →
    let n : Notice := { kind := BitVec.ofNat 8 kind, arg := BitVec.ofNat 64 arg }
    n ∈ (notifyBox kind arg b).notices ∧
    (kind ≠ 3 → kind ≠ 4 → n ∈ b.notices → notifyBox kind arg b = b) ∧
    (kind ≠ 3 → kind ≠ 4 → n ∉ b.notices → (notifyBox kind arg b).notices = b.notices ++ [n]) ∧
    (kind = 3 ∨ kind = 4 →
      (∀ x ∈ (notifyBox kind arg b).notices, x.kind = n.kind → x = n) ∧
      ((b.notices.filter fun x => x.kind == n.kind).length ≤ 1 →
        ((notifyBox kind arg b).notices.filter fun x => x.kind == n.kind).length = 1)) ∧
    (∀ x, x.kind ≠ n.kind → (x ∈ (notifyBox kind arg b).notices ↔ x ∈ b.notices))) ∧
  (∀ (s : State) (fn : Nat) (b : Mailbox), findBox s fn = some b →
    exec (.completionIntCoalTimer fn) s = .next (setBox s fn (coalTimer s.now)) ∧
    exec (.telemetryIntTimer fn) s = .next (setBox s fn (telTimer s.tel.samples)) ∧
    (∀ t0, b.firstUnsignalled = some t0 → t0 + 1000 * b.timeUs.toNat ≤ s.now →
      coalTimer s.now b = { b with unsignalled := 0, firstUnsignalled := none, vector0 := b.vector0 + 1 }) ∧
    (∀ t0, b.firstUnsignalled = some t0 → s.now < t0 + 1000 * b.timeUs.toNat → coalTimer s.now b = b) ∧
    (b.firstUnsignalled = none → coalTimer s.now b = b) ∧
    (b.periodMs ≠ 0 → b.telFired + b.periodMs.toNat ≤ s.tel.samples →
      telTimer s.tel.samples b = { b with vector2 := b.vector2 + 1, telFired := s.tel.samples }) ∧
    (b.periodMs = 0 ∨ s.tel.samples < b.telFired + b.periodMs.toNat → telTimer s.tel.samples b = b))

/-- The identification query answers in every STATE but RESET and DOWN with no session (02 R89, R90). A reserved opcode
completes with BAD_OPCODE, and a reserved group of QUERY_COUNTERS with BAD_PARAM at 0x10 (R82, R91). KEEPALIVE answers module
time in µs and the idle timeout. READ_FLAGS returns the sticky flags of the engines that P0 selects; CLEAR_FLAGS returns them as
they stood and clears those that P0 and P1 select as one action (02 R84; 04 R225). Bit i of the selection is engine i / 5's,
kind i % 5. QUERY_COUNTERS of a group writes that group's record to the buffer of P1 and returns its length (02 R91 and Table
2.6): the context's own counters (06 R341, 07 R390, 08 R447, 09 R501, 10 R547, 11 R601), those that the model does not see
advanced by free amounts (log entry 6), whole µs for a virtual function (12 R622); TAG_DROPS reads 0; LIMIT and USE of every
quota (12 R629). A buffer that is too small is BAD_PARAM. -/
def Obligations.QueriesAnswer : Prop :=
  (∀ (s : State) (fn : Nat) (tag : U16) (o : Outstanding),
    (findOut s fn tag = some o → o.sub.isIdent = true → s.mstate ≠ .reset → s.mstate ≠ .down →
      exec (.identificationQuery fn tag) s = .next (complete s fn tag (stOk1 (identResults s).1 (identResults s).2))) ∧
    (ActsOn s fn tag o → knownOpcode o.sub.opcode.toNat = false →
      exec (.reservedOpcode fn tag) s = .next (complete s fn tag stBadOpcode)) ∧
    (ActsOn s fn tag o → o.sub.opcode = 0x50 →
      (1 ≤ o.sub.p0.toNat % 256 ∧ o.sub.p0.toNat % 256 ≤ 5) ∨ 0x0D ≤ o.sub.p0.toNat % 256 →
      exec (.queryCountersReserved fn tag) s = .next (complete s fn tag (stBadParam 0x10))) ∧
    (∀ x, ActsOn s fn tag o → o.sub.opcode = 0x04 → findSession s o.sub.session = some x →
      exec (.keepalive fn tag) s = .next (complete s fn tag (stOk1 (s.now / 1000) x.idleTimeout)))) ∧
  (∀ (s : State) (fn : Nat) (tag : U16) (o : Outstanding) (c : Context),
    (ActsFor s fn tag 0x51 o c →
      exec (.readFlags fn tag) s = .next (complete s fn tag (stOk0 (c.flags &&& flagMask (P0 o) 31).toNat))) ∧
    (ActsFor s fn tag 0x52 o c →
      exec (.clearFlags fn tag) s = .next (complete
        (setCtx s o.sub.session fun c => { c with flags := c.flags &&& ~~~(flagMask (P0 o) (P1 o)) }) fn tag
        (stOk0 (c.flags &&& flagMask (P0 o) 31).toNat))) ∧
    (∀ e f i, i < 30 → (flagMask e f).getLsbD i = (e.testBit (i / 5) && f.testBit (i % 5)))) ∧
  (∀ (s : State) (fn : Nat) (tag : U16) (o : Outstanding) (c d : Context), ActsFor s fn tag 0x50 o c →
    let s1 := unseenEvents s c.sess
    findCtx s1 c.sess = some d →
    let answers := fun (g : Nat) (i : Instr) (st : State) (bs : List Byte) => o.sub.p0.toNat % 256 = g →
      (P2 o < bs.length → exec i s = .next (complete st fn tag (stBadParam 0x20))) ∧
      (bs.length ≤ P2 o → HostTakes s (P1 o) bs.length →
        exec i s = .next (complete { st with hostMem := writeCells st.hostMem (P1 o) bs } fn tag (stOk0 bs.length)))
    answers 0x06 (.queryCountersSplint fn tag) s1 (wordsOut (wholeUs fn [18, 19] d.splintCtr)) ∧
    answers 0x07 (.queryCountersWeave fn tag) s1 (wordsOut (wholeUs fn [14, 15] d.weaveCtr)) ∧
    answers 0x08 (.queryCountersRim fn tag) s1 (wordsOut (wholeUs fn [13] c.rimCtr)) ∧
    answers 0x09 (.queryCountersMemory fn tag) s1 (wordsOut (wholeUs fn [11, 14] d.memCtr)) ∧
    answers 0x0A (.queryCountersTier fn tag) s1 (wordsOut (wholeUs fn [10, 14] c.tierCtr)) ∧
    answers 0x0B (.queryCountersFabric fn tag) s1 (wordsOut (wholeUs fn [6, 13] (modifyAt (fun _ => 0) 14 d.fabricCtr))) ∧
    answers 0x0C (.queryCountersQuota fn tag) s (wordsOut (quotaRecord s c)) ∧
    (∀ i, i ≠ 3 → d.splintCtr[i]? = c.splintCtr[i]?) ∧ (∀ i, i ≠ 4 → d.memCtr[i]? = c.memCtr[i]?) ∧
    (∀ i, i < 14 → d.weaveCtr[i]? = c.weaveCtr[i]?) ∧ (∀ i, i ≠ 13 → d.fabricCtr[i]? = c.fabricCtr[i]?))

/-- OPEN_SESSION of a tenant that is neither locked out nor at its SESSIONS quota, below the limits of R95, writes a fresh nonce
of 32 bytes to the buffer of P1 and then returns the ID of a new session in PENDING, even for a tenant with no key (02 R95-R97,
R101, R103). -/
def Obligations.OpenSessionMakesPending : Prop :=
  ∀ (s : State) (fn : Nat) (tag : U16) (o : Outstanding), ActsOn s fn tag o → o.sub.opcode = 0x01 →
    let tenant : U32 := BitVec.ofNat 32 (P0 o)
    tenant ≠ 0 → P1 o % 32 = 0 → lockedFor s tenant = none →
    quotaBreach s tenant [(0x01, (s.sessions.filter fun x => x.tenant == tenant).length + 1)] = none →
    s.sessions.length < 4096 → (s.sessions.filter fun x => x.fn == fn && !x.isOpen).length < 16 → HostTakes s (P1 o) 32 →
    let i := newSessionId s
    let n := drawBytes 32 i.2
    let x : Session := { id := i.1, fn := fn, tenant := tenant, isOpen := false, nonce := n.1, openedAt := s.now, idleTimeout := 0,
                         lastActive := s.now }
    exec (.openSession fn tag) s = .next (complete { n.2 with hostMem := writeCells s.hostMem (P1 o) n.1,
                                                              sessions := s.sessions ++ [x] } fn tag (stOk0 i.1.toNat)) ∧
    n.1.length = 32 ∧ (s.generations.length + 2 < 2 ^ 20 → i.1 ≠ 0) ∧ ∀ y ∈ s.sessions, y.id.toNat % 4096 ≠ i.1.toNat % 4096

/-- AUTH_RESPONSE with the right response opens the session and makes its context; with a wrong one it completes with AUTH, the
session is closed and the failure counted against the tenant; after the nonce has expired it completes with NO_SESSION and
counts nothing; a locked-out tenant gets LOCKED_OUT (02 R92, R98-R103). The fifth wrong response within 60 s locks the tenant
out for 10 minutes; fewer do not (02 R102). -/
def Obligations.AuthenticationDecides : Prop :=
  (∀ (s : State) (fn : Nat) (tag : U16) (o : Outstanding) (x : Session), ActsOn s fn tag o → o.sub.opcode = 0x02 →
    findSession s o.sub.session = some x → x.isOpen = false →
    (∀ n, lockedFor s x.tenant = some n → exec (.authResponse fn tag) s = .next (complete s fn tag (stLockedOut n))) ∧
    (lockedFor s x.tenant = none → x.openedAt + 10 * 10 ^ 9 ≤ s.now →
      exec (.authResponse fn tag) s = .next (complete (dropSession s x.id) fn tag stNoSession)) ∧
    (lockedFor s x.tenant = none → s.now < x.openedAt + 10 * 10 ^ 9 → authOk s x o = false →
      exec (.authResponse fn tag) s = .next (complete (countFailure (dropSession s x.id) x.tenant) fn tag stAuth)) ∧
    (lockedFor s x.tenant = none → s.now < x.openedAt + 10 * 10 ^ 9 → authOk s x o = true →
      ∃ (s1 : State) (c : Context), exec (.authResponse fn tag) s =
          .next (complete s1 fn tag (stOk1 (findTenant s x.tenant).idleTimeout (findTenant s x.tenant).ceiling.toNat)) ∧
        s1.contexts = s.contexts ++ [c] ∧ c.sess = x.id ∧ c.tenant = x.tenant ∧ c.allocs = [] ∧ c.flags = 0 ∧ c.slot = none ∧
        (∀ y ∈ s1.sessions, y.id = x.id → y.isOpen = true ∧ y.nonce = []) ∧
        s1 = { s with sessions := s1.sessions, contexts := s1.contexts, draws := s1.draws })) ∧
  (∀ (s : State) (tenant : U32), (findTenant s tenant).lockedUntil = none →
    let recent := ((findTenant s tenant).failures.filter fun x => decide (s.now - x ≤ 60 * 10 ^ 9)).length
    (4 ≤ recent → lockedFor (countFailure s tenant) tenant = some 600) ∧
    (recent < 4 → lockedFor (countFailure s tenant) tenant = none) ∧
    (findTenant (countFailure s tenant) tenant).failures.length = recent + 1)

/-- CLOSE_SESSION ends the session's lists, completes its other commands with SESSION_CLOSED, tears its context down and
completes last with OK, once no FB_COLL of it runs; while one runs it waits (02 R106; 12 R626). Afterwards neither session nor
context exists. A pending session whose nonce is 10 s old is closed without notice (02 R101); an idle session is closed as
CLOSE_SESSION closes it, with a SESSION_EXPIRED notice to its function, after its idle timeout (R105); a lockout that is over is
lifted and the failure count cleared (R104). Before its time none of the three changes anything. -/
def Obligations.SessionsEnd : Prop :=
  (∀ (s : State) (fn : Nat) (tag : U16) (o : Outstanding),
    findOut s fn tag = some o → o.sub.opcode = 0x03 → serving s = true →
    let id := o.sub.session
    (stillRunning (closeLists s id) id = false →
      ∃ t, exec (.closeSession fn tag) s = .next t ∧ t = complete (closeNow (closeLists s id) id (some tag)) fn tag stOk ∧
        findSession t id = none ∧ findCtx t id = none) ∧
    (stillRunning (closeLists s id) id = true →
      exec (.closeSession fn tag) s = .next (markHeld (closeLists s id) fn tag))) ∧
  (∀ s : State,
    (∀ (id : U32) (x : Session), findSession s id = some x →
      (x.isOpen = false → x.openedAt + 10 * 10 ^ 9 ≤ s.now → exec (.nonceExpiry id) s = .next (dropSession s id) ∧
        findSession (dropSession s id) id = none) ∧
      (x.isOpen = true ∨ s.now < x.openedAt + 10 * 10 ^ 9 → exec (.nonceExpiry id) s = .next s) ∧
      (sessionIdle s x = true → x.lastActive + x.idleTimeout * 10 ^ 9 ≤ s.now →
        exec (.sessionIdleExpiry id) s = .next (notify (forceClose s id) x.fn 1 id.toNat) ∧
        findSession (forceClose s id) id = none) ∧
      (sessionIdle s x = false ∨ s.now < x.lastActive + x.idleTimeout * 10 ^ 9 → exec (.sessionIdleExpiry id) s = .next s)) ∧
    (∀ (tenant : U32) (u : Nat), (findTenant s tenant).lockedUntil = some u →
      (u ≤ s.now → exec (.lockoutEnd tenant) s = .next (setTenant s tenant endLockout) ∧
        lockedFor (setTenant s tenant endLockout) tenant = none ∧
        (findTenant (setTenant s tenant endLockout) tenant).failures = []) ∧
      (s.now < u → exec (.lockoutEnd tenant) s = .next s)))

/-- SET_TENANT_KEY stores the unwrapped key, or completes with AUTH and leaves the key when the unwrap fails; with delete set it
removes the key and closes the tenant's sessions; either ends a lockout (02 R104, R107, R108). SET_QUOTA sets the limit of a
resource and returns its use; SET_POLICY sets the ceiling, the idle timeout and the functions; of two for one target the earlier
is overtaken (R87; 12 R605). A function-level reset closes the function's sessions and returns its mailbox to the reset values;
lowering NumVFs does so for the functions that cease to exist and removes them; raising it exposes functions with fresh
mailboxes, up to 255 (02 R56, R74, R75). -/
def Obligations.OperatorSettingsTakeEffect : Prop :=
  (∀ (s : State) (fn : Nat) (tag : U16) (o : Outstanding), ActsOn s fn tag o →
    let tenant : U32 := BitVec.ofNat 32 (P0 o)
    let all : List Outstanding := match findBox s fn with | some b => b.outstanding | none => []
    let same := all.filter fun x => sameTarget x.sub o.sub && x.sub.tag != tag
    let s0 := same.foldl (fun st x => complete st fn x.sub.tag stOvertaken) s
    tenant ≠ 0 →
    (o.sub.opcode = 0x80 → P0 o / 2 ^ 32 % 2 = 0 →
      (∀ key, (s.mgmt.kek.bind fun k => keyUnwrap k (wrappedKey o)) = some key →
        exec (.setTenantKey fn tag) s = .next (complete (setTenant s tenant fun t =>
          { t with key := some key, failures := [], lockedUntil := none }) fn tag stOk)) ∧
      ((s.mgmt.kek.bind fun k => keyUnwrap k (wrappedKey o)) = none →
        exec (.setTenantKey fn tag) s = .next (complete s fn tag stAuth))) ∧
    (o.sub.opcode = 0x80 → P0 o / 2 ^ 32 % 2 = 1 →
      exec (.setTenantKey fn tag) s = .next (complete ((s.sessions.filter fun x => x.tenant == tenant).foldl
        (fun st x => notify (forceClose st x.id) x.fn 2 x.id.toNat)
        (setTenant s tenant fun t => { t with key := none, failures := [], lockedUntil := none })) fn tag stOk)) ∧
    ((same.any fun x => decide (o.order < x.order)) = true →
      (o.sub.opcode = 0x81 → (quotaDefault (P1 o % 256)).isSome → exec (.setQuota fn tag) s = .next (complete s fn tag stOvertaken)) ∧
      (o.sub.opcode = 0x82 → 10 ≤ P1 o / 2 ^ 32 → P1 o / 2 ^ 32 ≤ 86400 →
        exec (.setPolicy fn tag) s = .next (complete s fn tag stOvertaken))) ∧
    ((same.any fun x => decide (o.order < x.order)) = false →
      (o.sub.opcode = 0x81 → (quotaDefault (P1 o % 256)).isSome →
        ∃ s1, exec (.setQuota fn tag) s = .next (complete s1 fn tag (stOk0 (quotaUse s1 tenant (P1 o % 256) none))) ∧
          quotaLimit s1 tenant (P1 o % 256) = P2 o ∧
          ∀ code, code ≠ P1 o % 256 → quotaLimit s1 tenant code = quotaLimit s0 tenant code) ∧
      (o.sub.opcode = 0x82 → 10 ≤ P1 o / 2 ^ 32 → P1 o / 2 ^ 32 ≤ 86400 →
        exec (.setPolicy fn tag) s = .next (complete (setTenant s0 tenant fun t =>
          { t with ceiling := BitVec.ofNat 3 (P1 o), idleTimeout := P1 o / 2 ^ 32,
                   functions := BitVec.ofNat 256 (P2 o + 2 ^ 64 * P3 o + 2 ^ 128 * P4 o + 2 ^ 192 * P5 o) }) fn tag stOk)))) ∧
  (∀ (s : State) (fn n : Nat),
    ((findBox s fn).isSome → exec (.functionLevelReset fn) s = .next (functionReset s 0 fn) ∧
      findBox (functionReset s 0 fn) fn = some (Mailbox.fresh fn) ∧
      ∀ x ∈ (functionReset s 0 fn).sessions, x.fn ≠ fn) ∧
    (n < s.numVfs → ∃ t, exec (.vfDisable n) s = .next t ∧ t.numVfs = n ∧ (∀ f, n < f → findBox t f = none)) ∧
    (s.numVfs ≤ n → exec (.vfDisable n) s = .next s) ∧
    (s.numVfs < n → n ≤ 255 → ∃ t, exec (.vfEnable n) s = .next t ∧ t = { s with numVfs := n, boxes := t.boxes } ∧
      (∀ f, f ≤ s.numVfs → findBox s f ≠ none → findBox t f = findBox s f) ∧
      (∀ f, s.numVfs < f → f ≤ n → findBox s f = none → findBox t f = some (Mailbox.fresh f))))

/-- ALLOC_MEM within quota and capacity returns the base of a new range: aligned to its page, not 0, apart from every other
range of the context, reading as zero (09 R472, R473; 12 R609). MAP_HOST maps pages of the bus in the same way (02 R720). A need
beyond a quota is refused with the quota's code and has no effect on memory (02 R125), and one that waits for memory being
zeroed is held (12 R627). FREE_MEM of a base that an allocation returned: once the lists admitted before it have ended, a range
that nothing uses goes, its bytes read as zero, and one in use completes with IN_USE; before that the command waits (09 R474; 12
R627). When the zeroing has ended, an allocation that waited for it runs. -/
def Obligations.MemoryIsPlacedAndFreed : Prop :=
  (∀ (s : State) (fn : Nat) (tag : U16) (o : Outstanding) (c : Context) (b : Backing),
    let page := pageSize (P1 o / 4 % 4)
    let virt := c.allocs.map fun a => (a.base, a.size)
    let taken := ((allAllocs s).filter fun a => a.backing == b).map fun a => (a.phys, a.size)
    (ActsFor s fn tag 0x10 o c → P0 o ≠ 0 → P0 o % page = 0 → askedBacking (P1 o) = some b →
      (∀ code, quotaBreach s c.tenant (allocNeeds s c b (P0 o)) = some code →
        exec (.allocMem fn tag) s = .next (refuseQuota s c.tenant fn tag code)) ∧
      (quotaBreach s c.tenant (allocNeeds s c b (P0 o)) = none → capacityOk s b (P0 o) false = true →
        (capacityOk s b (P0 o) true = false → exec (.allocMem fn tag) s = .next (markHeld s fn tag)) ∧
        (capacityOk s b (P0 o) true = true → (firstFit page page (P0 o) spaceSize virt).isSome →
          (firstFit 0 page (P0 o) spaceSize taken).isSome →
          ∃ (va : Nat) (s1 : State) (a : Alloc), exec (.allocMem fn tag) s = .next (complete s1 fn tag (stOk0 va)) ∧
            findCtx s1 c.sess = some { c with allocs := c.allocs ++ [a] } ∧ a.base = va ∧ a.size = P0 o ∧ a.page = page ∧
            a.backing = b ∧ a.rd = (P1 o).testBit 5 ∧ a.wr = (P1 o).testBit 6 ∧ va ≠ 0 ∧ va % page = 0 ∧ a.phys % page = 0 ∧
            (∀ x ∈ c.allocs, rangesOverlap va (P0 o) x.base x.size = false) ∧
            (∀ x ∈ allAllocs s, x.backing = b → rangesOverlap a.phys (P0 o) x.phys x.size = false) ∧
            (∀ i, i < P0 o → readCell s1.mem (b.space * spaceSize + a.phys + i) = 0)))) ∧
    (ActsFor s fn tag 0x12 o c → P0 o % (64 * kib) = 0 → P1 o ≠ 0 → P1 o % (64 * kib) = 0 →
      quotaBreach s c.tenant (allocNeeds s c .host (P1 o)) = none →
      (firstFit (64 * kib) (64 * kib) (P1 o) spaceSize virt).isSome →
      ∃ (va : Nat) (s1 : State) (a : Alloc), exec (.mapHost fn tag) s = .next (complete s1 fn tag (stOk0 va)) ∧
        findCtx s1 c.sess = some { c with allocs := c.allocs ++ [a] } ∧ a.base = va ∧ a.size = P1 o ∧ a.backing = .host ∧
        a.phys = P0 o ∧ a.rd = (P2 o).testBit 0 ∧ a.wr = (P2 o).testBit 1 ∧ va ≠ 0 ∧ va % (64 * kib) = 0 ∧ s1.mem = s.mem ∧
        (∀ x ∈ c.allocs, rangesOverlap va (P1 o) x.base x.size = false))) ∧
  (∀ (s : State) (fn : Nat) (tag : U16) (o : Outstanding) (c : Context) (a : Alloc),
    (ActsFor s fn tag 0x11 o c → (c.allocs.find? fun a => a.base == P0 o && freeable c a) = some a →
      (earlierListsEnded s o = false → exec (.freeMem fn tag) s = .next (markHeld s fn tag)) ∧
      (earlierListsEnded s o = true → allocInUse c a = true → exec (.freeMem fn tag) s = .next (complete s fn tag stInUse)) ∧
      (earlierListsEnded s o = true → allocInUse c a = false →
        exec (.freeMem fn tag) s = .next (complete (release s c.sess a) fn tag stOk) ∧
        findCtx (release s c.sess a) c.sess = some { c with allocs := c.allocs.filter fun x => x.base != a.base } ∧
        (a.backing ≠ .host → (∀ i, i < a.size → readCell (release s c.sess a).mem (a.backing.space * spaceSize + a.phys + i) = 0) ∧
          (a.backing, a.size) ∈ (release s c.sess a).hbm.zeroing))) ∧
    (ActsFor s fn tag 0x10 o c → o.held = true →
      exec (.memoryZeroed fn tag) s = .next (allocMem { s with hbm := { s.hbm with zeroing := [] } } fn tag o)) ∧
    (ActsFor s fn tag 0x13 o c → o.held = true →
      exec (.memoryZeroed fn tag) s = .next (createTable { s with hbm := { s.hbm with zeroing := [] } } fn tag o)))

/-- CREATE_TABLE of an allowed shape within quota and capacity enters a table under the next handle, with a two-version region
when it has an optimiser and is not tiered; CREATE_GRAPH enters a graph (05 R229; 09 R476-R482). Page size and place of storage
that the module allocates are its choice (log entry 5). SET_OWNERSHIP gives a table or graph that no command names the map read
from memory, or the map of a graph, and the group joined last before it (09 R487-R490); while a command names the object it
completes with IN_USE, and a bad map with BAD_PARAM and the bad field's offset. LOAD_COIL of an image that passes every rule of
the verifier enters a coil and returns its handle; one that fails completes with VERIFIER naming the rule (06 R331-R333).
DESTROY_OBJECT of an object that no command names removes it: a table with its storage, a group with its streams, a graph, a
coil or a stream (02 Table 2.6; 10 R516; 11 R575); while one names it, IN_USE. -/
def Obligations.ObjectsAreEnteredAndGo : Prop :=
  (∀ (s : State) (fn : Nat) (tag : U16) (o : Outstanding) (c : Context) (h : Nat), nextObjectHandle c = some h →
    (∀ (img : List Byte) (s1 : State), ActsFor s fn tag 0x13 o c →
      let k := tableAsk o
      let p := choose s
      let page := pageSize (p.1 % 3)
      k.rows < missingRow → k.shapeOk = true → tableImage s c k = some img →
      quotaBreach p.2 c.tenant (tableNeeds p.2 c k page) = none →
      capacityAll p.2 (tableHbm p.2 c k page) false = true → capacityAll p.2 (tableHbm p.2 c k page) true = true →
      placeTable (reserveStore p.2 c.sess (storeNeed p.2 c k.optimiser)) c k h page img = some s1 →
      exec (.createTable fn tag) s = .next (complete s1 fn tag (stOk0 h)) ∧
        (k.tiered = false → (c.tables.any fun x => x.handle == h) = false →
          ∃ (d : Context) (t : Table), findCtx s1 c.sess = some d ∧ findTable d h = some t ∧ t.rows = k.rows ∧
            t.rowBytes = k.rowBytes ∧ t.fmt = k.fmt ∧ t.optimiser = k.optimiser ∧ d.nextHandle = c.nextHandle + 1 ∧
            (k.optimiser ≠ 0 → ∃ r ∈ d.regions, r.table = h ∧ r.base = t.storage ∧ r.bytes = (t.rows + 1) * t.stride ∧
              r.inShadow = [] ∧ r.provisional = []))) ∧
    (ActsFor s fn tag 0x14 o c → 1 ≤ P3 o % 512 → P3 o % 512 ≤ 256 →
      quotaBreach s c.tenant [(0x0A, quotaUse s c.tenant 0x0A none + 1)] = none →
      exec (.createGraph fn tag) s = .next (complete (setCtx s c.sess fun c =>
        { c with nextHandle := h + 1, graphs := c.graphs ++ [{ handle := h, offsets := P0 o, neighbours := P1 o, nodes := P2 o,
                                                               relationCount := P3 o % 512, weights := P4 o, relations := P5 o,
                                                               ownership := none, mapOrder := 0 }] }) fn tag (stOk0 h)))) ∧
  (∀ (s : State) (fn : Nat) (tag : U16) (o : Outstanding) (c : Context), ActsFor s fn tag 0x15 o c →
    let h := P0 o % 2 ^ 24
    ((findTable c h).isSome ∨ (c.graphs.any fun g => g.handle == h) = true) →
    (∀ m, P2 o % 2 ^ 24 = 0 → readRanges s c (P1 o) mapEntries 0 0 = .ok m →
      exec (.setOwnership fn tag) s = .next (if objectNamed s c h then complete s fn tag stInUse
        else complete (giveMap s c.sess h o.order (lastGroup c o.order) m) fn tag stOk)) ∧
    (∀ off, P2 o % 2 ^ 24 = 0 → readRanges s c (P1 o) mapEntries 0 0 = .error off →
      exec (.setOwnership fn tag) s = .next (complete s fn tag { stBadParam 0x18 with res0 := off })) ∧
    (∀ m, P2 o % 2 ^ 24 ≠ 0 → ((c.graphs.find? fun g => g.handle == P2 o % 2 ^ 24).bind fun g => g.ownership) = some m →
      exec (.setOwnership fn tag) s = .next (if objectNamed s c h then complete s fn tag stInUse
        else complete (giveMap s c.sess h o.order (lastGroup c o.order) m) fn tag stOk))) ∧
  (∀ (s : State) (fn : Nat) (tag : U16) (o : Outstanding) (c : Context),
    (∀ bs, ActsFor s fn tag 0x20 o c → readVa s c .rd (P0 o) (P1 o) = .ok bs →
      let key := coilKey s (BitVec.ofNat 32 (fieldAt bs 0xC 4))
      let sigOk := match key with
        | some q => ecdsaVerify q (bs.take (bs.length - 96)) (bs.drop (bs.length - 96))
        | none => false
      (∀ d, verifyImage bs c.tenant.toNat key.isSome sigOk = some d →
        exec (.loadCoil fn tag) s = .next (complete s fn tag (stVerifier d))) ∧
      (verifyImage bs c.tenant.toNat key.isSome sigOk = none →
        quotaBreach s c.tenant [(0x0A, quotaUse s c.tenant 0x0A none + 1)] = none →
        ∃ (h : Nat) (s1 : State), exec (.loadCoil fn tag) s = .next (complete s1 fn tag (stOk0 h)) ∧ 0x800000 ≤ h ∧
          (c.coils.length + c.groups.length + c.streams.length < 0x800000 → h < 0x1000000 ∧ h ∉ otherHandles c) ∧
          findCtx s1 c.sess = some { c with coils := c.coils ++ [{ handle := h, cls := fieldAt bs 5 1 % 16, code := coilCode bs }] })) ∧
    (ActsFor s fn tag 0x16 o c →
      let h := P0 o % 2 ^ 24
      ((findTable c h).isSome ∨ (c.graphs.any fun g => g.handle == h) = true ∨ h ∈ otherHandles c) →
      (objectNamed s c h = true → exec (.destroyObject fn tag) s = .next (complete s fn tag stInUse)) ∧
      (objectNamed s c h = false →
        (∀ t, findTable c h = some t → exec (.destroyObject fn tag) s = .next (complete (destroyTable s c.sess t) fn tag stOk)) ∧
        (∀ g, findTable c h = none → findGroup c h = some g →
          exec (.destroyObject fn tag) s = .next (complete (destroyGroup s c.sess g) fn tag stOk)) ∧
        (findTable c h = none → findGroup c h = none →
          ∃ s1, exec (.destroyObject fn tag) s = .next (complete s1 fn tag stOk) ∧
            s1 = setCtx s c.sess fun c => { c with graphs := c.graphs.filter fun g => g.handle != h, coils := c.coils.filter fun k => k.handle != h,
                                                   streams := c.streams.filter fun x => x.handle != h }))))

/-- SUBMIT_LIST of a list that passes the checks, within the ceiling and the LISTS quota, enters a list with its tasks; it is
admitted when the context is or becomes resident, and otherwise the context waits and one interim completion says so (03 R130,
R140; 12 R608-R616; 02 R126). A level above the ceiling, a full LISTS quota and a bad list are refused. The head of the context
wait queue becomes resident when a slot is free or an idle context can be parked (12 R612, R615): it leaves the queue, holds a
slot, and its lists are admitted. Otherwise the queue stays, and freed ways are offered (R617). CANCEL_LIST of a list that has
not ended ends it with CANCELLED and returns RES0 1; of one that has ended, or of none, it returns 0 (02 R86; 03 R179). An
admitted list that has waited longer than 1 ms before any command started gets one interim completion (02 R127). -/
def Obligations.ListsAreAdmittedAndQueued : Prop :=
  (∀ (s : State) (fn : Nat) (tag : U16) (o : Outstanding) (c : Context), ActsFor s fn tag 0x21 o c → P0 o % 64 = 0 →
    let prio := P1 o % 8
    let ceiling := (findTenant s c.tenant).ceiling.toNat
    let quota := quotaBreach s c.tenant [(0x0B, quotaUse s c.tenant 0x0B none + 1)]
    (ceiling < prio → exec (.submitList fn tag) s =
      .next (complete (setTenant s c.tenant fun t => { t with refusedCeiling := t.refusedCeiling + 1 }) fn tag (stCeiling ceiling))) ∧
    (∀ code, prio ≤ ceiling → quota = some code → exec (.submitList fn tag) s = .next (refuseQuota s c.tenant fn tag code)) ∧
    (∀ off, prio ≤ ceiling → quota = none → checkList s c (P0 o) = .error off →
      exec (.submitList fn tag) s = .next (complete s fn tag { stBadParam off with res0 := 1 })) ∧
    (∀ bytes status tasks, prio ≤ ceiling → quota = none → checkList s c (P0 o) = .ok (bytes, status, tasks) →
      let l : CmdList :=
        { uid := s.nextUid, fn := fn, tag := tag, sess := c.sess, base := P0 o, bytes := bytes, status := status, prio := prio,
          order := o.order, readAt := o.readAt, admitted := false, tasks := tasks, started := false, preemptions := 0,
          preempted := false, times := [0, 0, 0, 0, 0, 0, 0], ended := none }
      let s1 := markAccepted { s with nextUid := s.nextUid + 1, lists := s.lists ++ [l] } fn tag
      let a := activate s1 c.sess prio
      (c.slot.isSome → exec (.submitList fn tag) s =
        .next (armWaits (setList (setCtx s1 c.sess fun c => { c with activeAt := s.now }) s.nextUid fun l => { l with admitted := true }))) ∧
      (a.2 = false → exec (.submitList fn tag) s = .next (armWaits (setList a.1 s.nextUid fun l => { l with admitted := true }))) ∧
      (a.2 = true → (s.waitQueue.any fun w => w.1 == c.sess) = false →
        exec (.submitList fn tag) s = .next (interim a.1 fn tag 2 (queuePosition a.1 c.sess))) ∧
      (a.2 = true → (s.waitQueue.any fun w => w.1 == c.sess) = true → exec (.submitList fn tag) s = .next a.1))) ∧
  (∀ (s : State) (w : U32 × Nat × Nat) (rest : List (U32 × Nat × Nat)) (c : Context), s.waitQueue = w :: rest → findCtx s w.1 = some c →
    (∀ n, freeSlot s = some n → ((tenantContexts s c.tenant).filter fun d => d.slot.isSome).length < quotaLimit s c.tenant 0x0D →
      ∃ t, exec .contextWaitServe s = .next t ∧ t = makeResident s w.1 n ∧ (findCtx t w.1).bind (fun d => d.slot) = some n ∧
        (∀ x ∈ t.waitQueue, x.1 ≠ w.1) ∧ (∀ l ∈ t.lists, l.sess = w.1 → l.admitted = true)) ∧
    (tryResident s c = none → exec .contextWaitServe s = .next (offerWays s) ∧ (offerWays s).waitQueue = s.waitQueue)) ∧
  (∀ (s : State) (fn : Nat) (tag : U16) (o : Outstanding),
    (ActsOn s fn tag o → o.sub.opcode = 0x22 →
      let found := s.lists.find? fun l => l.fn == fn && l.tag == BitVec.ofNat 16 (P0 o) && l.sess == o.sub.session
      (∀ l, found = some l → l.ended = none → listFinished s l = false →
        exec (.cancelList fn tag) s = .next (complete (leaveQueue (endList s l.uid (abortEnd s.now 1 0 none)) l.sess) fn tag (stOk0 1))) ∧
      (∀ l, found = some l → l.ended.isSome ∨ listFinished s l = true →
        exec (.cancelList fn tag) s = .next (complete s fn tag (stOk0 0))) ∧
      (found = none → exec (.cancelList fn tag) s = .next (complete s fn tag (stOk0 0)))) ∧
    (∀ l, (s.lists.find? fun l => l.fn == fn && l.tag == tag) = some l → l.admitted = true → l.started = false → l.ended = none →
      10 ^ 6 < sumNat (l.times.drop 1) → exec (.interimQueued fn tag) s = .next (interim s fn tag 3 (listPosition s l))))

/-- A list whose commands have all completed, or that ended early and has nothing running, writes its status record and then its
final completion, and is gone (02 R85; 03 R181, R183); a record that cannot be written is lost. While a command of the list
runs, nothing happens. The list status record is the 64 bytes of 03 Table 3.8. -/
def Obligations.ListEndReportsList : Prop :=
  (∀ (s : State) (fn : Nat) (tag : U16) (l : CmdList) (e : ListEnd), (s.lists.find? fun l => l.fn == fn && l.tag == tag) = some l →
    (l.ended = some e ∨ (l.ended = none ∧ listFinished s l = true ∧ e = okEnd s.now)) →
    let without := fun (st : State) => { st with lists := st.lists.filter fun x => x.uid != l.uid,
                                                 remoteReqs := st.remoteReqs.filter fun q => !(q.type == 1 && q.ref.list == l.uid) }
    ((s.progress.any fun p => p.ref.list == l.uid) = true → exec (.listEnd fn tag) s = .next s) ∧
    ((s.progress.any fun p => p.ref.list == l.uid) = false →
      (l.status = 0 → exec (.listEnd fn tag) s = .next (complete (without s) fn tag (endStatus l e))) ∧
      (∀ c s1, l.status ≠ 0 → findCtx s l.sess = some c → writeVa s c .wr l.status (statusRecord l e) = .ok s1 →
        exec (.listEnd fn tag) s = .next (complete (without s1) fn tag (endStatus l e))) ∧
      (∀ c x, l.status ≠ 0 → findCtx s l.sess = some c → writeVa s c .wr l.status (statusRecord l e) = .error x →
        exec (.listEnd fn tag) s = .next (complete (without s) fn tag (endStatus l e))))) ∧
  (∀ (l : CmdList) (e : ListEnd), l.times.length = 7 →
    (statusRecord l e).length = 64 ∧ fieldAt (statusRecord l e) 0 1 = e.reason.toNat ∧ fieldAt (statusRecord l e) 1 1 = e.cls.toNat ∧
    fieldAt (statusRecord l e) 4 4 = e.fault.toNat ∧ fieldAt (statusRecord l e) 8 4 = e.faultOffset.toNat ∧
    fieldAt (statusRecord l e) 0x10 8 = e.faultInfo.toNat ∧
    (∀ i t, i < 7 → l.times[i]? = some t → fieldAt (statusRecord l e) (0x18 + 4 * i) 4 = Nat.min (t / 1000) (2 ^ 32 - 1)))

/-- SAVE_CONTEXT writes the authenticated area of 4,096 bytes once the earlier lists have ended, and RESTORE_CONTEXT takes back
what it holds: semaphores, generator state, flags and Rim policy (03 R185-R187; 08 R445). An area that fails its check changes
nothing of the context. What a save area holds comes back from it: the 48 semaphores, the generator key, the 32 bases and the
flags (03 Table 3.9). -/
def Obligations.ContextIsSavedAndRestored : Prop :=
  (∀ (s : State) (fn : Nat) (tag : U16) (o : Outstanding) (c : Context), earlierListsEnded s o = true →
    (∀ s1, ActsFor s fn tag 0x41 o c → 4096 ≤ P1 o →
      writeVa s c .wr (P0 o) (saveBody s c fn ++ saveTag (saveBody s c fn)) = .ok s1 →
      exec (.saveContext fn tag) s = .next (complete s1 fn tag (stOk0 4096))) ∧
    (ActsFor s fn tag 0x41 o c → P1 o < 4096 → exec (.saveContext fn tag) s = .next (complete s fn tag stNoMemory)) ∧
    (∀ bs, ActsFor s fn tag 0x42 o c → c.slot.isSome → 4096 ≤ P1 o →
      let s1 := setCtx s c.sess fun c => { c with activeAt := s.now }
      readVa s1 c .rd (P0 o) 4096 = .ok bs →
      (areaOk c bs = true →
        exec (.restoreContext fn tag) s = .next (complete (setCtx (skipOpenSteps s1 c.sess) c.sess (restoreFrom bs)) fn tag stOk)) ∧
      (areaOk c bs = false → exec (.restoreContext fn tag) s = .next (complete s1 fn tag (stBadParam 0x10))))) ∧
  (∀ (s : State) (c : Context) (fn : Nat), c.sems.length = 48 → c.bases.length = 32 →
    let area := saveBody s c fn ++ saveTag (saveBody s c fn)
    (saveBody s c fn).length = 0xFE0 ∧ (restoreFrom area c).sems = c.sems ∧ (restoreFrom area c).plaitKey = c.plaitKey ∧
    (restoreFrom area c).bases = c.bases ∧ (restoreFrom area c).flags = c.flags ∧
    ((saveTag (saveBody s c fn)).length = 32 → areaOk c area = true))

/-- An instance that is not busy fires the next command of the task that the rule of choice gives it: a command with a known
opcode, a good header, readable descriptors and no pipe is then in progress on the instance, and its task has moved past it (03
R135, R142, R169). A command whose header is bad ends its list with BAD_COMMAND. An urgent task that can be chosen above the
running task's level stops the running commands, which wait to resume in their order; one that is not urgent, or not above,
stops nothing (03 R141, R143-R145). -/
def Obligations.TasksAreChosen : Prop :=
  (∀ (s : State) (inst : EngineInst) (l : CmdList) (ti k : Nat) (t : Task) (c : Context) (w : BitVec 512),
    (∃ e ∈ s.engines, e.inst = inst) → engineBusy (findEngine s inst) = false → chooseTask s inst = some (l, ti) →
    ((suspendedOf (findEngine s inst) l.uid).filter fun r => r.ref.task == ti) = [] →
    l.tasks[ti]? = some t → findCtx s l.sess = some c → nextOf s c l t inst = some (k, .ok w) → opcodeOk inst w = true →
    (∀ descs, headerOk t w = true → chainBroken s inst l.uid ti w = false → fetchDescs s c inst w (descFields w) = .ok descs →
      outPipe w = 0 → inPipe w = 0 →
      ∃ u, exec (.taskChoice inst) s = .next u ∧
        (findEngine u inst).running = (findEngine s inst).running ++
          [{ ref := { list := l.uid, task := ti, cmd := k }, sess := l.sess, word := w, descs := descs, firedAt := s.now, started := false }] ∧
        (findEngine u inst).idle = false ∧ (findProgress u { list := l.uid, task := ti, cmd := k }).isSome) ∧
    (headerOk t w = false ∨ chainBroken s inst l.uid ti w = true →
      ∃ u, exec (.taskChoice inst) s = .next u ∧
        ∀ m, findList s l.uid = some m → m.ended = none → ((findList u l.uid).bind fun m => m.ended).map (fun e => e.fault) =
          some (BitVec.ofNat 32 (0x000B + 65536 * inst.unit)))) ∧
  (∀ (s : State) (inst : EngineInst) (l : CmdList) (ti lv : Nat), (∃ e ∈ s.engines, e.inst = inst) →
    runningLevel s (findEngine s inst) = some lv → chooseTask s inst = some (l, ti) →
    (6 ≤ l.prio → lv < l.prio → ((findEngine s inst).running.any fun r => keepsRunning r.word) = false →
      ∃ t, exec (.preempt inst) s = .next t ∧ (findEngine t inst).running = (findEngine s inst).running.filter (fun r => r.isDelay) ∧
        (∀ r ∈ (findEngine s inst).running, r.isDelay = false → ∃ p ∈ (findEngine t inst).suspended, p.1 = r.ref.list ∧ r ∈ p.2) ∧
        t.mem = s.mem ∧ t.contexts = s.contexts) ∧
    (l.prio < 6 ∨ l.prio ≤ lv ∨ ((findEngine s inst).running.any fun r => keepsRunning r.word) = true →
      exec (.preempt inst) s = .next s))

/-- SY_WAIT that has fired completes; SY_SIGNAL adds its increment to a semaphore, modulo 2^32, and completes; SY_DELAY takes an
entry of its half's delay list, or completes at once when its absolute deadline has passed; a command with a reserved opcode
ends its list with BAD_COMMAND (03 R135, R150, R157, R165, R168). A delay list holds at most 960 entries of tenants, sorted by
deadline with equals in the order of their insertion, and one command more waits (03 R165, R168); the first entry acts at the
first tick at or after its deadline and not before (R167); a freed entry goes to the oldest command that waits. When the timeout
of an SY_WAIT that is still next has expired, its conditions are evaluated once more: it completes when they hold, and otherwise
its list ends with WAIT_TIMEOUT (03 R157). -/
def Obligations.SynchronisationActs : Prop :=
  (∀ (s : State) (inst : EngineInst) (r : Running) (c : Context),
    (Runs s inst (fun w => cmdOpcode w == 1) r c → exec (.syWait inst) s = .next (armWaits (shareDone s inst r.ref))) ∧
    (Runs s inst (fun w => cmdOpcode w == 2) r c →
      let sem := fld r.word 0x10 5 0
      let s1 := addSem s r.sess sem (fld r.word 0x14 31 0)
      exec (.sySignal inst) s = .next (armWaits (shareDone s1 inst r.ref)) ∧
        (findCtx s1 r.sess).map (fun d => d.sems) = some (modifyAt (fun v => v + BitVec.ofNat 32 (fld r.word 0x14 31 0)) sem c.sems)) ∧
    (Runs s inst (fun w => cmdOpcode w == 3) r c →
      let time := fld r.word 0x18 63 0 * 1000
      let abs := fld r.word 0x10 0 0 == 1
      let h := delayHalf s inst
      (abs = true → time ≤ s.now → exec (.syDelay inst) s = .next (armWaits (shareDone s inst r.ref))) ∧
      (abs = true → s.now < time → exec (.syDelay inst) s = .next (armWaits (addDelay (markStarted s inst r.ref) h time r.ref false))) ∧
      (abs = false → exec (.syDelay inst) s = .next (armWaits (addDelay (markStarted s inst r.ref) h (s.now + time) r.ref false)))) ∧
    (Runs s inst (fun w => !opcodeOk inst w) r c → exec (.reservedEngineOpcode inst) s = .next (faultCommand s r.ref (errBad inst)))) ∧
  (∀ (s : State) (h : Half),
    (∀ (deadline : Nat) (ref : CmdRef) (b : Bool),
      let t := addDelay s h deadline ref b
      let kind : DelayKind := if b then .timeout ref else .delay ref
      (delayUsed s h < 960 → t.delayWaits = s.delayWaits ∧ ∃ before after, s.delays = before ++ after ∧
        t.delays = before ++ { half := h, deadline := deadline, kind := kind } :: after ∧
        (s.delays.Pairwise (fun a b => a.deadline ≤ b.deadline) →
          (∀ d ∈ before, d.deadline ≤ deadline) ∧ (∀ d ∈ after, deadline < d.deadline))) ∧
      (960 ≤ delayUsed s h → t.delays = s.delays ∧
        t.delayWaits = s.delayWaits ++ [{ half := h, ref := ref, deadline := deadline, isTimeout := b }])) ∧
    (∀ d, (s.delays.find? fun d => d.half == h) = some d →
      let s1 := { s with delays := s.delays.erase d }
      (s.now < alignUp d.deadline s.power.config.tickNs → exec (.delayEntryExpiry h) s = .next s) ∧
      (∀ ref inst, alignUp d.deadline s.power.config.tickNs ≤ s.now → d.kind = .delay ref → delayInst s1 h ref = some inst →
        exec (.delayEntryExpiry h) s = .next (armWaits (shareDone s1 inst ref))) ∧
      (∀ ref, alignUp d.deadline s.power.config.tickNs ≤ s.now → d.kind = .timeout ref →
        exec (.delayEntryExpiry h) s = .next (setTask s1 ref.list ref.task fun t => { t with timedOut := true }))) ∧
    (∀ d, (s.delayWaits.find? fun d => d.half == h) = some d →
      (delayUsed s h < 960 → exec (.delayEntryFreed h) s =
        .next (addDelay { s with delayWaits := s.delayWaits.erase d } h (Nat.max d.deadline s.now) d.ref d.isTimeout)) ∧
      (960 ≤ delayUsed s h → exec (.delayEntryFreed h) s = .next s))) ∧
  (∀ (s : State) (inst : EngineInst) (l : CmdList) (ti k : Nat) (t : Task) (c : Context) (w : BitVec 512),
    ((readyTasks s inst).find? fun p => match p.1.tasks[p.2]? with | some t => t.timedOut | none => false) = some (l, ti) →
    l.tasks[ti]? = some t → findCtx s l.sess = some c → nextOf s c l t inst = some (k, .ok w) → cmdOpcode w = 1 →
    let ref : CmdRef := { list := l.uid, task := ti, cmd := k }
    (waitsHold c w = true → exec (.syWaitTimeout inst) s = .next (armWaits (shareDone
      (fireCommand (setTask s l.uid ti fun t => { t with timedOut := false }) inst l ti t c k w) inst ref))) ∧
    (waitsHold c w = false → exec (.syWaitTimeout inst) s = .next (faultCommand s ref (.code 0x000C inst.unit 0))))

/-- SM_SAMPLE with good fields samples its hops from the picks it has: with all of them it writes its block and completes, else
it asks the owners of the missing nodes; with no seed it completes at once. A request of another module is expanded under this
context's generator and answered; the last reply lets the command go on (05 R237-R264). -/
def Obligations.SampleCommandsRun : Prop :=
  (∀ (s : State) (h : Half) (r : Running) (c : Context) (g : Graph) (sd : Desc) (bs : List Byte),
    Runs s (.sampler h) (fun w => cmdOpcode w == 0x30) r c →
    let w := r.word
    let inst := EngineInst.sampler h
    let fields := 1 ≤ mHops w ∧ mHops w ≤ 8 ∧ mMode w ≤ 2 ∧ fld w 0x20 47 0 ≠ 0 ∧ fld w 0x20 47 0 % 64 = 0 ∧ fld w 0x28 47 0 ≠ 0 ∧
      fld w 0x28 47 0 % 64 = 0
    (¬ fields → exec (.smSample h) s = .next (faultCommand s r.ref (errBad inst))) ∧
    (fields → indexDesc r 0x18 = some sd → (c.graphs.find? fun g => g.handle == fld w 0x10 23 0) = some g →
      readVa s c .rd (fld w 0x20 47 0) 64 = .ok bs →
      let f := decodeFanOut (mHops w) bs
      (fanOutOk c w g f = false → exec (.smSample h) s = .next (faultCommand s r.ref (errBad inst))) ∧
      (fanOutOk c w g f = true → sd.count 1 = 0 → exec (.smSample h) s = .next (armWaits (shareDone s inst r.ref))) ∧
      (∀ seeds q, fanOutOk c w g f = true → sd.count 1 ≠ 0 → readSeeds s c sd = .ok seeds → findProgress s r.ref = some q →
        let x : Expander := { st := s, c := c, g := g, gen := { key := q.plaitKey, bases := q.bases }, mode := mMode w, salt := f.salt,
                              step := mStep w, aliases := f.aliases, coil := c.coils.find? fun k => k.handle == f.coil, withWeights := f.ew }
        let b0 := numberSeeds s (namedHalf w) f g (myNumber s) seeds { used := 0x240 + 8 * f.limit }
        let res := sampleHops x (namedHalf w) f r.ref (myNumber s) f.ks 1 { b0 with ends := [b0.nodes.length] }
        (∀ b s1, res = .ok (.inl b) → writeBlock s c r inst (0x4000 + servingHalf s 4 h.num) seeds.length f b = .ok s1 →
          exec (.smSample h) s = .next (armWaits s1)) ∧
        (∀ hop ms grp s1, res = .ok (.inr (hop, ms)) → findGroup c f.group = some grp →
          askOwners (markStarted s inst r.ref) c r h grp f hop (nthD 0 f.ks (hop - 1)) ms = .ok s1 →
          exec (.smSample h) s = .next (armWaits s1))))) ∧
  (∀ (s : State) (p : Packet) (c : Context) (g : Group) (t : State) (c1 : Context) (gr : Graph),
    Arrives s p 0x08 c g → Wakes s p c t c1 → samplerFenced t = false → servedGraph c1 g = some gr →
    let x : Expander := { st := t, c := c1, g := gr, gen := c1.plaitState, mode := p.a.toNat / 2 ^ 16 % 16, salt := p.a.toNat / 2 ^ 20 % 2 ^ 16,
                          step := p.step.toNat, aliases := 0, coil := none, withWeights := true }
    let es := (requestNodes p).map (serveNode x (myNumber t) (p.a.toNat % 2 ^ 16))
    let s3 := setCtx (setFlags t c1.sess engSampler (es.foldl (fun f e => f ||| e.fl) 0)) c1.sess fun c =>
      { c with fabricCtr := bump c.fabricCtr 10 1 }
    let s4 := (es.flatMap fun e => e.reads).foldl (fun st q => tally st c1.sess 0 q.1 q.2) s3
    exec (.sampleReq p) s =
      .next (sendMessage s4 c1 .west { newPacket s4 g 0x09 p.srcMod.toNat with msg := p.msg, step := p.step } (replyData es)).1) ∧
  (∀ (s : State) (p : Packet) (c : Context) (g : Group) (bs : List Byte) (t : State) (q : RemoteReq),
    Arrives s p 0x09 c g → wholeMessage (takePacket s p) p = some (bs, t) →
    (t.remoteReqs.find? fun q => q.sess == c.sess && q.type == 0x08 && q.msg == p.msg.toNat && q.peer == p.srcMod.toNat) = some q →
    let s1 := { t with remoteReqs := t.remoteReqs.filter fun x => !(x.type == 0x08 && x.msg == q.msg) }
    let new : List RemotePicks := (q.items.zip (replyPicks q.items.length bs)).map fun x =>
      { ref := q.ref, hop := q.hop, node := x.1, picks := x.2, unreached := x.2.isEmpty }
    (q.stopped = true → exec (.sampleReply p) s = .next s1) ∧
    (q.stopped = false → exec (.sampleReply p) s = .next (resumeSample { s1 with remotePicks := s1.remotePicks ++ new } q.ref)))

/-- A node of degree d keeps min(k, d) distinct positions in ascending order in uniform mode, all of them when k is 0xFFFF or at
least d (05 R242, R248); in weighted mode distinct positions, none of weight 0 while the draws have positive weights to choose
from (R243), and from an alias table distinct positions below d, at most k of them (R244). The block that SM_SAMPLE builds is
well formed: its nodes are distinct, no more than NODE_LIMIT, and begin with the distinct seeds in the order in which they came;
each hop has one range of edges for each of its destinations, in order, and every edge's source is a node of the block (05 R249,
R253, R255, R258). -/
def Obligations.SampledBlockIsWellFormed : Prop :=
  (∀ (word : Nat → U32) (d k : Nat),
    (let ps := uniformPicks word d k
     ps.Pairwise (· < ·) ∧ (∀ p ∈ ps, p < d) ∧ ps.length = (if k = 0xFFFF ∨ d ≤ k then d else k)) ∧
    (∀ ws : List U32, ws.length = d → (∀ w ∈ ws, (fp32 w).isFin = true ∧ (fp32 w).isNeg = false) →
      let ps := (smallPicks word ws k).1
      ps.Pairwise (· < ·) ∧ (∀ p ∈ ps, p < d ∧ (fp32 (nthD 0 ws p)).isZero = false) ∧ (k ≠ 0xFFFF → ps.length ≤ k)) ∧
    (∀ (x : Expander) (table fuel : Nat) (ps : List Nat) (bad : Nat), 0 < d → drawAlias x table d k word fuel 0 [] 0 = .ok (ps, bad) →
      ps.Nodup ∧ (∀ p ∈ ps, p < d) ∧ ps.length ≤ k)) ∧
  (∀ (s : State) (x : Expander) (h : Half) (f : FanOut) (ref : CmdRef) (me : Nat) (seeds : List Nat) (b : BlockOut),
    let b0 := numberSeeds s h f x.g me seeds { used := 0x240 + 8 * f.limit }
    sampleHops x h f ref me f.ks 1 { b0 with ends := [b0.nodes.length] } = .ok (.inl b) →
    (b.nodes.map fun p => p.1).Nodup ∧ b.nodes.length ≤ f.limit ∧ b0.nodes <+: b.nodes ∧ (b0.nodes.map fun p => p.1) <+: seeds.eraseDups ∧
    b.hops.length ≤ f.ks.length ∧
    ∀ o ∈ b.hops, o.ptr.length = o.dests + 1 ∧ o.ptr.Pairwise (· ≤ ·) ∧ o.ptr.getLast? = some o.src.length ∧ ∀ i ∈ o.src, i < b.nodes.length)

/-- An ALU or immediate instruction of a coil core writes its result to its register, moves to the next instruction and counts;
a load does so with the zero-extended bytes of context memory, and one that is unaligned or does not translate ends the list
with TRANSLATION; a branch goes to its target when its condition holds; RND draws from the command's generator state (06
R334-R337, Table 6.10). Nothing else of the core changes. The functions of 06 Table 6.10 in terms of numbers: sums, differences
and products modulo 2^64, the high product, unsigned and signed minimum, maximum and comparison, shifts by the low six bits, and
the immediate forms; g0 reads as 0 and discards writes (06 R335). -/
def Obligations.CoilInstructionsRun : Prop :=
  (∀ (s : State) (id : CoreId) (core : Core) (j : SpJob) (r : Running) (k : Chunk) (c : Context) (d a b : Reg) (v : U16) (f : BitVec 11)
    (p : Progress), findProgress s r.ref = some p →
    let x := getReg core.regs a
    let y := getReg core.regs b
    let after := fun (regs : List U64) (pc : Nat) =>
      setCore s core fun z => { z with regs := regs, pc := pc, executed := z.executed + 1 }
    (∀ q ∈ aluRows, CoreAt s id (.alu q.1 d a b) core j r k c →
      exec (q.2 id d a b) s = .next (after (setReg core.regs d (coilAlu q.1 x y)) (core.pc + 1))) ∧
    (∀ q ∈ immRows, CoreAt s id (.imm q.1 d a v) core j r k c →
      exec (q.2 id d a v) s = .next (after (setReg core.regs d (coilImm q.1 x v)) (core.pc + 1))) ∧
    (∀ q ∈ loadRows, CoreAt s id (.ld q.1 d a v) core j r k c →
      let va := (x + v.signExtend 64).toNat
      let n := 2 ^ (q.1 - 0x10)
      (∀ bs, va % n = 0 → va < 2 ^ 48 → readVa s c .rd va n = .ok bs →
        exec (q.2 id d a v) s = .next (after (setReg core.regs d (BitVec.ofNat 64 (leNat bs))) (core.pc + 1))) ∧
      (va % n ≠ 0 ∨ 2 ^ 48 ≤ va →
        exec (q.2 id d a v) s = .next (faultCommand s core.job (.code 0x0002 (CoreId.unit core.id) va)))) ∧
    (∀ q ∈ branchRows, CoreAt s id (.branch q.1 a b v) core j r k c →
      exec (q.2 id a b v) s = .next (after core.regs (if coilTaken q.1 x y then coilTarget core.pc v else core.pc + 1))) ∧
    (CoreAt s id (.branch 0x1E 0 0 v) core j r k c → exec (.jmp id v) s = .next (after core.regs (coilTarget core.pc v))) ∧
    (CoreAt s id (.rnd d a b f) core j r k c →
      exec (.rnd id d a b f) s = .next (after (setReg core.regs d (coilRnd { key := p.plaitKey, bases := p.bases } x y f)) (core.pc + 1)))) ∧
  (∀ (x y : U64) (v : U16) (regs : List U64) (d a : Reg), regs.length = 32 →
    (coilAlu 0 x y).toNat = (x.toNat + y.toNat) % 2 ^ 64 ∧ (coilAlu 1 x y).toNat = (x.toNat + 2 ^ 64 - y.toNat) % 2 ^ 64 ∧
    (coilAlu 8 x y).toNat = x.toNat * y.toNat % 2 ^ 64 ∧ (coilAlu 9 x y).toNat = x.toNat * y.toNat / 2 ^ 64 ∧
    (coilAlu 5 x y).toNat = x.toNat * 2 ^ (y.toNat % 64) % 2 ^ 64 ∧ (coilAlu 6 x y).toNat = x.toNat / 2 ^ (y.toNat % 64) ∧
    (coilAlu 7 x y).toInt = x.toInt / 2 ^ (y.toNat % 64) ∧
    (coilAlu 10 x y).toNat = Nat.min x.toNat y.toNat ∧ (coilAlu 11 x y).toNat = Nat.max x.toNat y.toNat ∧
    (coilAlu 12 x y).toInt = min x.toInt y.toInt ∧ (coilAlu 13 x y).toInt = max x.toInt y.toInt ∧
    coilAlu 14 x y = (if x.toNat < y.toNat then 1 else 0) ∧ coilAlu 15 x y = (if x.toInt < y.toInt then 1 else 0) ∧
    (coilImm 0x02 x v).toNat = (x.toNat + (v.signExtend 64).toNat) % 2 ^ 64 ∧
    (coilImm 0x09 x v).toNat = (x.toNat * 2 ^ 16 + v.toNat) % 2 ^ 64 ∧
    (coilImm 0x07 x v).toNat = x.toNat / 2 ^ (v.toNat % 64) ∧
    getReg regs 0 = 0 ∧ setReg regs 0 x = regs ∧ (setReg regs d x).length = 32 ∧
    (d ≠ 0 → getReg (setReg regs d x) d = x) ∧ (a ≠ d → getReg (setReg regs d x) a = getReg regs a))

/-- ETILE issues a row into the open edge tile and GROW one to memory, ECLOSE closes the tile, and END ends the chunk: its last
tile is sent with LAST set, an empty one when no row was emitted (06 R307-R309, R338). -/
def Obligations.CoilEmissionsRun : Prop :=
  ∀ (s : State) (id : CoreId) (core : Core) (j : SpJob) (r : Running) (k : Chunk) (c : Context) (d a b : Reg) (f : BitVec 11) (s1 : State),
    let x := getReg core.regs a
    let y := getReg core.regs b
    let n := emitBytes f
    (CoreAt s id (.etile d a b f) core j r k c → outPipe r.word ≠ 0 → pipeReady c (outPipe r.word) = true →
      slotsHeld s core.id + ceilDiv n 512 ≤ 1024 → coilEtile s c r core k (getReg core.regs d) x y f = .ok s1 →
      exec (.etile id d a b f) s = .next s1) ∧
    (CoreAt s id (.etile d a b f) core j r k c → outPipe r.word = 0 →
      exec (.etile id d a b f) s = .next (faultCommand s core.job (.code 0x000B (CoreId.unit core.id) 0))) ∧
    (CoreAt s id (.grow a b f) core j r k c → slotsHeld s core.id + ceilDiv n 512 ≤ 1024 →
      (emitByPool f = true → issuePool s c { ref := r.ref, sess := r.sess, splint := core.id, step := fld r.word 0x28 31 0, position := k.num,
                                             dest := .memory y.toNat } x.toNat n = .ok s1 →
        exec (.grow id a b f) s = .next (setCore (addOutstanding s1 r.ref k.num (s1.requests.length - s.requests.length)) core
          fun z => { z with pc := z.pc + 1, executed := z.executed + 1 })) ∧
      (emitByPool f = false → issueAddress s c { ref := r.ref, sess := r.sess, splint := core.id, step := fld r.word 0x28 31 0,
                                                 position := k.num, dest := .memory y.toNat } x.toNat n = .ok s1 →
        exec (.grow id a b f) s = .next (setCore (addOutstanding s1 r.ref k.num (s1.requests.length - s.requests.length)) core
          fun z => { z with pc := z.pc + 1, executed := z.executed + 1 }))) ∧
    (CoreAt s id .eclose core j r k c →
      exec (.eclose id) s = .next (let z := closeTile s r.sess (outPipe r.word) core
        setCore z.1 core fun _ => { z.2 with pc := core.pc + 1, executed := core.executed + 1 }) ∧
      (core.tile = none → exec (.eclose id) s = .next (setCore s core fun _ => { core with pc := core.pc + 1, executed := core.executed + 1 }))) ∧
    (CoreAt s id .fin core j r k c → (outPipe r.word = 0 ∨ pipeReady c (outPipe r.word) = true) →
      ∃ t, exec (.coilEnd id) s = .next t ∧ t = coilFin s r core k ∧
        ∀ z ∈ t.cores, ¬ (z.id = core.id ∧ z.job = core.job ∧ z.chunk = core.chunk))

/-- The chunks of a block hop cover every edge once and in order, hold at most 256 edges each, keep a destination of up to 256
edges whole, and are numbered from 0 (06 R299); the chunks of a stream cover every position once, in runs of at most p (R300,
R304, R326). -/
def Obligations.ChunksCoverEveryEdgeOnce : Prop :=
  (∀ ptr : List Nat, ptr ≠ [] → ptr.Pairwise (· ≤ ·) →
    let ks := cutChunks ptr
    let at_ := fun (i : Nat) => nthD 0 ptr i
    (ks.flatMap fun k => List.range' k.first k.count) = List.range' (at_ 0) (at_ (ptr.length - 1) - at_ 0) ∧
    (ks.map fun k => k.num) = List.range ks.length ∧
    ∀ k ∈ ks, k.count ≤ 256 ∧ 1 ≤ k.destCount ∧ k.destFirst + k.destCount ≤ ptr.length - 1 ∧
      (k.split = false → k.first = at_ k.destFirst ∧ k.first + k.count = at_ (k.destFirst + k.destCount)) ∧
      (k.split = true → k.destCount = 1 ∧ 256 < at_ (k.destFirst + 1) - at_ k.destFirst ∧
        k.first = at_ k.destFirst + 256 * k.splitSeq ∧ k.splitSeq < k.splitCount)) ∧
  (∀ n p : Nat, 0 < p →
    ((rangeChunks n p).flatMap fun k => List.range' k.first k.count) = List.range n ∧
    ∀ k ∈ rangeChunks n p, 1 ≤ k.count ∧ k.count ≤ p)

/-- SP_GATHER, SP_SCATTER and SP_RUN with good fields start on a half: the first half makes the job with its chunks, the other
joins it; a gather's chunks are claimed and their rows issued (06 R292-R306, R314-R328; 03 R132). Fields that break a rule end
the list with BAD_COMMAND. A Splint in service claims the next chunk of its half's part, or the last of the other's, and begins
it: a coil program with its entry registers, the rows of a scatter-reduce chunk, or the rows of a gather (06 R302, R303, R306).
A finished chunk applies its sums in its turn, and its unit completes (06 R318, R319, R327). -/
def Obligations.SplintCommandsRun : Prop :=
  (∀ (s : State) (h : Half) (r : Running) (c : Context),
    let inst := EngineInst.splints h
    let begun := fun (st : State) (j : SpJob) => finishJob (markStarted { st with jobs := st.jobs ++ [j] } inst r.ref) r.ref
    (Runs s inst (fun w => cmdOpcode w == 0x20) r c →
      (gatherOk r = false → exec (.spGather h) s = .next (faultCommand s r.ref (errBad inst))) ∧
      (gatherOk r = true → (∃ j, findJob s r.ref = some j) →
        exec (.spGather h) s = .next (armWaits ((allCores h ++ allCores h).foldl chunkClaim (finishJob (markStarted s inst r.ref) r.ref)))) ∧
      (∀ ix, gatherOk r = true → findJob s r.ref = none → gPooled r.word = false → indexDesc r 0x10 = some ix →
        exec (.spGather h) s = .next (armWaits ((allCores h ++ allCores h).foldl chunkClaim
          (begun s (newJob s r (fld r.word 0x30 31 0) (rangeChunks (ix.count 1) 256) (ix.count 1)))))) ∧
      (∀ ix b d s1 j s2, gatherOk r = true → findJob s r.ref = none → gPooled r.word = true → indexDesc r 0x10 = some ix →
        r.desc 0x28 = some b → r.desc 0x18 = some d → planBags s c r inst ix b d = .ok (s1, j) →
        writeEmptyBags (begun s1 j) c r inst d = .ok s2 →
        exec (.spGather h) s = .next (armWaits ((allCores h ++ allCores h).foldl chunkClaim s2)))) ∧
    (Runs s inst (fun w => cmdOpcode w == 0x21) r c →
      (scatterOk r = false → exec (.spScatter h) s = .next (faultCommand s r.ref (errBad inst))) ∧
      (scatterOk r = true → findJob s r.ref = none →
        let ks := if inPipe r.word ≠ 0 then [] else
          match r.desc 0x10 with
          | some d => rangeChunks (d.count 1) (Nat.min 256 (32768 / d.count 0))
          | none => []
        exec (.spScatter h) s = .next (armWaits (begun s (newJob s r (fld r.word 0x38 31 0) ks (sumNat (ks.map fun k => k.count))))))) ∧
    (Runs s inst (fun w => cmdOpcode w == 0x22) r c →
      (∀ s1 j, findJob s r.ref = none → planRun s c r inst = .ok (s1, j) → exec (.spRun h) s = .next (armWaits (begun s1 j))) ∧
      ((∃ j, findJob s r.ref = some j) → exec (.spRun h) s = .next (armWaits (finishJob (markStarted s inst r.ref) r.ref))) ∧
      (∀ e, findJob s r.ref = none → planRun s c r inst = .error e → exec (.spRun h) s = .next (faultCommand s r.ref e)))) ∧
  (∀ (s : State) (core : CoreId) (h : Half) (j : SpJob) (k : Chunk) (r : Running) (c : Context),
    runningOfRef s j.ref = some r → findCtx s j.sess = some c →
    (splintWorks s core = true → claimable s core = some (j, k) →
      let s1 := setJob (setChunk s j.ref k.num fun k => { k with state := .claimed core }) j.ref fun j => { j with lastClaim := s.now }
      (j.opcode = 0x22 → exec (.chunkClaim core) s = .next { s1 with cores := s.cores ++
        [{ id := core, job := r.ref, chunk := k.num, coil := fld r.word 0x10 23 0, regs := entryRegs r.word k, pc := 0, executed := 0,
           tile := none, closed := none, rowBytes := 0, tileSeq := 0 }] }) ∧
      (j.opcode = 0x20 → exec (.chunkClaim core) s = .next (issueMore s1 core)) ∧
      (∀ s2, j.opcode = 0x21 → inPipe r.word = 0 → formChunk s1 c r core k = .ok s2 → exec (.chunkClaim core) s = .next s2)) ∧
    ((s.jobs.findSome? fun j => if j.opcode = 0x21 then (applicable j h).map fun p => (j, p) else none) = some (j, k, core) →
      r.sess = j.sess → exec (.chunkApply h) s = .next (applyChunk s r j k core) ∧
      (k.split = false → turnOf j k.num = true) ∧ core.half = h))

/-- A pseudo-channel in service issues from its window of 64 the request that has waited longest past 1 µs, else the oldest on
the open page, else the oldest (06 R289). A read that ends with no bad symbol returns; one with an uncorrectable sector ends the
lists that wait for it with HW_ERROR naming the pseudo-channel (09 R461, R462). A returned reply is delivered with those merged
with it, and its slot is free (06 R290). -/
def Obligations.RequestsAreServed : Prop :=
  ∀ (s : State) (n : Fin 512) (id : Nat) (r : Request),
    (pcServes s n.val = true →
      let s1 := fillWindow s n.val
      (windowNext s1 n.val = some r →
        exec (.sortWindowIssue n) s = .next (tallyPhys (setPc
          { s1 with requests := mapIf (fun q => q.id == r.id) (fun q => { q with state := .memory }) s1.requests } n.val
          fun p => { p with openPage := some (pageOf s r) }) r.sess 0 r.phys r.bytes) ∧
        r ∈ inWindow s1 n.val ∧
        ((∃ q ∈ inWindow s1 n.val, hbmTokensFor s1 q = true ∧ q.issuedAt + 1000 ≤ s.now) → r.issuedAt + 1000 ≤ s.now)) ∧
      (windowNext s1 n.val = none → exec (.sortWindowIssue n) s = .next s1)) ∧
    (∀ pc sec, (s.requests.find? fun r => r.id == id && r.state == .memory) = some r → sectorOf s.hbm r.phys = some (pc, sec) →
      (poisonIn s.hbm r.phys r.bytes = none → exec (.hbmAccessDone id 0) s =
        .next { s with requests := mapIf (fun q => q.id == id) (fun q => { q with state := .returned }) s.requests }) ∧
      (∀ symbols bad, 2 ≤ symbols →
        let s1 := poisonSector s pc sec
        poisonIn s1.hbm r.phys r.bytes = some bad →
        let s2 := { s1 with requests := mapIf (fun q => q.id == id) (fun q => { q with state := .returned }) s1.requests }
        exec (.hbmAccessDone id symbols) s = .next ((s2.requests.filter fun q => q.id == id || q.state == .merged id).foldl
          (fun st q => if q.stopped then st else faultCommand st q.ref (.hw (0x7000 + bad))) s2))) ∧
    ((s.requests.find? fun r => r.id == id && (r.state == .returned || r.state == .basket)) = some r →
      exec (.replyDelivery id []) s = .next (issueMore (deliverAll s r) r.splint))

/-- WV_MATMUL with a good plan, scales, weight stream and extension starts: with A from a pipe it is under way at once and takes
its tiles as they come; with A from memory it is computed when every piece of its piece operand has come, and until then nothing
changes (07 R348-R354, R377, R378). A command that breaks a rule ends its list. WV_EDGE with a good plan and weight table is
under way with the weight streams of its relations (07 R365-R370). The next edge tile of its pipe, whose consumer has fired, is
computed and its units complete; with no tile nothing changes. -/
def Obligations.WeaveCommandsStart : Prop :=
  (∀ (s : State) (r : Running) (c : Context) (check : CheckOutcome) (p : WPlan) (sc : (U32 × U32 × U32) × Fl) (rb ext : BitVec 512),
    Runs s .weave (fun w => cmdOpcode w == 0x10) r c →
    (∀ e, startMatmul check s c r = .error e → exec (.wvMatmul check) s = .next (faultCommand s r.ref e)) ∧
    (weavePlan s c r (fld r.word 0x18 50 49) (fld r.word 0x18 52 51) (fld r.word 0x20 50 48) = .ok p →
      readScales s c (fld r.word 0x28 47 0) = .ok sc → r.raw 0x18 = some rb → readExt s c (fld r.word 0x18 47 0) = .ok ext →
      let ws := wstream rb ext (fld r.word 0x18 48 48 == 1)
      ws.ok = true → p.fits ws.nt = true →
      (fld r.word 0x10 50 48 ≠ 0 → fld r.word 0x10 47 0 = 0 → cmdChain r.word = false → chainOf s r.ref = none → p.exit.zmap = false →
        p.n ws.nt ≤ 1024 → exec (.wvMatmul check) s = .next (armWaits (beginRun (setFlags s r.sess engWeave sc.2) r (newRun r sc.1 [(256, rb, ext)])))) ∧
      (∀ ra s1, fld r.word 0x10 50 48 = 0 → r.raw 0x10 = some ra → matmulMemory s c r p ra rb ext sc check = .ok s1 →
        exec (.wvMatmul check) s = .next (armWaits s1) ∧
        (piecesHere c p.aux = false → s1 = s) ∧
        (piecesHere c p.aux = true →
          let s0 := dropChain (beginRun (setFlags s r.sess engWeave sc.2) r (newRun r sc.1 [])) r.ref
          ∀ run x, (s0.weave.runs.find? fun x => x.ref == r.ref) = some run →
            runProduct { st := s0, run := run } c r p (decodeDesc ra) ws (cmdChain r.word) (chainOf s r.ref) check = .ok x →
            (cmdChain r.word = false → s1 = setRun x.st r.ref fun _ => x.run) ∧
            (cmdChain r.word = true → ∃ ch ∈ s1.weave.chains, ch.ref = r.ref ∧ ch.m = (decodeDesc ra).count 1 ∧ ch.n = p.n ws.nt ∧
              ch.saturated = x.saturated))))) ∧
  (∀ (s : State) (r : Running) (c : Context) (check : CheckOutcome),
    (Runs s .weave (fun w => cmdOpcode w == 0x11) r c →
      (∀ p sc tab rels, cmdChain r.word = false → chainOf s r.ref = none → 1 ≤ fld r.word 0x10 2 0 → fld r.word 0x18 47 0 % 64 = 0 →
        weavePlan s c r (fld r.word 0x18 50 49) (fld r.word 0x18 52 51) (fld r.word 0x10 6 4) = .ok p → p.exit.zmap = false →
        readScales s c (fld r.word 0x28 47 0) = .ok sc → readVa s c .rd (fld r.word 0x18 47 0) 2048 = .ok tab →
        let trans := fld r.word 0x18 48 48 == 1
        readRelations s c trans tab (List.range 256) = .ok rels →
        (∀ x ∈ rels, (wstream x.2.1 x.2.2 trans).nt = nthD 0 (rels.map fun x => (wstream x.2.1 x.2.2 trans).nt) 0 ∧
          p.fits (wstream x.2.1 x.2.2 trans).nt = true ∧ p.n (wstream x.2.1 x.2.2 trans).nt ≤ 1024) →
        exec .wvEdge s = .next (armWaits (beginRun (setFlags s r.sess engWeave sc.2) r (newRun r sc.1 rels)))) ∧
      (∀ e, startEdge s c r = .error e → exec .wvEdge s = .next (faultCommand s r.ref e))) ∧
    (∀ run, edgeRunning s = some r → findCtx s r.sess = some c → (s.weave.runs.find? fun x => x.ref == r.ref) = some run →
      run.testing = false → (outPipe r.word = 0 ∨ pipeReady c (outPipe r.word) = true) →
      (takeTile s c (inPipe r.word) = none → exec (.edgeTileArrival check) s = .next s) ∧
      (∀ t s1 c1, takeTile s c (inPipe r.word) = some (t, s1) → findCtx s1 r.sess = some c1 →
        (∀ s2, edgeTile s1 c1 r run t check = .ok s2 → exec (.edgeTileArrival check) s = .next (armWaits s2)) ∧
        (∀ e, edgeTile s1 c1 r run t check = .error e → exec (.edgeTileArrival check) s = .next (faultCommand s1 r.ref e)))))

/-- A Weave command completes when both halves have sent DONE, and not with the first of the two (01 R26); it then merges its
maximum and saturation count into its scale record when it converts and does not chain (04 R209, R210). Declared column failures
take effect at a command boundary only; a failure in a column that the spare serves has no effect, and a fifth disabled column
takes the Weave out of service (07 R380, R381). A pattern test that follows a mismatch ends the command's list with HW_ERROR,
naming the lowest failing column or the half (07 R385). -/
def Obligations.WeaveCommandsEnd : Prop :=
  (∀ (s : State) (h : Half) (r : Running) (c : Context) (run : WeaveRun),
    ((findEngine s .weave).running.find? fun r => r.started && (cmdOpcode r.word == 0x10 || cmdOpcode r.word == 0x11)) = some r →
    findCtx s r.sess = some c → (s.weave.runs.find? fun x => x.ref == r.ref) = some run → run.testing = false →
    (inPipe r.word = 0 ∨ pipeEnded c (inPipe r.word) = true) →
    let s1 := setColumns s h fun k => { k with doneSent := true }
    ((columnsOf s h.other).doneSent = false → exec (.weaveDoneHandshake h) s = .next s1 ∧ s1.progress = s.progress) ∧
    ((columnsOf s h.other).doneSent = true →
      (∀ s2, (exitOf r.word).conv = true → fld r.word 0x28 47 0 ≠ 0 → cmdChain r.word = false →
        mergeScale s1 c (fld r.word 0x28 47 0) run.amax run.sat = .ok s2 →
        ∃ t, exec (.weaveDoneHandshake h) s = .next t ∧ t.weave.commandNumber = s.weave.commandNumber + 1 ∧
          t.weave.west.doneSent = false ∧ t.weave.east.doneSent = false ∧ t.mem = s2.mem) ∧
      ((exitOf r.word).conv = false ∨ fld r.word 0x28 47 0 = 0 ∨ cmdChain r.word = true →
        ∃ t, exec (.weaveDoneHandshake h) s = .next t ∧ t.weave.commandNumber = s.weave.commandNumber + 1 ∧
          t.weave.west.doneSent = false ∧ t.weave.east.doneSent = false ∧ t.mem = s.mem ∧
          (findProgress s r.ref ≠ none → findProgress t r.ref = none)))) ∧
  (∀ (s : State) (h : Half) (ref : CmdRef),
    (weaveAtBoundary s = false → exec .columnDisable s = .next s) ∧
    (weaveAtBoundary s = true → ∃ t, exec .columnDisable s = .next t ∧ t.weave.pendingDisable = [] ∧
      (∀ p rest, s.weave.pendingDisable = p :: rest → p.2 < 32 → (columnsOf s p.1).spare ≠ p.2 → rest = [] →
        (columnsOf t p.1).disabled.getLsbD p.2 = true)) ∧
    (∀ col, col < 32 → disabledColumns s = 4 → (columnsOf s .west).disabled.getLsbD col = false →
      (columnsOf s .east).disabled.getLsbD col = false → (disableColumn s h col).weave.outOfService = true) ∧
    ((s.weave.pendingTest.find? fun t => t.1 == h) = some (h, some ref) →
      let s1 := { s with weave := { s.weave with pendingTest := s.weave.pendingTest.erase (h, some ref) } }
      exec (.weavePatternTest h []) s =
        .next (bucketEvent (faultCommand s1 ref (.hw h.num)) 6 (BitVec.ofNat 16 h.num) 0 0) ∧
      (∀ k, k < 32 → exec (.weavePatternTest h [k]) s =
        .next (faultCommand (bucketEvent s1 7 (BitVec.ofNat 16 (columnUnit h k)) 0 0) ref (.hw (columnUnit h k))))))

/-- An operation of RM_OP with good operands runs on a half: with a piped input it is under way and takes its tiles as they
come; from memory to a pipe it waits for the consumer; over memory it values the elements of the half's share (R396, R397),
writes them, counts and raises what it raised; TEST tests each. Operands that break 08 R721 end the list with BAD_COMMAND. The
results of 08 Table 8.1 for an element: the arithmetic operations are the FP32 values nearest the exact results, RELU, MAX and
MIN order +0 above -0 and give the canonical NaN and NF_IN for a NaN (R722), DROPOUT keeps an element when its bits lie below
KEEP16 (R398), SCALE_LOSS uses the loss scale. -/
def Obligations.RimOperationsRun : Prop :=
  (∀ (s : State) (h : Half) (r : Running) (c : Context), ∀ q ∈ rimRows, Runs s (.rim h) (rimSel q.1) r c →
    (∀ e, rimPlan r (.rim h) = .error e → exec (q.2 h) s = .next (faultCommand s r.ref e)) ∧
    (∀ p, rimPlan r (.rim h) = .ok p →
      (inPipe r.word ≠ 0 → exec (q.2 h) s = .next (armWaits (markStarted s (.rim h) r.ref))) ∧
      (∀ d, inPipe r.word = 0 → outPipe r.word ≠ 0 → p.din = some d →
        (pipeReady c (outPipe r.word) = false → exec (q.2 h) s = .next (armWaits s)) ∧
        (∀ s1, pipeReady c (outPipe r.word) = true → rimToPipe s c r p h d = .ok s1 → exec (q.2 h) s = .next (armWaits s1))) ∧
      (∀ d vs st, inPipe r.word = 0 → outPipe r.word = 0 → p.dout = some d →
        let unit := fun (e : Nat × List Nat) => if isRowOp p.op then (0, e.2) else blockUnit d e
        let es := halfElems d (bothHalves r.word) h unit
        (es.mapM fun e => rimValue s c r p e.1 e.2 (d.linear e.1 e.2)) = .ok vs →
        storeElems s c .wr d false (Machine.Num.ofNat 1) ((es.zip vs).map fun x => (x.1, (fp32 x.2.1, Round.nearest))) = .ok st →
        let s1 := match p.din with | some a => tallyElems st.st r.sess 0 a es | none => st.st
        let s2 := setFlags (tallyElems s1 r.sess 1 d es) r.sess engRim (flOr vs ||| st.fl)
        exec (q.2 h) s = .next (armWaits (shareDone (unitsDone s2 r.ref (doneTiles s2 r.ref d h es)) (.rim h) r.ref))) ∧
      (∀ d vs, inPipe r.word = 0 → outPipe r.word = 0 → p.dout = none → p.din = some d →
        let es := halfElems d (bothHalves r.word) h (blockUnit d)
        (es.mapM fun e => rimValue s c r p e.1 e.2 0) = .ok vs →
        exec (q.2 h) s = .next (armWaits (shareDone (noteNonfinite (setFlags (tallyElems s r.sess 0 d es) r.sess engRim (flOr vs)) r.sess
          (vs.filter fun v => !(fp32 v.1).isFin).length) (.rim h) r.ref))))) ∧
  (∀ (imm : Nat) (ls x y : U32) (bits : U16),
    let a : U32 := BitVec.ofNat 32 imm
    let at_ := fun op => (rimElem op imm ls x y bits).1
    let near := fun (z : Machine.Num) => (toFp32 z).1
    at_ 0x0000 = x ∧ at_ 0x0010 = near ((fp32 x).add (fp32 y)).1 ∧ at_ 0x0011 = near ((fp32 x).add (fp32 y).neg).1 ∧
    at_ 0x0012 = near ((fp32 x).mul (fp32 y)).1 ∧ at_ 0x0013 = (fdiv x y).1 ∧ at_ 0x0009 = (fdiv 0x3F800000 x).1 ∧
    at_ 0x0020 = near ((fp32 (near ((fp32 a).mul (fp32 x)).1)).add (fp32 y)).1 ∧
    at_ 0x0100 = Config.expUnit (near ((fp32 x).add (fp32 y).neg).1) ∧ at_ 0x0101 = near ((fp32 x).mul (fp32 y)).1 ∧
    at_ 0x0102 = (fdiv x y).1 ∧ at_ 0x0301 = near ((fp32 x).mul (fp32 ls)).1 ∧
    at_ 0x0200 = (if bits.toNat < imm / 2 ^ 16 % 2 ^ 16 then near ((fp32 x).mul (fp32 (BitVec.ofNat 32 (imm / 2 ^ 32)))).1 else 0) ∧
    (fp32 x ≠ .nan → (fp32 x).lt Machine.Num.zero = false → at_ 0x0002 = x) ∧
    ((fp32 x).lt Machine.Num.zero = true → at_ 0x0002 = near ((fp32 a).mul (fp32 x)).1 ∧ at_ 0x0001 = 0) ∧
    (rimElem 0x0001 imm ls 0x80000000 y bits).1 = 0 ∧ ((fp32 x).isZero = false → Machine.Num.zero.lt (fp32 x) = true → at_ 0x0001 = x) ∧
    (fp32 x = .nan ∨ fp32 y = .nan → at_ 0x0014 = 0x7FC00000 ∧ at_ 0x0015 = 0x7FC00000 ∧
      (rimElem 0x0014 imm ls x y bits).2 = flNF ∧ (rimElem 0x0015 imm ls x y bits).2 = flNF) ∧
    (fp32 x ≠ .nan → fp32 y ≠ .nan →
      (at_ 0x0014 = x ∨ at_ 0x0014 = y) ∧ (fp32 (at_ 0x0014)).lt (fp32 x) = false ∧ (fp32 (at_ 0x0014)).lt (fp32 y) = false ∧
      (at_ 0x0015 = x ∨ at_ 0x0015 = y) ∧ (fp32 x).lt (fp32 (at_ 0x0015)) = false ∧ (fp32 y).lt (fp32 (at_ 0x0015)) = false) ∧
    (rimElem 0x0014 imm ls 0 0x80000000 bits).1 = 0 ∧ (rimElem 0x0014 imm ls 0x80000000 0 bits).1 = 0 ∧
    (rimElem 0x0015 imm ls 0 0x80000000 bits).1 = 0x80000000 ∧ (rimElem 0x0015 imm ls 0x80000000 0 bits).1 = 0x80000000)

/-- The next tile of a pipe, at Rim: a RAW tile, or one beyond the counts of OUT_DESC or AUX, ends the list with BAD_COMMAND and
writes nothing; any other is processed. When the input has ended the half's share is done. At a scatter-reduce the tile's rows
go to its chunks, and its end lets the job finish (03 R717; 06 R313-R316; 08 R393, R395, R721). RM_REDUCE, RM_CONVERT, RM_PRUNE
and a dense RM_OPT run when their operands are good and readable, and end their list with their error otherwise; an ALIAS_BUILD
is done by the half that comes to it first (08 R396-R414, R419, R420; 04 R207-R224). -/
def Obligations.RimCommandsRun : Prop :=
  (∀ (s : State) (h : Half) (r : Running) (c : Context), findCtx s r.sess = some c →
    (((findEngine s (.rim h)).running.find? fun r => cmdOpcode r.word == 0x40 && inPipe r.word != 0 && r.started) = some r →
      (pipeEnded c (inPipe r.word) = true → exec (.pipeTileArrival (.rim h)) s = .next (armWaits (shareDone s (.rim h) r.ref))) ∧
      (pipeEnded c (inPipe r.word) = false → (outPipe r.word = 0 ∨ pipeReady c (outPipe r.word) = true) →
        ∀ t s1 c1, takeTile s c (inPipe r.word) = some (t, s1) → findCtx s1 r.sess = some c1 →
          (∀ s2, rimTileWork s1 c1 r h t = .ok s2 → exec (.pipeTileArrival (.rim h)) s = .next (armWaits s2)) ∧
          (∀ e, rimTileWork s1 c1 r h t = .error e → exec (.pipeTileArrival (.rim h)) s = .next (faultCommand s1 r.ref e)) ∧
          (∀ p, rimPlan r (.rim h) = .ok p → t.raw = true ∨ (∃ d, (p.dout = some d ∨ p.aux = some d) ∧ tileFits d t = false) →
            exec (.pipeTileArrival (.rim h)) s = .next (faultCommand s1 r.ref (errBad (.rim h)))))) ∧
    (((findEngine s (.splints h)).running.find? fun r => cmdOpcode r.word == 0x21 && inPipe r.word != 0 && r.started) = some r →
      (takeTile s c (inPipe r.word) = none → exec (.pipeTileArrival (.splints h)) s = .next (finishJob s r.ref)) ∧
      (∀ t s1 j, takeTile s c (inPipe r.word) = some (t, s1) →
        (tileBad r.word t = true → exec (.pipeTileArrival (.splints h)) s = .next (faultCommand s1 r.ref (errBad (.splints h)))) ∧
        (tileBad r.word t = false → findJob s1 r.ref = some j →
          exec (.pipeTileArrival (.splints h)) s = .next (takeScatterTile s1 r j { half := h, idx := 0 } t))))) ∧
  (∀ (s : State) (h : Half) (r : Running) (c : Context) (s1 : State) (e : CmdErr),
    let answers := fun (i : Instr) (x : Except CmdErr State) =>
      (x = .ok s1 → exec i s = .next (armWaits s1)) ∧ (x = .error e → exec i s = .next (faultCommand s r.ref e))
    (Runs s (.rim h) (fun w => cmdOpcode w == 0x41 && fld w 0x28 1 0 == 0) r c → answers (.rmReduceRecords h) (reduceRecords h s c r)) ∧
    (Runs s (.rim h) (fun w => cmdOpcode w == 0x41 && fld w 0x28 1 0 == 1) r c → answers (.rmReduceDenseSum h) (reduceDense h s c r)) ∧
    (Runs s (.rim h) (fun w => cmdOpcode w == 0x42) r c → answers (.rmConvert h) (convertStream h s c r)) ∧
    (Runs s (.rim h) (fun w => cmdOpcode w == 0x44) r c → answers (.rmPrune h) (pruneStream h s c r)) ∧
    (Runs s (.rim h) (fun w => cmdOpcode w == 0x43 && fld w 0x28 3 0 != 15) r c →
      answers (.rmOpt h) (rmOpt h s c r) ∧
      (∀ p g, (fld r.word 0x20 47 0 = 0 ∨ (r.desc 0x20).isSome = true) → r.desc 0x10 = some p → r.desc 0x18 = some g →
        denseOk (fld r.word 0x28 3 0) p g (r.desc 0x20) = true →
        (optGate c (fld r.word 0x30 31 0) = .bad → exec (.rmOpt h) s = .next (faultCommand s r.ref (errBad (.rim h)))) ∧
        (optGate c (fld r.word 0x30 31 0) = .wait → exec (.rmOpt h) s = .next (armWaits s)))) ∧
    (Runs s (.rim h) (rimSel 0x500) r c →
      (otherDone s h r.ref = true → exec (.aliasBuild h) s = .next (armWaits (shareDone s (.rim h) r.ref))) ∧
      (otherDone s h r.ref = false → aliasBuild h s c r = .ok s1 → exec (.aliasBuild h) s = .next (armWaits (shareDone s1 (.rim h) r.ref))) ∧
      (otherDone s h r.ref = false → aliasBuild h s c r = .error e → exec (.aliasBuild h) s = .next (faultCommand s r.ref e))))

/-- The pieces of a destination are combined in their order or as the fixed tree, which pairs neighbours and passes an odd last
piece up (08 R405). RM_PRUNE keeps the k largest elements of a group, a NaN above any number and ties to the lower index, in
ascending order (R419). An alias table has one entry for each neighbour, and each ALIAS names one (R401). The update of one
element is that of 08 R411, each step rounded to FP32 to nearest: the gradient without the loss scale, with the coupled decay;
then the optimiser's moments and its new weight. -/
def Obligations.OptimiserUpdateIsTheTable : Prop :=
  ((∀ (op : Nat) (a b c d e : List (U32 × Nat)),
    let f := fun x y => (combineRows op x y).1
    (combine op false [a, b, c, d]).1 = f (f (f a b) c) d ∧ (combine op true [a, b, c, d]).1 = f (f a b) (f c d) ∧
    (combine op true [a, b, c]).1 = f (f a b) c ∧ (combine op true [a, b, c, d, e]).1 = f (f (f a b) (f c d)) e ∧
    (combine op true [a]).1 = a ∧ (combine op false [a]).1 = a) ∧
  (∀ (k : Nat) (xs : List Machine.Num), k ≤ xs.length →
    let kept := keptOf k xs
    let val := fun i => nthD Machine.Num.zero xs i
    kept.length = k ∧ kept.Pairwise (· < ·) ∧ (∀ i ∈ kept, i < xs.length) ∧
    ∀ i ∈ kept, ∀ j, j < xs.length → j ∉ kept →
      (val j = .nan → val i = .nan ∧ i < j) ∧
      (val i ≠ .nan → (val i).abs.lt (val j).abs = false ∧ ((val j).abs.lt (val i).abs = false → i < j))) ∧
  (∀ (ws : List U32) (bytes : List Byte) (fl : Fl), voseTable ws = (some bytes, fl) → ws.length < 2 ^ 32 →
    bytes.length = 8 * ws.length ∧ ∀ i, i < ws.length → fieldAt bytes (8 * i + 4) 4 < ws.length)) ∧
  (∀ (h : Hyper) (w m v g : U32),
    let add := fun a b => (fadd a b).1
    let sub := fun a b => (fsub a b).1
    let mul := fun a b => (fmul a b).1
    let div := fun a b => (fdiv a b).1
    let root := fun a => (fsqrt a).1
    let one : U32 := 0x3F800000
    let grad := fun code => (optGrad code h w g).1
    let new := fun code => let r := optElem code h w m v (optGrad code h w g); (r.1, r.2.1, r.2.2.1)
    let coupled := if (fp32 h.wd).isZero then mul g h.inv else add (mul g h.inv) (mul h.wd w)
    let step := fun u => sub w (mul h.lr u)
    (∀ code ∈ [1, 2, 3, 4, 5, 6, 7], grad code = coupled) ∧ grad 8 = mul g h.inv ∧
    new 1 = (step coupled, m, v) ∧
    (let m1 := add (mul h.b1 m) coupled
     new 2 = (step m1, m1, v) ∧ new 3 = (step (add coupled (mul h.b1 m1)), m1, v)) ∧
    (let v1 := add v (mul coupled coupled)
     new 4 = (step (div coupled (add (root v1) h.eps)), m, v1)) ∧
    new 5 = (step (div coupled (add (root v) h.eps)), m, v) ∧
    (let v1 := add (mul h.b2 v) (mul (sub one h.b2) (mul coupled coupled))
     new 6 = (step (div coupled (add (root v1) h.eps)), m, v1) ∧
     (let m1 := add (mul h.b1 m) (mul (sub one h.b1) coupled)
      new 7 = (step (div (div m1 h.bc1) (add (root (div v1 h.bc2)) h.eps)), m1, v1))) ∧
    (let g8 := mul g h.inv
     let v1 := add (mul h.b2 v) (mul (sub one h.b2) (mul g8 g8))
     let m1 := add (mul h.b1 m) (mul (sub one h.b1) g8)
     let u := div (div m1 h.bc1) (add (root (div v1 h.bc2)) h.eps)
     new 8 = (step (if (fp32 h.wd).isZero then u else add u (mul h.wd w)), m1, v1)))

/-- RM_OPT in table mode: a decided step faults, another pending step waits. Else it writes its ring entry, updates each row
that has a contribution of the step, frees the contributions, and completes once every owner's mark is held; when the other half
has done it, the share is done (08 R415-R418, R425; 09 R499). -/
def Obligations.TableModeUpdatesRows : Prop :=
  ∀ (s : State) (h : Half) (r : Running) (c : Context), Runs s (.rim h) (fun w => cmdOpcode w == 0x43 && fld w 0x28 3 0 == 15) r c →
    let step := fld r.word 0x30 31 0
    (otherDone s h r.ref = true → exec (.rmOptTable h) s = .next (armWaits (shareDone s (.rim h) r.ref))) ∧
    (otherDone s h r.ref = false → fld r.word 0x10 47 0 = 0 → fld r.word 0x18 47 0 = 0 → fld r.word 0x20 47 0 = 0 →
      (step = 0 ∨ stepDecided c step = true → exec (.rmOptTable h) s = .next (faultCommand s r.ref (errBad (.rim h)))) ∧
      (step ≠ 0 → stepDecided c step = false → c.rim.pending ≠ 0 → c.rim.pending ≠ step → exec (.rmOptTable h) s = .next (armWaits s)) ∧
      (∀ hy s1, optGate c step = .run → (passed s r.ref).contains 0 = false → readHyper s c r.word = .ok hy →
        (startTable s c r hy step).2 = true → goTable h (startTable s c r hy step).1 r step = .ok s1 →
        exec (.rmOptTable h) s = .next (armWaits s1)) ∧
      (∀ c1 e s1 s2, optGate c step = .run → (passed s r.ref).contains 0 = true → c.ringProvisional = some e →
        passRows h r.ref r.sess e.hyper step (gradRows s c r.ref step) (setCtx s r.sess fun c => { c with logWait := none }) = .ok (s1, true) →
        findCtx s1 r.sess = some c1 → (passed s1 r.ref).contains 1 = false →
        s2 = pass (sendMarks s1 c1 h step (replicasSent s1 c1 r.ref)) r.ref 1 →
        (marksHeld s2 c1 step = true → exec (.rmOptTable h) s = .next (armWaits (shareDone s2 (.rim h) r.ref))) ∧
        (marksHeld s2 c1 step = false → exec (.rmOptTable h) s = .next (armWaits s2))))

/-- The operations on versions and on the generator's state: a bind whose record is good makes the region and shadows its second
allocation, an unbind takes the committed granules home and gives the shadow back; STEP_VOTE casts the latch and the masked
flags, clears the latch and floods the vote; PLAIT_SET loads key and bases; SCALE_SET loads the policy. A record that breaks a
rule ends the list with BAD_COMMAND (05 R273; 08 R421, R427, R430, R431, R444). STEP_APPLY applies the decision of its step:
COMMIT makes the provisional granules committed and starts the settle, SKIP and ABORTED discard them; the record takes the
decision, the vote, the granules and the loss scale; an aborted step ends its list with the common error (08 R435, R438, R440,
R441). A STEP_APPLY of a step without its vote faults. -/
def Obligations.StepOperationsRun : Prop :=
  (∀ (s : State) (h : Half) (r : Running) (c : Context), noStreams (.rim h) r.word = .ok () → otherDone s h r.ref = false →
    let done := fun (t : State) => Host.Outcome.next (φ := Fault) (ρ := Refusal) (armWaits (shareDone t (.rim h) r.ref))
    let bad := Host.Outcome.next (φ := Fault) (ρ := Refusal) (faultCommand s r.ref (errBad (.rim h)))
    (∀ b, Runs s (.rim h) (rimSel 0x0E00) r c → readBind s c (auxOf r.word) = .ok b →
      (bindOk c b.1 b.2.1 b.2.2 = false → exec (.versionBind h) s = bad) ∧
      (bindOk c b.1 b.2.1 b.2.2 = true → exec (.versionBind h) s = done (setCtx s c.sess fun c => { setUse b.2.2 .shadow c with
        regions := c.regions ++ [{ table := 0, base := b.1, bytes := b.2.1, shadow := b.2.2, inShadow := [], provisional := [], unsettled := [] }] }))) ∧
    (∀ b, Runs s (.rim h) (rimSel 0x0E01) r c → readBind s c (auxOf r.word) = .ok b →
      (c.rim.pending ≠ 0 ∨ c.settles ≠ [] → exec (.versionUnbind h) s = bad) ∧
      (∀ rg a, c.rim.pending = 0 → c.settles = [] →
        (c.regions.find? fun x => x.table == 0 && x.base == b.1 && x.bytes == b.2.1 && x.shadow == b.2.2) = some rg →
        (c.allocs.find? fun a => a.base == rg.shadow) = some a →
        exec (.versionUnbind h) s = done (setCtx (scramble (homeGranules s c.sess rg) c.sess rg.shadow a.size) c.sess fun c =>
          { setUse rg.shadow .plain c with regions := c.regions.filter fun x => !(x.table == 0 && x.base == rg.base) }))) ∧
    (∀ q, Runs s (.rim h) (rimSel 0x0E02) r c → readStep s c (auxOf r.word) = .ok q →
      (q.step = 0 ∨ (c.rim.pending ≠ 0 ∧ c.rim.pending ≠ q.step) ∨ votedAlready c q = true → exec (.stepVote h) s = bad) ∧
      (q.step ≠ 0 → (c.rim.pending = 0 ∨ c.rim.pending = q.step) → votedAlready c q = false → q.group = 0 → stepDecided c q.step = false →
        findGroup c 0 = none →
        let set := c.rim.latch || (c.flags.toNat &&& q.mask) != 0
        let v : VoteState := { step := q.step, group := 0, myVote := set, castAt := s.now, phase := 3, set := set,
                               lowest := if set then myNumber s else noModule, decision := .none, decidedAt := 0, origin := 0xFFFFFFFF, error := 0 }
        exec (.stepVote h) s = done (advanceVote 4 (setCtx s c.sess fun c =>
          { c with vote := some v, rim := { c.rim with latch := false, pending := q.step } }) c.sess)) ∧
      (∀ g, q.step ≠ 0 → (c.rim.pending = 0 ∨ c.rim.pending = q.step) → votedAlready c q = false → q.group ≠ 0 →
        findGroup c q.group = some g → g.complete = true → abortBefore c q = none → stepDecided c q.step = false →
        let set := c.rim.latch || (c.flags.toNat &&& q.mask) != 0
        let v : VoteState := { step := q.step, group := q.group, myVote := set, castAt := s.now, phase := 0, set := set,
                               lowest := if set then myNumber s else noModule, decision := .none, decidedAt := 0, origin := 0xFFFFFFFF, error := 0 }
        let s1 := setCtx s c.sess fun c => { c with vote := some v, rim := { c.rim with latch := false, pending := q.step } }
        exec (.stepVote h) s = done (advanceVote 4 (floodAxis s1 c g 0 (votePacket s1 g q.step false 0 set v.lowest)) c.sess))) ∧
    (∀ b, Runs s (.rim h) (rimSel 0x0F00) r c → readVa s c .rd (auxOf r.word) 272 = .ok b →
      exec (.plaitSet h) s = done (setCtx s c.sess (loadPlait (fld r.word 0x30 63 0) b)))) ∧
  (∀ (s : State) (h : Half) (r : Running) (c : Context) (v : VoteState) (q : StepRecord),
    ((findEngine s (.rim h)).running.find? fun r => rimSel 0x0E03 r.word && !r.started) = some r → findCtx s r.sess = some c →
    otherDone s h r.ref = false → noStreams (.rim h) r.word = .ok () → readStep s c (auxOf r.word) = .ok q →
    (c.vote = none → exec (.stepApply h) s = .next (faultCommand s r.ref (errBad (.rim h)))) ∧
    (c.vote = some v → (q.step = 0 ∨ v.step ≠ q.step) → exec (.stepApply h) s = .next (faultCommand s r.ref (errBad (.rim h)))) ∧
    (c.vote = some v → q.step ≠ 0 → v.step = q.step → spanOk s c .wr (auxOf r.word + 0x10) 0x18 = none →
      ∀ s1 c1, s1 = applyDecision s c v (auxOf r.word) r.ref → findCtx s1 c.sess = some c1 →
      let s2 := writeRecord s1 c.sess (auxOf r.word + 0x10) (stepFields v (pendingGranules c) 0xFFFFFFFF c1.rim.lsScale)
      (v.decision = .commit → exec (.stepApply h) s = .next (armWaits (shareDone (startSettle s2 c.sess v) (.rim h) r.ref)) ∧
        c1.rim = lossScale true (commitCtx v.step c).rim ∧ c1.regions = c.regions.map (Region.commit v.step) ∧ c1.rim.pending = 0 ∧
        c1.rim.lastDecided = v.step ∧ c1.vote = none) ∧
      (v.decision = .skip → exec (.stepApply h) s = .next (armWaits (shareDone (releaseHeld s2 c.sess) (.rim h) r.ref)) ∧
        c1.rim = lossScale false (skipCtx v.step c).rim ∧ c1.regions = c.regions.map Region.skip ∧ c1.rim.pending = 0 ∧
        c1.ringProvisional = none ∧ (∀ e ∈ s1.tier.log, ¬ (e.sess = c.sess ∧ e.step = v.step))) ∧
      (v.decision = .aborted → exec (.stepApply h) s =
        .next (faultCommand (releaseHeld s2 c.sess) r.ref (.group v.error v.origin (EngineInst.rim h).unit)))))

/-- A commit makes exactly the provisional granules of a region read from their other version, a skip leaves every committed
granule as it was, and the revert of a commit that has not settled restores the version of every granule (08 R423, R435, R441).
-/
def Obligations.VersionsFlipAndRevert : Prop :=
  ∀ (r : Region) (step : Nat) (va : Nat), r.provisional.Nodup → r.inShadow.Nodup → (∀ u ∈ r.unsettled, u.2 ≠ step) →
    let g := (va - r.base) / 256
    (g ∈ r.provisional → (r.commit step).committed va = r.inactive va ∧ (r.commit step).inactive va = r.committed va) ∧
    (g ∉ r.provisional → (r.commit step).committed va = r.committed va) ∧
    (r.commit step).provisional = [] ∧ r.skip.provisional = [] ∧ r.skip.committed va = r.committed va ∧
    ((r.commit step).revert step).committed va = r.committed va ∧ ((r.commit step).revert step).unsettled = r.unsettled ∧
    ((r.commit step).settle step).committed va = (r.commit step).committed va ∧
    (∀ n, 0 < n → r.base ≤ va → (∃ i, i < n ∧ (va + i - r.base) / 256 ∈ r.provisional) → (r.commit step).unsettledIn va n = true)

/-- The loss-scale policy of 08 R444: SCALE_SET loads its 32 bytes; with LS_MODE 1 a commit counts a clean step and at
LS_INTERVAL grows the scale up to LS_MAX, a skip or an abort lowers it down to LS_MIN, and both of these start the count again;
with LS_MODE 0 nothing moves. -/
def Obligations.LossScalePolicyHolds : Prop :=
  (∀ (s : State) (h : Half) (r : Running) (c : Context) (b : List Byte), noStreams (.rim h) r.word = .ok () → otherDone s h r.ref = false →
    Runs s (.rim h) (rimSel 0x0E04) r c → readVa s c .rd (auxOf r.word) 32 = .ok b →
    exec (.scaleSet h) s = .next (armWaits (shareDone (setCtx s c.sess fun c => { c with rim := loadPolicy b c.rim }) (.rim h) r.ref))) ∧
  (∀ (b : List Byte) (r : RimState), b.length = 32 →
    let q := loadPolicy b r
    let f := fun off => BitVec.ofNat 32 (fieldAt b off 4)
    q.lsScale = f 0 ∧ q.lsGrowth = f 4 ∧ q.lsBackoff = f 8 ∧ q.lsMin = f 0xC ∧ q.lsMax = f 0x10 ∧ q.lsInterval = f 0x14 ∧
    q.lsClean = f 0x18 ∧ q.lsMode = (fieldAt b 0x1C 1 % 2 == 1) ∧ q.pending = r.pending ∧ q.lastDecided = r.lastDecided ∧
    q.ringValid = r.ringValid ∧ q.latch = r.latch) ∧
  (∀ (r : RimState) (b : Bool),
    let smaller := fun (x y : U32) => if (fp32 y).lt (fp32 x) then y else x
    let larger := fun (x y : U32) => if (fp32 x).lt (fp32 y) then y else x
    (r.lsMode = false → lossScale b r = r) ∧
    (r.lsMode = true → (r.lsClean + 1).toNat < r.lsInterval.toNat → lossScale true r = { r with lsClean := r.lsClean + 1 }) ∧
    (r.lsMode = true → r.lsInterval.toNat ≤ (r.lsClean + 1).toNat →
      lossScale true r = { r with lsScale := smaller (fmul r.lsScale r.lsGrowth).1 r.lsMax, lsClean := 0 }) ∧
    (r.lsMode = true → lossScale false r = { r with lsScale := larger (fmul r.lsScale r.lsBackoff).1 r.lsMin, lsClean := 0 }))

/-- Every code of a number format that is not a NaN is the conversion of its own value, without a flag of its own and in every
rounding mode: no value that a format holds is lost by reading it and writing it back (04 R188, R213-R217). -/
def Obligations.CodesRoundTrip : Prop :=
  ∀ (md : Round) (sat : Bool) (code : Nat), (∀ r, md = .stochastic r → r < 65536) →
    (∀ fmt ∈ [0, 1, 2, 3, 4, 5, 6, 7, 0xD], ∀ f, floatFmt fmt = some f → code < 2 * f.signBit → decodeElem fmt code ≠ .nan →
      encodeElem fmt md sat (decodeElem fmt code) = ⟨code, (decodeElem fmt code).nf, false⟩) ∧
    (code < 16 → encodeElem 8 md sat (decodeElem 8 code) = ⟨code, 0, false⟩ ∧ encodeElem 0xA md sat (decodeElem 0xA code) = ⟨code, 0, false⟩) ∧
    (code < 256 → encodeElem 9 md sat (decodeElem 9 code) = ⟨code, 0, false⟩) ∧
    (code < 4 → encodeElem 0xB md sat (decodeElem 0xB code) = ⟨code, 0, false⟩) ∧
    (code < 3 → encodeElem 0xC md sat (decodeElem 0xC code) = ⟨code, 0, false⟩)

/-- A finite value within the range of a float format is converted to one of its two neighbours, and to the nearer one in round
to nearest: no value of the format lies strictly between it and the result, and none lies nearer (04 R213-R215). Quotients and
square roots of FP32 are correctly rounded: no FP32 value lies nearer the exact result (08 R394). -/
def Obligations.RoundingGivesTheNearest : Prop :=
  (∀ (fmt : Nat) (f : FloatFmt) (md : Round) (sat : Bool) (y : Machine.Num) (z : Nat), floatFmt fmt = some f → y.isFin = true →
    (∀ r, md = .stochastic r → r < 65536) → z < 2 * f.signBit → (f.decode z).isFin = true →
    let c := f.encode md sat y
    let x := f.decode c.code
    c.sat = false →
    x.isFin = true ∧ c.code < 2 * f.signBit ∧
    ¬ (y.lt (f.decode z) = true ∧ (f.decode z).lt x = true) ∧ ¬ (x.lt (f.decode z) = true ∧ (f.decode z).lt y = true) ∧
    (md = .zero → y.abs.lt x.abs = false) ∧
    (md = .nearest → ((f.decode z).add y.neg).1.abs.lt (x.add y.neg).1.abs = false) ∧
    (c.fl &&& flNX = 0 ↔ x.same y = true)) ∧
  (∀ (x y z : U32), (fp32 z).isFin = true →
    (∀ q : Machine.Num, q = fp32 (fdiv x y).1 → (fp32 x).isFin = true → (fp32 y).isFin = true → (fp32 y).isZero = false → q.isFin = true →
      ((fp32 x).add ((fp32 z).mul (fp32 y)).1.neg).1.abs.lt ((fp32 x).add (q.mul (fp32 y)).1.neg).1.abs = false) ∧
    (∀ q : Machine.Num, q = fp32 (fsqrt x).1 → (fp32 x).isFin = true → (fp32 x).lt Machine.Num.zero = false → (fp32 z).isNeg = false →
      let mid := (q.add (fp32 z)).1
      let four := ((Machine.Num.ofNat 4).mul (fp32 x)).1
      q.isFin = true ∧ (q.lt (fp32 z) = true → (mid.mul mid).1.lt four = false) ∧ ((fp32 z).lt q = true → four.lt (mid.mul mid).1 = false)))

/-- Under a key as 09 R450 defines it, the accesses of R452 at a stride of 2^k granules reach each pseudo-channel of the half,
or of the module, exactly once; and every key that the module draws is such a key (R451). -/
def Obligations.InterleaveIsFair : Prop :=
  (∀ h : Hbm, UnitLower h.keyA → ∀ b k,
    (∀ half, b * 2 ^ k * 256 + 2 ^ k * 256 ≤ 2 ^ 40 → ∀ c, c < 256 →
      ∃ i, i < 256 ∧ nearChannel h half (b * 2 ^ k * 256 + i * 2 ^ k) = 256 * half + c ∧
        ∀ j, j < 256 → nearChannel h half (b * 2 ^ k * 256 + j * 2 ^ k) = 256 * half + c → j = i) ∧
    (b * 2 ^ k * 512 + 2 ^ k * 512 ≤ 2 ^ 40 → ∀ c, c < 512 →
      ∃ i, i < 512 ∧ stripedChannel h (b * 2 ^ k * 512 + i * 2 ^ k) = c ∧
        ∀ j, j < 512 → stripedChannel h (b * 2 ^ k * 512 + j * 2 ^ k) = c → j = i)) ∧
  ∀ s : State, UnitLower (drawKey s).hbm.keyA

/-- The HBM's own work: a retrain holds its pseudo-channel for 2 µs, once in ten minutes and one of a stack at a time; a scrub
reads a sector while the window holds fewer than 8 requests; an SRAM scrub counts one bad bit and records more; a request held
by a STOPPED stack for 100 ms ends its list naming the stack; REKEY_HBM draws a key, moves the granules and completes with a
duration of at most 150 ms, when no collective runs (09 R456-R466). -/
def Obligations.HbmCareIsTaken : Prop :=
  ∀ (s : State) (n : Fin 512) (k sec id : Nat) (h : Half) (fn : Nat) (tag : U16),
    (∀ p, findPc s n.val = some p →
      (p.retired = false → (∀ q ∈ s.hbm.pcs, q.num / 64 = n.val / 64 → q.heldUntil ≤ s.now) → p.lastTrain + 600 * 10 ^ 9 ≤ s.now →
        exec (.hbmRetrain n k) s = .next ((List.range k).foldl (fun st _ => bucketEvent st 3 (BitVec.ofNat 16 (0x8000 + n.val / 2)) 0 0)
          (setPc s n.val fun p => { p with lastTrain := s.now, heldUntil := s.now + 2000 }))) ∧
      ((p.retired = true ∨ (∃ q ∈ s.hbm.pcs, q.num / 64 = n.val / 64 ∧ s.now < q.heldUntil) ∨ s.now < p.lastTrain + 600 * 10 ^ 9) →
        exec (.hbmRetrain n k) s = .next s) ∧
      (p.retired = false → (inWindow s n.val).length < 8 →
        let s1 := setPc s n.val fun p => { p with scrubbed := p.scrubbed + 1 }
        exec (.hbmPatrolScrub n sec 0) s = .next s1 ∧
        exec (.hbmPatrolScrub n sec 1) s = .next (bucketEvent s1 1 (BitVec.ofNat 16 (0x7000 + n.val)) 0 sec) ∧
        ∀ m, 2 ≤ m → exec (.hbmPatrolScrub n sec m) s = .next (poisonSector s1 n.val sec))) ∧
    exec (.sramScrub h sec 0) s = .next s ∧ exec (.sramScrub h sec 1) s = .next (bucketEvent s 5 (BitVec.ofNat 16 h.num) sec sec) ∧
    (2 ≤ k → exec (.sramScrub h sec k) s = .next (addLog s 0x08 2 { unit := BitVec.ofNat 16 h.num, arg0 := sec })) ∧
    (∀ r x, (s.requests.find? fun r => r.id == id && (r.state == .queued || r.state == .sorting) && !r.stopped) = some r →
      findStack s (r.pc / 64) = some x →
      (x.thermal = 3 → Nat.max r.issuedAt x.stoppedAt + 10 ^ 8 ≤ s.now →
        exec (.stackStopTimeout id) s = .next (faultCommand s r.ref (.hw (0x6000 + x.num)))) ∧
      (x.thermal ≠ 3 ∨ s.now < Nat.max r.issuedAt x.stoppedAt + 10 ^ 8 → exec (.stackStopTimeout id) s = .next s)) ∧
    (∀ o, findOut s fn tag = some o → o.sub.opcode = 0x86 → s.hbm.rekeying = none → serving s = true → inOrder s fn o = true →
      ((∃ p ∈ s.progress, keepsRunning p.word = true) →
        exec (.rekeyHbm fn tag) s = .next (markAccepted { s with hbm := { s.hbm with rekeying := some (fn, tag, s.now) } } fn tag)) ∧
      ((∀ p ∈ s.progress, keepsRunning p.word = false) → ∃ us, us ≤ 150000 ∧
        let s1 := moveGranules (poisonedAddrs (choose s).2) (drawKey (choose s).2)
        exec (.rekeyHbm fn tag) s = .next (complete { s1 with hbm := { s1.hbm with rekeying := none } } fn tag (stOk0 us))))

/-- A row or a bag that another module asks for is answered with the committed rows, refused, or held for a step that is still
open (08 R428; 09 R491; 06 R295); a reply reaches the request that waits for it, and one to an older incarnation is dropped and
counted (11 R566). -/
def Obligations.RowsAndBagsAreServed : Prop :=
  ∀ (s : State) (p : Packet) (c : Context) (g : Group) (t : State) (c1 : Context),
    (Arrives s p 0x04 c g → Wakes s p c t c1 →
      let r := serveRow t c1 p.a.toNat p.step.toNat (p.b.toNat % 8192)
      (∀ bs, r.2 = .bytes bs →
        let s1 := setCtx r.1 c1.sess fun c => { c with memCtr := bump c.memCtr 8 1, fabricCtr := bump c.fabricCtr 10 1 }
        exec (.rowReq p) s = .next (countHeld t
          (sendFrom s1 c1 .west { newPacket s1 g 0x05 p.srcMod.toNat with msg := p.msg, step := p.step, data := bs }).1 c1.sess)) ∧
      (∀ k, r.2 = .refuse k → exec (.rowReq p) s = .next (countHeld t (refusePacket r.1 c1.tenant p k) c1.sess)) ∧
      (∀ f, r.2 = .wait f → exec (.rowReq p) s =
        .next (countHeld t (holdLookup r.1 { sess := c1.sess, pkt := p, since := s.now, forStep := f }) c1.sess)) ∧
      (findTable c1 (poolTable p.a.toNat) = none → r.2 = .refuse faultTranslation) ∧
      (∀ tb idx, findTable c1 (poolTable p.a.toNat) = some tb → ownerOf (myNumber t) tb.ownership tb.rows (poolRow p.a.toNat) = .here idx →
        (tb.optimiser ≠ 0 → p.step ≠ 0 → stepOpenBelow c1 p.step.toNat = true → r.2 = .wait true) ∧
        ((tb.optimiser = 0 ∨ p.step = 0 ∨ stepOpenBelow c1 p.step.toNat = false) → tb.tier = none →
          (plainPoison t c1 tb idx = none → r.2 = .bytes (rowPrefix tb (p.b.toNat % 8192) (plainRecord t c1 tb idx))) ∧
          (∀ pc, plainPoison t c1 tb idx = some pc → r.2 = .refuse faultTranslation)))) ∧
    (Arrives s p 0x05 c g →
      (∀ r, requestOf (takePacket s p) c.sess p = some r →
        (staleReply (takePacket s p) r.targetIncarn r.owner = false → exec (.rowReply p) s =
          .next (deliver (takePacket s p) { r with state := .returned, data := p.data, bytes := p.data.length })) ∧
        (staleReply (takePacket s p) r.targetIncarn r.owner = true → exec (.rowReply p) s = .next (countStale (takePacket s p) c.sess))) ∧
      (requestOf (takePacket s p) c.sess p = none → exec (.rowReply p) s = .next (takePacket s p))) ∧
    (Arrives s p 0x06 c g → Wakes s p c t c1 →
      (wholeMessage t p = none → exec (.bagReq p) s = .next (keepPacket t p)) ∧
      (∀ bs t1 tb t2 b rows, wholeMessage t p = some (bs, t1) → findTable c1 (p.a.toNat % 2 ^ 24) = some tb →
        let q := { p with data := bs, index := 0, packets := 1, last := true }
        serveRows p.step.toNat tb.rowBytes (bagWords q) t1 c1.sess = (t2, .bytes b, rows) →
        let vs := rows.map fun b => rowElems tb.fmt tb.elems b
        let sum := sumRows (vs.map fun v => v.1)
        let s1 := setCtx (setFlags t2 c1.sess engSplints (vs.foldl (fun a v => a ||| v.2) sum.2)) c1.sess fun c =>
          { c with memCtr := bump c.memCtr 9 1, fabricCtr := bump c.fabricCtr 10 1 }
        exec (.bagReq p) s = .next (countHeld t1
          (sendMessage s1 c1 .west { newPacket s1 g 0x07 p.srcMod.toNat with msg := p.msg, step := p.step } (wordsBytes sum.1)).1 c1.sess))) ∧
    (Arrives s p 0x07 c g → ∀ bs t1 r b x y z, wholeMessage (takePacket s p) p = some (bs, t1) → requestOf t1 c.sess p = some r →
      r.dest = .bag b x y z → staleReply t1 r.targetIncarn r.owner = false → exec (.bagReply p) s = .next (takeBag t1 r b bs))

/-- A contribution to a row held here is stored and accepted, waits when the store is full, and is discarded and counted when
its step is decided (09 R494-R497); the oldest that waits is stored once it fits. An ACCEPT lets its command go on. A replica
write is a provisional write of its step, and a mark is kept (R498, R499; 11 R581, R582). -/
def Obligations.ContributionsAreStored : Prop :=
  ∀ (s : State) (p : Packet) (c : Context) (g : Group) (t : State) (c1 : Context),
    (Arrives s p 0x0A c g → Wakes s p c t c1 → ∀ tb idx, findTable c1 (poolTable p.a.toNat) = some tb →
      ownerOf (myNumber t) tb.ownership tb.rows (poolRow p.a.toNat) = .here idx →
      let x : Contribution := { table := tb.handle, row := idx, step := p.step.toNat, sender := p.srcMod.toNat, seq := p.msg.toNat, grad := bytesWords p.data }
      let accept := fun (st : State) => Host.Outcome.next (φ := Fault) (ρ := Refusal) (sendAccept st c1 g p.srcMod.toNat p.msg.toNat p.step.toNat)
      (tb.optimiser = 0 → exec (.contrib p) s = accept t) ∧
      (tb.optimiser ≠ 0 → stepDecided c1 p.step.toNat = true →
        exec (.contrib p) s = accept (setCtx t c1.sess fun c => { c with memCtr := bump c.memCtr 12 1 })) ∧
      (tb.optimiser ≠ 0 → stepDecided c1 p.step.toNat = false → c1.waiting = [] → storeRoom c1 x = true →
        exec (.contrib p) s = accept (setCtx t c1.sess fun c => { c with contributions := c.contributions ++ [x], memCtr := bump c.memCtr 10 1 })) ∧
      (tb.optimiser ≠ 0 → stepDecided c1 p.step.toNat = false → c1.waiting ≠ [] ∨ storeRoom c1 x = false →
        exec (.contrib p) s = .next (setCtx t c1.sess fun c => { c with waiting := c.waiting ++
          [{ item := x, since := t.now, jobTag := p.jobTag, gid := p.groupId.toNat, ref := none }] }))) ∧
    (∀ w rest, findCtx s c.sess = some c → c.waiting = w :: rest →
      (storeRoom c w.item = false → exec (.contribStoreWaitDone c.sess) s = .next s) ∧
      (storeRoom c w.item = true →
        let s1 := setCtx s c.sess fun c => { c with waiting := rest, contributions := c.contributions ++ [w.item], memCtr := bump c.memCtr 10 1 }
        (∀ ref, w.ref = some ref → exec (.contribStoreWaitDone c.sess) s = .next (contribDone s1 ref)) ∧
        (w.ref = none → (c.groups.find? fun g => g.gid == w.gid && g.jobTag == w.jobTag) = some g →
          exec (.contribStoreWaitDone c.sess) s = .next (sendAccept s1 c g w.item.sender w.item.seq w.item.step)))) ∧
    (Arrives s p 0x10 c g → ∀ q, (takePacket s p).remoteReqs.find? (isContribFor c.sess p) = some q →
      (staleReply (takePacket s p) q.targetIncarn q.peer = true → exec (.accept p) s = .next (countStale (takePacket s p) c.sess)) ∧
      (staleReply (takePacket s p) q.targetIncarn q.peer = false → q.stopped = false →
        exec (.accept p) s = .next (contribDone { takePacket s p with remoteReqs := s.remoteReqs.erase q } q.ref))) ∧
    (Arrives s p 0x0B c g → Wakes s p c t c1 → ∀ tb, findTable c1 (poolTable p.a.toNat) = some tb →
      let step := p.step.toNat
      let counted := fun (st : State) => setCtx st c1.sess fun c => { c with replicaApplied := bumpTriple p.srcMod.toNat step c.replicaApplied }
      (stepDecided c1 step = true → exec (.replicaWrite p) s = .next (counted t)) ∧
      (stepDecided c1 step = false → c1.rim.pending ≠ 0 → c1.rim.pending ≠ step → exec (.replicaWrite p) s = .next (keepPacket t p)) ∧
      (∀ idx r, stepDecided c1 step = false → (c1.rim.pending = 0 ∨ c1.rim.pending = step) → tb.tier = none →
        ownerOf (myNumber t) tb.ownership tb.rows (poolRow p.a.toNat) = .here idx → tableRegion c1 tb.handle = some r →
        (r.unsettledIn (tb.recordVa idx) p.data.length = true → exec (.replicaWrite p) s = .next (keepPacket t p)) ∧
        (r.unsettledIn (tb.recordVa idx) p.data.length = false → exec (.replicaWrite p) s = .next (counted (setCtx
          (tally (optWrite t c1.sess r (tb.recordVa idx) (p.data.take tb.rowBytes)) c1.sess 1 (r.inactive (tb.recordVa idx)) p.data.length)
          c1.sess fun c => { c with rim := { c.rim with pending := step } }))))) ∧
    (Arrives s p 0x0C c g → Wakes s p c t c1 → exec (.replicaMark p) s =
      .next (setCtx t c1.sess fun c => { c with marks := c.marks ++ [(p.srcMod.toNat, p.step.toNat, p.a.toNat % 2 ^ 32)] }))

/-- A row being promoted enters a way of its set once its flash has been read, at most one of its steps is open and a way is to
be had; a way that holds a provisional version or the version before an unsettled step is never the victim (08 R426; 09 R485; 10
R518, R519). The read of its flash ends with the outcome that the tier met; a dirty victim is staged when there is room (10
R511, R541). A fold applies the logged gradients of final steps in order, each with its own step's hyperparameters, and drops
them; the background fold takes the row furthest behind by 32 steps or more, a forced fold by age every row of a step 64 back,
one for room the oldest rows until the append fits, and a list whose entries cannot be folded ends with NO_MEMORY. TR_FOLD ends
when no entry of its rows that it may fold is left (10 R516-R526). -/
def Obligations.RowsArePromotedAndFolded : Prop :=
  (∀ (s : State) (sess : U32) (h : BitVec 24) (row : Nat) (c : Context) (t : Table), findCtx s sess = some c → findTable c h.toNat = some t →
    ((∀ slot v, chooseWay t row = some (slot, some v) → v.provisional = none ∧ v.previous = none ∧ v.slot = slot ∧ v ∈ (tierOf t).ways) ∧
     (∀ slot, chooseWay t row = some (slot, none) → slot < 16 ∧ ∀ w ∈ (tierOf t).ways, ¬ (w.set = setOf t row ∧ w.slot = slot))) ∧
    ((tierOf t).promoting.contains (row, true) = false ∨
      2 ≤ ((logOf s sess h.toNat row).filter fun e => !stepFinal c e.step).length ∨ chooseWay t row = none →
      exec (.promotion sess h row) s = .next s) ∧
    ((tierOf t).promoting.contains (row, true) = true → ((logOf s sess h.toNat row).filter fun e => !stepFinal c e.step).length < 2 →
      (∀ slot, chooseWay t row = some (slot, none) → exec (.promotion sess h row) s = .next (promoteInto s c t row slot none)) ∧
      (∀ slot v, chooseWay t row = some (slot, some v) → v.dirty = false →
        exec (.promotion sess h row) s = .next (promoteInto s c t row slot (some v))) ∧
      (∀ slot v, chooseWay t row = some (slot, some v) → v.dirty = true → stagingRoom s (rowHalf t v.row) v.committed.length = false →
        exec (.promotion sess h row) s = .next s)) ∧
    (let s1 := (unitsOf t row).foldl (fun st u => countUnitRead st t u) s
     let s2 := setTier s1 sess h.toNat fun x => { x with promoting := mapIf (fun p => p.1 == row) (fun p => (p.1, true)) x.promoting }
     (tierOf t).promoting.contains (row, false) = true →
      exec (.flashFetchDone sess h row .hard) s = .next s2 ∧ exec (.flashFetchDone sess h row .retried) s = .next s2 ∧
      ∀ x, findUnit t (firstUnit t row) = some x →
        exec (.flashFetchDone sess h row .rebuilt) s = .next (bucketEvent s2 16
          (BitVec.ofNat 16 (0xA000 + 16 * x.channel + blockOfLocation x.location % diesPerChannel)) 0 x.location) ∧
        exec (.flashFetchDone sess h row .uncorrectable) s = .next (loseUnit s2 sess h.toNat x.unit)) ∧
    (∀ w, (((tierOf t).promoting.filterMap fun p => (chooseWay t p.1).bind fun k => k.2).find? fun w => w.row == row) = some w →
      exec (.writeBackStage sess h row) s = .next (writeBack s sess t w).1 ∧
      (w.dirty = true → stagingRoom s (rowHalf t w.row) w.committed.length = true →
        ∃ x ∈ (writeBack s sess t w).1.tier.staging, x.sess = sess ∧ x.table = t.handle ∧ x.row = w.row ∧ x.record = w.committed))) ∧
  ((∀ (c : Context) (t : Table) (me row : Nat) (e : LogEntry) (es : List LogEntry) (rec : List Byte) (x : RingEntry), ringFor c e.step = some x →
    (foldEntries c t me row (e :: es) rec).1 =
      (foldEntries c t me row es (optRecord t x.hyper c.plaitState (poolOf me t row) e.step rec e.grad).1).1) ∧
  (∀ (s : State) (sess : U32) (t row : Nat) (ctr : Option Nat) (force : Bool) (c : Context), findCtx s sess = some c →
    ∀ e ∈ (foldRow s sess t row ctr force).tier.log, e ∈ s.tier.log ∧
      (e.sess = sess → e.table = t → e.row = row → stepFinal c e.step = true → (foldRow s sess t row ctr force).tier.log = s.tier.log)) ∧
  (∀ (s : State) (h : Half), (s.tier.throttle = true → exec (.backgroundFold h) s = .next s) ∧
    ((∀ c ∈ s.contexts, c.ring = []) → exec (.backgroundFold h) s = .next s) ∧
    (∀ c t k e, s.tier.throttle = false → s.contexts = [c] → loggedRows s c.sess = [k] → findTable c k.1 = some t →
      (logOf s c.sess k.1 k.2).head? = some e → rowHalf t k.2 = h → finalEntries s c k.1 k.2 ≠ [] →
      32 ≤ (c.ring.foldl (fun m r => Nat.max m r.step) 0) - e.step →
      exec (.backgroundFold h) s = .next (foldRow s c.sess k.1 k.2 (some 7) false))) ∧
  (∀ (s : State) (c : Context) (w : LogWait), findCtx s c.sess = some c → c.logWait = some w →
    (∀ a, w.age = some a →
      let rows := (loggedRows s c.sess).filter fun k => s.tier.log.any fun e => e.sess == c.sess && e.table == k.1 && e.row == k.2 && decide (e.step ≤ a)
      let s1 := rows.foldl (fun st k => foldRow st c.sess k.1 k.2 (some 8) false) s
      ((∃ e ∈ s1.tier.log, e.sess = c.sess ∧ e.step ≤ a) → exec (.forcedFoldAge c.sess) s = .next s1) ∧
      ((∀ e ∈ s1.tier.log, e.sess = c.sess → a < e.step) → exec (.forcedFoldAge c.sess) s = .next (clearLogWait s1 c.sess))) ∧
    (w.age = none →
      let fits := fun (st : State) => shareFits st c w.bytes && logFits st w.bytes
      let s1 := (fullRows s c w.bytes).foldl (fun st k => if fits st then st else foldRow st k.1 k.2.1 k.2.2 (some 9) false) s
      (fits s1 = true → exec (.forcedFoldFull c.sess) s = .next (clearLogWait s1 c.sess)) ∧
      (∀ l, fits s1 = false → fullRows s1 c w.bytes = [] → findList s1 w.ref.list = some l →
        let off := cmdOffset l w.ref
        exec (.forcedFoldFull c.sess) s = .next (addLog (endList (clearLogWait s1 c.sess) w.ref.list
          { cls := 3, reason := 1, detail := if shareFits s1 c w.bytes then 0 else 7, res0 := some (BitVec.ofNat 64 off), fault := 0,
            faultOffset := BitVec.ofNat 32 off, faultInfo := 0, endedAt := s.now })
          0x0C 2 { sess := c.sess, tenant := c.tenant, arg0 := 4 })))) ∧
  (∀ (s : State) (r : Running) (c : Context) (s1 : State) (e : CmdErr), Runs s .tier (fun w => cmdOpcode w == 0x60) r c →
    (trFold s c r = .ok s1 → exec .trFold s = .next (armWaits s1)) ∧
    (trFold s c r = .error e → exec .trFold s = .next (faultCommand s r.ref e)) ∧
    (∀ ts, coveredTables c (fld r.word 0x10 23 0) = some ts → (∀ e ∈ s.tier.log, e.sess ≠ c.sess) →
      exec .trFold s = .next (armWaits (shareDone s .tier r.ref))) ∧
    (coveredTables c (fld r.word 0x10 23 0) = none → exec .trFold s = .next (faultCommand s r.ref (errBad .tier)))))

/-- Staged rows are programmed with the staged rows of their units, under WEAR_THROTTLE only what the drain makes room for; a
sync programs every dirty and staged row of its tables, waits for a step that is not settled, and ends with MEDIA on a read-only
channel (10 R511, R512, R528, R529, R536, R537). The care of blocks: a block read 50,000 times since its erase, one that the
patrol finds weak, and one that the tier reclaims have their units moved and are erased; a block whose program or erase fails is
retired, its units moved and the event counted. Moving a unit changes where it lies and nothing else of it (10 R527, R539-R541).
-/
def Obligations.RowsAreProgrammedAndBlocksCaredFor : Prop :=
  ((∀ (s : State) (h : Half) (x : Staged) (t : Table),
    let can := fun (x : Staged) => x.half == h && (match tableOfStaged s x with
      | some t => (unitsOf t x.row).all fun u => channelWritable s (channelOf t u)
      | none => false)
    (s.tier.staging.find? can = none → exec (.stagingProgram h) s = .next s) ∧
    (s.tier.staging.find? can = some x → tableOfStaged s x = some t →
      let rows := s.tier.staging.filter fun y => y.sess == x.sess && y.table == x.table && (unitsOf t y.row).any fun u => (unitsOf t x.row).contains u
      (s.tier.throttle = true → wearCapacity < wearNow s + t.stride * rows.length → exec (.stagingProgram h) s = .next s) ∧
      (s.tier.throttle = false ∨ wearNow s + t.stride * rows.length ≤ wearCapacity →
        exec (.stagingProgram h) s = .next (programRows s x.sess x.table rows) ∧ x ∈ rows ∧
        ∀ y ∈ rows, y ∉ (programRows s x.sess x.table rows).tier.staging))) ∧
  (∀ s : State, (wearNow s * 10 < wearCapacity * 9 → exec .wearThrottleEnd s = .next { s with tier := { s.tier with throttle := false } }) ∧
    (wearCapacity * 9 ≤ wearNow s * 10 → exec .wearThrottleEnd s = .next s)) ∧
  (∀ (s : State) (r : Running) (c : Context) (ts : List Table), Runs s .tier (fun w => cmdOpcode w == 0x61) r c →
    coveredTables c (fld r.word 0x10 23 0) = some ts →
    (∀ n s1, syncTables s c ts = .done n s1 → exec .trSync s = .next (armWaits (shareDone s1 .tier r.ref))) ∧
    (syncTables s c ts = .wait → exec .trSync s = .next (armWaits s)) ∧
    (∀ u, syncTables s c ts = .hw u → exec .trSync s = .next (faultCommand s r.ref (.hw u)))) ∧
  (∀ (s : State) (fn : Nat) (tag : U16) (o : Outstanding) (c : Context), ActsFor s fn tag 0x40 o c →
    (∀ ts, coveredTables c (P0 o % 2 ^ 24) = some ts →
      (∀ n s1, syncTables s c ts = .done n s1 → exec (.tierSync fn tag) s = .next (complete s1 fn tag (stOk0 n))) ∧
      (syncTables s c ts = .wait → exec (.tierSync fn tag) s = .next (markHeld s fn tag)) ∧
      (syncTables s c ts = .media → exec (.tierSync fn tag) s = .next (complete s fn tag stMedia))) ∧
    (coveredTables c (P0 o % 2 ^ 24) = none → exec (.tierSync fn tag) s = .next (complete s fn tag (stBadParam 0x10)))) ∧
  (∀ (s : State) (c : Context) (ts : List Table),
    ((∃ t ∈ ts, ∃ ch, coversState s t 1 = some ch) → syncTables s c ts = .media) ∧
    ((∀ t ∈ ts, coversState s t 1 = none ∧ coversState s t 2 = none) →
      (c.settles ≠ [] ∨ (∃ t ∈ ts, (tierOf t).promoting ≠ []) ∨ s.tier.powerLoss = true → syncTables s c ts = .wait) ∧
      (c.settles = [] → (∀ t ∈ ts, (tierOf t).promoting = []) → s.tier.powerLoss = false → ∃ n s1, syncTables s c ts = .done n s1)))) ∧
  ((∀ (s : State) (ch : Fin 32) (die : Fin 12) (block : Nat) (b : Block),
    (findBlock s ch.val die.val block = some b →
      (50000 ≤ b.reads → channelWritable s ch.val = true →
        exec (.readDisturbRelocate ch die block) s = .next (relocateBlock s ch.val die.val block)) ∧
      (b.reads < 50000 → exec (.readDisturbRelocate ch die block) s = .next s)) ∧
    (let pages := ceilDiv (unitsInBlock s ch.val die.val block).length 4
     let s1 := if pages = 0 then s else setBlock s ch.val die.val block fun b => { b with reads := b.reads + pages }
     exec (.flashPatrol ch die block false) s = .next s1 ∧
     (channelWritable s1 ch.val = true → exec (.flashPatrol ch die block true) s = .next (relocateBlock s1 ch.val die.val block))) ∧
    (channelWritable s ch.val = true → ∃ d k, d < diesPerChannel ∧ k < blocksPerDie ∧
      exec (.reclamation ch) s = .next (relocateBlock (choose s).2 ch.val d k)) ∧
    (channelWritable s ch.val = false → exec (.reclamation ch) s = .next s) ∧
    exec (.programEraseFail ch die block) s = .next (bucketEvent ((unitsInBlock s ch.val die.val block).foldl (moveUnit ch.val)
      (setBlock s ch.val die.val block fun b => { b with retired := true })) 15 (BitVec.ofNat 16 (0xA000 + 16 * ch.val + die.val)) 0 block)) ∧
  (∀ (s : State) (ch die block : Nat) (sess : U32) (h u : Nat),
    let data := fun (st : State) => ((findCtx st sess).bind fun c => findTable c h).map fun t => (findUnit t u).map fun x =>
      (x.data, x.poison, x.synced, x.channel, x.written)
    data (relocateBlock s ch die block) = data s))

/-- The members of a group take the ring positions 0 to n − 1, one each, and consecutive positions are neighbours in the torus
(11 R572, R576). The 2n half-pieces share the C elements out, each element to one (R587); member i's order list of R590 holds
every ring position once, as that rule gives its entries. -/
def Obligations.RingsAndPiecesCoverTheGroup : Prop :=
  (∀ (dims coords : List Nat) (g : Group),
    (∀ a, a < 3 → nthD 0 coords a < nthD 1 dims a ∧ nthD 1 dims a ≤ 16 ∧ g.extentOn a ≤ nthD 1 dims a) →
    let ms := groupMembers dims coords g
    (∀ p, p < g.size → ∃ m ∈ ms, g.position dims m = p) ∧
    (∀ m ∈ ms, g.position dims m < g.size ∧ ∀ m' ∈ ms, (g.position dims m' = g.position dims m → m' = m) ∧
      (g.position dims m' = g.position dims m + 1 → ∃ axis neg, axis < 3 ∧ moveOn dims m axis neg = m'))) ∧
  (∀ n c : Nat, 0 < n →
    (∀ e, e < c → ∃ q, q < 2 * n ∧ (halfPiece n c q).1 ≤ e ∧ e < (halfPiece n c q).1 + (halfPiece n c q).2 ∧
      ∀ k, k < 2 * n → (halfPiece n c k).1 ≤ e → e < (halfPiece n c k).1 + (halfPiece n c k).2 → k = q) ∧
    ∀ i, i < n → ∀ s, s < n →
      orderPlace n i (if s % 2 = 1 then (i + n - (s + 1) / 2) % n else (i + s / 2) % n) = s ∧ ∀ p, p < n → orderPlace n i p = s →
        p = if s % 2 = 1 then (i + n - (s + 1) / 2) % n else (i + s / 2) % n)

/-- Cut into the bodies of 1 to 17 flits, START on the first and END on the last, and sent as flits, which pass their CRC, a
packet reads back from their bodies, whatever acknowledgements and credits the flits carry (11 R554, R563). -/
def Obligations.PacketsSurviveTheirFlits : Prop :=
  ∀ (p : Packet) (seq : Nat → Nat) (ack vc crVc n : Nat), p.data.length ≤ 4096 → (∀ i, seq i < 4096) → ack < 4096 → vc < 8 → crVc < 8 → n < 256 →
    let bodies := bodiesFrom 17 true (packetBytes p)
    let flits := (List.range bodies.length).map fun i => let b := nthD ([], false, false) bodies i; flitBytes (seq i) ack vc 1 b.2.1 b.2.2 crVc n b.1
    1 ≤ flits.length ∧ flits.length ≤ 17 ∧ decodePacket (flits.flatMap fun f => (flitParts f).2.1) = p ∧
    ∀ i, i < flits.length → let f := nthD [] flits i
      f.length = 256 ∧ Machine.flitOk f = true ∧ flitKind f = 1 ∧ (flitParts f).1 = vc ∧ (flitParts f).2.2 = (i == 0, i + 1 == flits.length) ∧
        BitVec.ofNat 12 (fieldAt f 0 8) = BitVec.ofNat 12 (seq i) ∧ bits (fieldAt f 0 8) 23 12 = ack ∧
        bits (fieldAt f 0 8) 34 32 = crVc ∧ bits (fieldAt f 0 8) 42 35 = n

/-- JOIN_GROUP refuses a bad record, job tag or timeout, a job tag of another tenant or a GROUP_ID already held, and else enters
the group and tells every other member; it completes when every member has joined, or fails 10 s later (R572-R574). A JOIN of
another record is not counted. OPEN_PEER_STREAM opens the lowest or a chosen free number towards a member and completes with its
answer, or fails after the group's timeout (R577). -/
def Obligations.GroupsAndStreamsOpen : Prop :=
  ∀ (s : State) (fn : Nat) (tag : U16) (o : Outstanding) (c : Context) (p : Packet) (g : Group),
    (ActsFor s fn tag 0x30 o c →
      let ms := P2 o % 65536
      let job : U32 := BitVec.ofNat 32 (P1 o)
      (∀ e, readVa s c .rd (P0 o) 64 = .error e → exec (.joinGroup fn tag) s = .next (complete s fn tag (stBadParam 0x10))) ∧
      ∀ bs, readVa s c .rd (P0 o) 64 = .ok bs →
        let g0 := groupOfRecord s bs job (if ms = 0 then 50 else ms)
        let good := P0 o % 64 = 0 ∧ g0.gid ≠ 0 ∧ g0.axes ≠ 0 ∧ extentsOk s g0 = true ∧ myNumber s ∈ g0.members ∧ windowOk s c g0 = true
        let timely := ms = 0 ∨ (20 ≤ ms ∧ ms ≤ 1000)
        let foreign := ∃ d ∈ s.contexts, d.tenant ≠ c.tenant ∧ ∃ x ∈ d.groups, x.jobTag = job
        let twice := ∃ x ∈ c.groups, x.gid = g0.gid
        (¬ good → exec (.joinGroup fn tag) s = .next (complete s fn tag (stBadParam 0x10))) ∧
        (good → job = 0 → exec (.joinGroup fn tag) s = .next (complete s fn tag (stBadParam 0x18))) ∧
        (good → job ≠ 0 → ¬ timely → exec (.joinGroup fn tag) s = .next (complete s fn tag (stBadParam 0x20))) ∧
        (good → job ≠ 0 → timely → (foreign ∨ twice) → exec (.joinGroup fn tag) s = .next (complete s fn tag stPolicy)) ∧
        (good → job ≠ 0 → timely → ¬ foreign → ¬ twice → quotaBreach s c.tenant [(0x08, quotaUse s c.tenant 0x08 none + 1)] = none →
          sumNat (s.contexts.map fun d => d.groups.length) < 256 →
          let h := chooseHandle s c
          let g := { g0 with handle := h.1, order := o.order, joinTag := some tag }
          let s1 := markAccepted (setCtx h.2 c.sess fun c => { c with groups := c.groups ++ [g] }) fn tag
          exec (.joinGroup fn tag) s =
            .next (completeJoin ((g.members.filter fun m => m != myNumber s).foldl (fun st m => sendJoin st c g m) s1) c h.1))) ∧
    (Arrives s p 0x13 c g →
      let s1 := takePacket s p
      (p.a ≠ groupDigest g c.tenant ∨ p.srcMod.toNat ∉ g.members ∨ p.srcMod.toNat ∈ g.joined → exec (.join p) s = .next s1) ∧
      (p.a = groupDigest g c.tenant → p.srcMod.toNat ∈ g.members → p.srcMod.toNat ∉ g.joined →
        let s2 := setGroup s1 c.sess g.handle fun g => { g with joined := g.joined ++ [p.srcMod.toNat] }
        exec (.join p) s = .next
          (completeJoin (sendJoin s2 c { g with joined := g.joined ++ [p.srcMod.toNat] } p.srcMod.toNat) c g.handle))) ∧
    (waitingJoin s fn tag = some (c, g) →
      exec (.joinGroupTimeout fn tag) s = .next (if g.joinedAt + 10 * 10 ^ 9 ≤ s.now
        then complete (setCtx s c.sess fun c => { c with groups := c.groups.filter fun x => x.handle != g.handle }) fn tag stTimeout else s)) ∧
    (ActsFor s fn tag 0x31 o c →
      let peer := P1 o % 4096
      (findGroup c (P0 o % 2 ^ 24) = none → exec (.openPeerStream fn tag) s = .next (complete s fn tag (stBadParam 0x10))) ∧
      (findGroup c (P0 o % 2 ^ 24) = some g → g.complete = true → peer ∉ g.members →
        exec (.openPeerStream fn tag) s = .next (complete s fn tag (stBadParam 0x18))) ∧
      (findGroup c (P0 o % 2 ^ 24) = some g → g.complete = true → peer ∈ g.members →
        quotaBreach s c.tenant [(0x09, quotaUse s c.tenant 0x09 none + 1)] = none → (allStreams s).length < 8192 →
        ∃ n h s1 x, exec (.openPeerStream fn tag) s = .next (sendFrom (markAccepted (setCtx s1 c.sess fun c =>
              { c with streams := c.streams ++ [x] }) fn tag) c .west
            { newPacket s1 g 0x11 peer with msg := BitVec.ofNat 32 n, stream := BitVec.ofNat 16 n }).1 ∧
          n < 8192 ∧ (∀ y ∈ allStreams s, y.number ≠ n) ∧ 0x800000 ≤ h ∧ h < 2 ^ 24 ∧ s1.contexts = s.contexts ∧
          x = { number := n, handle := h, group := g.handle, peer := peer, rxBytes := none, nextTransfer := 0, openedAt := s.now, openTag := some tag }) ∧
      ∀ d x, (∀ d' ∈ s.contexts, d'.fn = fn → ∀ y ∈ d'.streams, y.openTag = some tag → d' = d ∧ y = x) → d ∈ s.contexts → d.fn = fn →
        x ∈ d.streams → x.openTag = some tag → findGroup d x.group = some g →
        exec (.openPeerStreamTimeout fn tag) s = .next (if x.openedAt + g.timeoutNs ≤ s.now
          then complete (setCtx s d.sess fun c => { c with streams := c.streams.filter fun y => y.number != x.number }) fn tag stTimeout else s)) ∧
    (Arrives s p 0x11 c g →
      let x : RxStream := { src := p.srcMod.toNat, stream := p.msg.toNat, nextTransfer := 0, arrived := [], refused := [] }
      let s1 := setRx (takePacket s p) c.sess g.handle x
      exec (.streamOpen p) s = .next (sendFrom s1 c .west { newPacket s1 g 0x12 p.srcMod.toNat with
        msg := p.msg, stream := p.stream, a := BitVec.ofNat 64 g.rxBytes }).1) ∧
    (Arrives s p 0x12 c g → ∀ x tg, (c.streams.find? fun x => x.number == p.msg.toNat && x.peer == p.srcMod.toNat && x.group == g.handle &&
        x.rxBytes.isNone) = some x → x.openTag = some tg →
      let taken := fun (y : PeerStream) => { y with rxBytes := some (p.a.toNat % 2 ^ 48), openTag := none }
      exec (.streamAccept p) s = .next (complete (setCtx (takePacket s p) c.sess fun c =>
        { c with streams := mapIf (fun y => y.number == x.number) taken c.streams }) c.fn tg (stOk1 x.number x.handle)))

/-- A packet that names no group of this module is dropped and counted, without a refusal (R565). One for an older incarnation
is answered with TARGET_RESET when it is a REQUEST or BULK message, counted in STALE_REPLIES when it is a REPLY, and dropped
when it is CONTROL (R566); one of a reserved TYPE is dropped and counted (R564). FB_SEND faults with BAD_COMMAND beyond the
peer's window or with a remote signal above 47, and else sends its bytes as one WRITE message of its stream's next transfer
number and completes once they have left memory (R578, R579). A WRITE packet is written at RX_BASE plus its offset and counted;
a transfer that is whole, after every earlier one, applies its signal; one that meets no translation is refused and never
signals (R580). A REFUSAL faults the command it concerns. -/
def Obligations.PacketsAndTransfersRun : Prop :=
  (∀ (s : State) (p : Packet),
    (∀ x ∈ packetRows, p.type.toNat = x.1 → p.dstMod.toNat = myNumber s →
      let s1 := takePacket s p
      (groupOfPacket s1 p = none → exec (x.2 p) s = .next { s1 with fabric := { s1.fabric with tagDrops := s1.fabric.tagDrops + 1 } }) ∧
      ∀ c g, groupOfPacket s1 p = some (c, g) → p.incarn ≠ s.faults.moduleIncarnation →
        exec (x.2 p) s = .next (match classOf x.1 with
          | some 1 | some 3 => refusePacket s1 c.tenant p 0x0003
          | some 2 => setCtx s1 c.sess fun c => { c with fabricCtr := bump c.fabricCtr 15 1 }
          | _ => s1)) ∧
    (classOf p.type.toNat = none → p.dstMod.toNat = myNumber s → exec (.unknownPacket p) s = .next { s with fabric := { s.fabric with
      received := s.fabric.received.erase p, typeDrops := s.fabric.typeDrops + 1 } })) ∧
  (∀ (s : State) (r : Running) (c : Context) (p : Packet) (g : Group) (t : State) (c1 : Context),
    (Runs s .fabric (fun w => cmdOpcode w == 0x50) r c →
      let w := r.word
      let sem := fld w 0x28 5 0
      let off := fld w 0x20 47 0
      ∀ x d room, (c.streams.find? fun x => x.number == fld w 0x10 12 0) = some x → r.desc 0x18 = some d → x.rxBytes = some room →
        findGroup c x.group = some g →
        let as := if d.empty then [] else d.footprint
        ((fld w 0x28 7 7 = 1 ∧ 47 < sem) ∨ room < off + as.length → exec .fbSend s = .next (faultCommand s r.ref (errBad .fabric))) ∧
        (¬ (fld w 0x28 7 7 = 1 ∧ 47 < sem) → off + as.length ≤ room →
          (∀ e, readBytesAt s c .rd as = .error e → exec .fbSend s = .next (faultCommand s r.ref (errMem 0xFFFF e))) ∧
          ∀ data, readBytesAt s c .rd as = .ok data →
            let s1 := setCtx (tallyRuns s c.sess 0 as) c.sess fun c =>
              { c with streams := mapIf (fun y => y.number == x.number) (fun y => { y with nextTransfer := y.nextTransfer + 1 }) c.streams
                       fabricCtr := bump (bump c.fabricCtr 0 data.length) 2 1 }
            let h := { newPacket s1 g 0x01 x.peer with
              sig := fld w 0x28 7 7 == 1, stream := BitVec.ofNat 16 x.number, msg := BitVec.ofNat 32 x.nextTransfer,
              b := BitVec.ofNat 64 (if fld w 0x28 63 32 = 0 then 1 else fld w 0x28 63 32), step := 0 }
            let q : RemoteReq :=
              { msg := x.nextTransfer, ref := r.ref, sess := r.sess, group := g.handle, type := 0x01, hop := 0, items := [x.number], peer := x.peer,
                targetIncarn := incarnOfModule s1 x.peer, sentAt := s.now, stopped := false }
            let u := sendAll { s1 with remoteReqs := s1.remoteReqs ++ [q] } c .west (transferPackets h off sem data)
            exec .fbSend s = .next (if u.2 then armWaits (shareDone u.1 .fabric r.ref) else faultCommand s r.ref (.hw (cutPort s x.peer))))) ∧
    (Arrives s p 0x01 c g → Wakes s p c t c1 →
      let va := g.rxBase + p.a.toNat % 2 ^ 48
      let sig := if p.sig then some (p.a.toNat / 2 ^ 48 % 64, BitVec.ofNat 32 p.b.toNat) else none
      let x := rxOf g p.srcMod.toNat p.stream.toNat
      (∀ e, writeVa t c1 .wr va p.data = .error e → exec (.writePacket p) s =
        .next (refusePacket (setRx t c1.sess g.handle (x.note p.msg.toNat p.packets.toNat sig true)) c1.tenant p faultTranslation)) ∧
      ∀ t1, writeVa t c1 .wr va p.data = .ok t1 →
        let n := x.note p.msg.toNat p.packets.toNat sig false
        let done := n.takeDone n.arrived.length
        let t2 := setCtx (tally t1 c1.sess 1 va p.data.length) c1.sess fun c => { c with fabricCtr := bump c.fabricCtr 1 p.data.length }
        exec (.writePacket p) s =
          .next (armWaits (done.1.foldl (fun st k => remoteSignal st c1.sess k) (setRx t2 c1.sess g.handle done.2)))) ∧
    (∀ (x : RxStream) (fuel : Nat), (∀ a ∈ x.arrived, a.2.2.1 < a.2.1 ∨ a.1 ≠ x.nextTransfer ∨ a.1 ∈ x.refused) → x.takeDone fuel = ([], x)) ∧
    (Arrives s p 0x0F c g → ∃ s2, s2.mem = s.mem ∧ s2.lists = s.lists ∧
      exec (.refusal p) s = .next (match refusedCommand (takePacket s p) c g p with
        | some (ref, unit, info) => faultCommand s2 ref (.code (p.a.toNat % 65536) unit info)
        | none => s2)))

/-- FB_COLL faults with BAD_COMMAND without a complete group or with operands that break Table 11.8; it waits while a collective
of its group runs; else it takes the next sequence, ends at once when that is aborted already, or tells its readiness, by the
ring for a ring collective and by the flood for ALL_TO_ALL and BARRIER, and takes up what has come early (R583-R586, R595).
Readiness, a barrier state and data go to the collective they name, and a mismatch of them aborts it (R585, R591); the timeout
originates an abort (R593), and 80 µs after the first abort the collective ends with the one kept (R594). -/
def Obligations.CollectivesRun : Prop :=
  ∀ (s : State) (r : Running) (c : Context) (g : Group) (p : Packet) (n : Nat) (gr : BitVec 24) (x : Collective) (t : State) (axis : Nat),
    (∀ k ∈ collRows, Runs s .fabric (fun w => cmdOpcode w == 0x51 && fld w 0x28 3 0 == k.1) r c →
      let src := r.desc 0x18
      let dst := r.desc 0x20
      let h := fld r.word 0x10 23 0
      let bad : Host.Outcome State Fault Refusal := .next (faultCommand s r.ref (errBad .fabric))
      (findGroup c h = none → exec k.2 s = bad) ∧
      (findGroup c h = some g →
        (g.complete = false ∨ collOk k.1 g.size src dst = false → exec k.2 s = bad) ∧
        (g.complete = true → collOk k.1 g.size src dst = true →
          (∀ va, collSpans s c src dst = some va → exec k.2 s = .next (faultCommand s r.ref (.code faultTranslation 0xFFFF va))) ∧
          (collSpans s c src dst = none →
            (g.current ≠ none → exec k.2 s = .next (armWaits s)) ∧
            (g.current = none →
              let y : Collective := { ref := r.ref, seq := g.nextSeq, kind := k.1, op := fld r.word 0x28 7 4, wire := (collShape k.1 src dst).1, count := (collShape k.1 src dst).2, step := fld r.word 0x30 31 0, startedAt := s.now, readyPos := false, readyNeg := false, phase := 0, heard := [], outbox := [], got := [], abort := none }
              let s1 := setGroup s c.sess g.handle fun g => { g with nextSeq := g.nextSeq + 1, current := some y }
              (∀ a, (g.aborts.find? fun a => a.1 == 0 && a.2.1 == g.nextSeq) = some a →
                exec k.2 s = .next (armWaits (endColl s1 c.sess g.handle r.ref (.group a.2.2.2 a.2.2.1 0xFFFF)))) ∧
              ((g.aborts.find? fun a => a.1 == 0 && a.2.1 == g.nextSeq) = none → ∀ s2,
                collBegin (markStarted s1 .fabric r.ref) c g y src dst = .ok s2 →
                let ready := fun (st : State) (m : Nat) => (sendFrom st c .west { phasePacket st g y with
                  dstMod := BitVec.ofNat 12 m, incarn := incarnOfModule st m }).1
                let s3 := if k.1 = 3 ∨ k.1 = 5 then floodAxis s2 c g 0 (phasePacket s2 g y)
                  else if g.size = 1 then s2 else [ringNext s g false, ringNext s g true].eraseDups.foldl ready s2
                exec k.2 s = .next (armWaits (collGo ((g.early.filter fun e => e.seq == g.nextSeq).foldl
                  (fun st e => takeNote st c.sess g.handle e) (advancePhase 4 s3 c.sess g.handle)) c.sess g.handle)))))))) ∧
    (Arrives s p 0x03 c g → p.a.toNat % 16 ≠ 3 → exec (.collReady p) s = .next (collNote (takePacket s p) c g
      { seq := p.msg.toNat, src := p.srcMod.toNat, kind := p.a.toNat % 16, op := p.a.toNat / 16 % 16, wire := p.a.toNat / 256 % 16, count := p.a.toNat / 2 ^ 32 })) ∧
    (Floods s p 0x03 t c g axis → p.a.toNat % 16 = 3 → exec (.collReady p) s = .next (collNote t c g
      { seq := p.msg.toNat, src := p.srcMod.toNat, kind := 3, op := p.a.toNat / 16 % 16, wire := p.a.toNat / 256 % 16, count := p.a.toNat / 2 ^ 32 })) ∧
    (Floods s p 0x14 t c g axis → exec (.barrierPacket p) s =
      .next (if p.a.toNat % 2 = 1 then collNote t c g { seq := p.msg.toNat, src := p.srcMod.toNat, kind := 5, op := 0, wire := 0, count := 0 } else t)) ∧
    (Arrives s p 0x02 c g → collOf (takePacket s p) c.sess g.handle = some (c, g, x, r) → x.seq = p.msg.toNat → x.abort = none →
      let s1 := takePacket s p
      let reducing := p.a.toNat % 16 = 0 ∨ p.a.toNat % 16 = 1
      let differs := dataDiffers x (fld r.word 0x18 47 0 != 0) p.a.toNat
      (differs = true → exec (.collData p n) s = .next (originateAbort s1 c.sess g.handle 0 x.seq faultBadCommand)) ∧
      (differs = false → reducing → 2 ≤ n → exec (.collData p n) s = .next (originateAbort (setCtx (countMismatch s1 p.srcMod.toNat 2) c.sess
        fun c => { c with fabricCtr := bump c.fabricCtr 8 1 }) c.sess g.handle 0 x.seq 0x0006)) ∧
      (differs = false → reducing → n = 0 → ∀ a b t, r.desc 0x18 = some a → r.desc 0x20 = some b → collReduce s1 c g x a b p = .ok t →
        exec (.collData p n) s = .next (armWaits (collGo t c.sess g.handle))) ∧
      (differs = false → ¬ reducing → ∀ t, collCarry s1 c g x (r.desc 0x20) p = .ok t →
        exec (.collData p n) s = .next (armWaits (collGo t c.sess g.handle)))) ∧
    (∀ sess, collOf s sess gr.toNat = some (c, g, x, r) →
      exec (.collectiveTimeout sess gr) s = .next (if x.startedAt + g.timeoutNs ≤ s.now ∧ x.abort = none
        then originateAbort s sess gr.toNat 0 x.seq faultTimeoutColl else s) ∧
      (∀ o e since, x.abort = some (o, e, since) → exec (.abortEnd sess gr) s =
        .next (if since + 80000 ≤ s.now then endColl s sess gr.toNat x.ref (.group e o 0xFFFF) else s)))

/-- A VOTE is taken up and its round goes on as far as it can (08 R433). An ABORT of a lower originator than the member knows is
kept, sent on along the later axes and acted on; any other changes nothing more (08 R440-R442; 11 R594, R595). A voter without a
decision in the group's timeout skips, records ABORTED and sends the abort (08 R440); a settle without its end is aborted
(R442). A remote request or contribution without an answer ends its list with TIMEOUT_COLL (05 R264; 09 R496). -/
def Obligations.VotesAndAbortsAreTakenUp : Prop :=
  ∀ (s : State) (p : Packet) (t t1 : State) (c c1 : Context) (g : Group) (axis : Nat) (sess : U32),
    (Floods s p 0x0D t c g axis → activateByPacket t c.sess = (t1, true) → findCtx t1 c.sess = some c1 →
      let v : VoteRx := { step := p.step.toNat, settle := p.a.toNat / 2 % 2 == 1, phase := axis, src := p.srcMod.toNat, set := p.a.toNat % 2 == 1, lowest := p.b.toNat % 4096 }
      let kept := fun (g : Group) => { g with votes := v :: g.votes.filter fun x => !(x.step == v.step && x.settle == v.settle && x.phase == v.phase && x.src == v.src) }
      let s1 := setGroup t1 c1.sess g.handle kept
      exec (.vote p) s = .next (if v.settle then advanceSettle 4 s1 c1.sess v.step else advanceVote 4 s1 c1.sess)) ∧
    (Floods s p 0x0E t c g axis → activateByPacket t c.sess = (t1, true) → findCtx t1 c.sess = some c1 →
      let seq := p.msg.toNat
      let err := p.a.toNat % 65536
      let kind := p.a.toNat / 65536 % 4
      let o := p.b.toNat % 4096
      let lower := ∀ y, (g.aborts.find? fun y => y.1 == kind && y.2.1 == seq) = some y → o < y.2.2.1
      let isOver := kind = 0 ∧ seq < g.nextSeq ∧ ∀ y, g.current = some y → y.seq ≠ seq
      let s1 := floodAbort (setGroup t1 c1.sess g.handle (keepAbort kind seq o err)) c1 g (axis + 1) kind seq o err
      (¬ lower ∨ isOver → exec (.abort p) s = .next t1) ∧
      (lower → ¬ isOver →
        exec (.abort p) s = .next (match kind with
          | 0 => setGroup s1 c1.sess g.handle (noteCollAbort s.now seq o err)
          | 1 => decisionAbort s1 c1 seq o err
          | _ => setSettle s1 c1.sess seq fun y => { y with aborted := true }))) ∧
    (∀ v, findCtx s sess = some c → c.vote = some v → findGroup c v.group = some g → v.decision = .none →
      (s.now < v.castAt + g.timeoutNs → exec (.decisionTimeout sess) s = .next s) ∧
      (v.castAt + g.timeoutNs ≤ s.now →
        let s1 := if c.rim.pending = v.step then skipStep s sess v.step else s
        exec (.decisionTimeout sess) s = .next (releaseHeld (originateAbort (voteAborted s1 sess (myNumber s) faultTimeoutColl) sess g.handle 1
          v.step faultTimeoutColl) sess))) ∧
    (∀ x rest, findCtx s sess = some c → c.settles = x :: rest → x.aborted = false → findGroup c x.group = some g → x.startedAt + g.timeoutNs ≤ s.now →
      exec (.settleTimeout sess) s = .next (originateAbort (setSettle s sess x.step fun x => { x with aborted := true }) sess x.group 2 x.step
        faultTimeoutColl)) ∧
    (∀ id q, (s.requests.find? fun q => q.id == id && !q.stopped && (q.state == ReqState.remote || q.state == ReqState.held)) = some q →
      findCtx s q.sess = some c → (if q.state = .remote then findGroup c q.group else heldGroup c q) = some g →
      exec (.remoteReplyTimeout id) s = .next (if q.issuedAt + g.timeoutNs ≤ s.now
        then faultCommand s q.ref (.group faultTimeoutColl (myNumber s) (CoreId.unit q.splint)) else s)) ∧
    (∀ (h : Half) q, s.remoteReqs = [q] → q.type = 0x0A → groupOfReq s q.sess q.group = some g →
      exec (.contribAcceptTimeout h) s = .next (if q.stopped = false ∧ q.sentAt + g.timeoutNs ≤ s.now ∧
          (∃ r ∈ (findEngine s (.splints h)).running, r.ref = q.ref)
        then faultCommand s q.ref (.group faultTimeoutColl (myNumber s) h.num) else s))

/-- A DATA flit of the expected SEQ joins its packet, which at END is received or goes on; one of another SEQ, or one that fails
its CRC, is discarded and a NAK asks for the expected SEQ (R554-R556); a NAK replays from the SEQ it names; an IDLE flit brings
acknowledgement and credits. A port pumped sends only what its channel's credits and the retry buffer allow: never more than
4,095 flits unacknowledged, one credit used for each flit, and nothing while it is held (R555, R558, R561); flits of one channel
leave in the order in which they waited (R562). A port comes up when its peer is the expected neighbour's port of the same plane
and the opposite direction, else it is WIRING and tries again once a second (R553); hold and resume stop and restart it (R558);
a lane failure narrows it or takes it down, and 5 ms of holding take it down (R559, R560); link states and time come from other
modules, a correction being at most 100 ns for each exchange, and a first lock before READY sets the counter (R570, R598, R600).
-/
def Obligations.LinksCarryFlits : Prop :=
  (∀ (s : State) (n : PortNo) (f : List Byte) (seq : BitVec 12) (p : Port), findPort s n.val = some p →
    let live := p.state = .up ∨ p.state = .held
    (¬ live → exec (.dataFlit n f) s = .next s ∧ exec (.idleFlit n f) s = .next s ∧ exec (.nak n seq) s = .next s) ∧
    (live →
      (Machine.flitOk f = false → exec (.dataFlit n f) s = .next (bucketEvent (askAgain s n.val) 11 (BitVec.ofNat 16 (0xC000 + n.val)) 0 0)) ∧
      (Machine.flitOk f = true → flitKind f = 1 →
        (BitVec.ofNat 12 (fieldAt f 0 8) ≠ p.expected → exec (.dataFlit n f) s = .next (askAgain s n.val)) ∧
        (BitVec.ofNat 12 (fieldAt f 0 8) = p.expected →
          let parts := flitParts f
          let before := if parts.2.2.1 then [] else match p.assembly.find? fun x => x.1 == parts.1 with | some x => x.2 | none => []
          let left := if parts.2.2.2 then [] else [(parts.1, before ++ parts.2.1)]
          let s1 := setPort s n.val fun q => takeAck f { q with
            expected := q.expected + 1, nakOpen := false, assembly := (q.assembly.filter fun x => x.1 != parts.1) ++ left }
          let q := decodePacket (before ++ parts.2.1)
          let s2 := setPort s1 n.val (freeSlots parts.1 (flitsOf (before ++ parts.2.1).length))
          (parts.2.2.2 = false → exec (.dataFlit n f) s = .next (afterFlit s1 n.val)) ∧
          (parts.2.2.2 = true → q.dstMod.toNat = myNumber s2 → exec (.dataFlit n f) s = .next (afterFlit (keepPacket s2 q) n.val)) ∧
          (parts.2.2.2 = true → q.dstMod.toNat ≠ myNumber s2 →
            exec (.dataFlit n f) s = .next (afterFlit (forwardPacket s2 n.val parts.1 q) n.val)))) ∧
      (Machine.flitOk f = true → flitKind f = 0 → exec (.idleFlit n f) s = .next (afterFlit (setPort s n.val (takeAck f)) n.val)) ∧
      (let keep := ackRetry seq p
       exec (.nak n seq) s = .next (bucketEvent (pump (setPort s n.val fun q => { q with
         retry := keep, out := q.out ++ keep.map fun x => x.2 }) n.val) 10 (BitVec.ofNat 16 (0xC000 + n.val)) 0 0))) ∧
    exec (.nakRepeat n) s = .next (if p.nakOpen then linkOut s n.val [0, p.expected.toNat] else s)) ∧
  (∀ (p : Port) (k : Nat), p.credits.length = 8 → (∀ w ∈ p.waiting, w.1 < 8) →
    let q := pumpPort k p
    (p.retry.length ≤ 4095 → q.retry.length ≤ 4095) ∧ (p.state ≠ .up → q = p) ∧
    q.out.length - p.out.length = q.retry.length - p.retry.length ∧
    (∀ vc, vc < 8 → ∃ sent, (p.waiting.filter fun w => w.1 == vc) = sent ++ (q.waiting.filter fun w => w.1 == vc) ∧
      nthD 0 q.credits vc + sent.length = nthD 0 p.credits vc)) ∧
  (∀ (s : State) (n peerPort : PortNo) (peer m live acc : BitVec 12) (inc : Byte) (lane : Fin 4) (off : Int) (p : Port), findPort s n.val = some p →
    let s1 := { s with fabric := { s.fabric with peers := (s.fabric.peers.filter fun x => x.1 != peer.toNat) ++ [(peer.toNat, inc)] } }
    let s2 := setPort s1 n.val fun q => { q with peer := peer.toNat, peerPort := peerPort.val }
    let right := peer.toNat = expectedPeer s n.val ∧ peerPort.val = (if n.val / 2 % 2 = 0 then n.val + 2 else n.val - 2) ∧ s.fabric.dims ≠ [1, 1, 1]
    (p.state = .retired → exec (.linkState n peer peerPort inc) s = .next s) ∧
    (p.state ≠ .retired → p.state ≠ .up → p.state ≠ .held → p.lanes ≠ 0 →
      (right → exec (.linkState n peer peerPort inc) s = .next (linksChanged (setPort s2 n.val fun q => { q with
        state := .up, credits := fullCredits, nextSeq := 0, expected := 0, retry := [], freed := [], assembly := [], nakOpen := false }))) ∧
      (¬ right → exec (.linkState n peer peerPort inc) s = .next (setPort s2 n.val fun q => { q with state := .wiring, lastTry := s.now }))) ∧
    (p.state = .wiring → p.lastTry + 1000000000 ≤ s.now → exec (.wiringRetry n) s =
      .next (setPort (linkOut s n.val [1, myNumber s, n.val, s.faults.moduleIncarnation.toNat]) n.val fun q => { q with lastTry := s.now })) ∧
    (p.state ≠ .wiring ∨ s.now < p.lastTry + 1000000000 → exec (.wiringRetry n) s = .next s) ∧
    (exec (.hold n) s = .next (setPort s n.val fun q => if q.state = .up then { q with state := .held, heldSince := s.now } else q)) ∧
    (exec (.resume n) s = .next (pump (setPort s n.val fun q => if q.state = .held then { q with state := .up } else q) n.val)) ∧
    (p.state = .held → p.heldSince + 5000000 ≤ s.now → exec (.portHoldTimeout n acc) s =
      .next (bucketEvent (linksChanged (portDown s n.val acc .down)) 13 (BitVec.ofNat 16 (0xC000 + n.val)) 0 0)) ∧
    (p.state ≠ .held ∨ s.now < p.heldSince + 5000000 → exec (.portHoldTimeout n acc) s = .next s) ∧
    (p.state = .up → p.lanes = 0xF →
      let s3 := setPort s n.val fun q => { q with
        lanes := if lane.val < 2 then 12 else 3, state := if q.state = .up then .held else q.state, heldSince := s.now }
      exec (.laneFailure n lane) s = .next (linkOut (setPort s3 n.val fun q => { q with retrains := Nat.min (q.retrains + 1) 65535 }) n.val [2])) ∧
    (m.toNat = myNumber s → exec (.linkStateUpdate m live) s = .next s) ∧
    (m.toNat ≠ myNumber s → exec (.linkStateUpdate m live) s = .next (chooseGrandmaster
      { s with fabric := { s.fabric with links := (s.fabric.links.filter fun l => l.1 != m.toNat) ++ [(m.toNat, live)] } })) ∧
    (s.fabric.grandmaster = true ∨ liveMask s = 0 → exec (.timeExchange off) s = .next s) ∧
    (s.fabric.grandmaster = false → liveMask s ≠ 0 →
      (s.fabric.locked = false → s.mstate = .upsett → exec (.timeExchange off) s = .next { s with
        now := ((s.now : Int) + off.tdiv 65536).toNat, fabric := { s.fabric with offset := off, locked := true, everLocked := true, slewNs := 0 } }) ∧
      (s.fabric.locked = true ∨ s.mstate ≠ .upsett → ∃ k : Int, -100 ≤ k ∧ k ≤ 100 ∧
        exec (.timeExchange off) s = .next { s with fabric := { s.fabric with offset := off, locked := true, everLocked := true, slewNs := k } } ∧
        (-100 ≤ off.tdiv 65536 → off.tdiv 65536 ≤ 100 → k = off.tdiv 65536))))

/-- An image passes when its size, magic, format, reserved fields, key, signature, security version and interface major version
are as the rules of R658 say, and only then. An FW_UPDATE is superseded when a later one has been read, refused with POLICY
while one runs (R664) and with the rule's code for an image that fails; with activate clear it writes the slot that does not run
and completes (R660), with activate set it starts phase 1 (R661). A healthy follower takes the lease under a new epoch, its slot
becoming the boot slot, and the update completes with the version now running once the old leader is back (R661); phase 1 that
fails its bound, and phase 4 that fails twice, fall back to the previous image (R662). In RECOVERY a verified image goes to both
slots, in any other state POLICY answers (02 R114). -/
def Obligations.FirmwareIsUpdated : Prop :=
  ((∀ (f : Firmware) (size : Nat) (bs : List Byte), verifyFirmware f size bs = none ↔
    size = 64 + fieldAt bs 0x10 4 + 96 ∧ size ≤ 16 * 2 ^ 20 ∧ fieldAt bs 0x10 4 % 4096 = 0 ∧ fieldAt bs 0 4 = 0x53565950 ∧ fieldAt bs 4 1 = 3 ∧
      fieldAt bs 6 2 = 0 ∧ fieldAt bs 0x14 44 = 0 ∧ fieldAt bs 5 1 < 4 ∧ Config.fwKeyFused (fieldAt bs 5 1) = true ∧
      Config.fwKeyRevoked (fieldAt bs 5 1) = false ∧ f.fusedMinimum ≤ fieldAt bs 0xC 2 ∧ fieldAt bs 0xE 1 = 3 ∧
      ecdsaVerify (Config.fwKey (fieldAt bs 5 1)) (bs.take (bs.length - 96)) (bs.drop (bs.length - 96)) = true) ∧
  (∀ f : Firmware, f.slotA.verified = true → f.slotB.verified = true →
    (raiseMinimum f).fusedMinimum = Nat.max f.fusedMinimum (Nat.min f.slotA.security f.slotB.security)) ∧
  ∀ (s : State) (fn : Nat) (tag : U16) (o : Outstanding), ActsOn s fn tag o → o.sub.opcode = 0x83 → o.sub.p2.getLsbD 1 = false →
    let act := o.sub.p2.getLsbD 0
    let run := exec (if act then .fwUpdateActivate fn tag else .fwUpdate fn tag) s
    let slot := 1 - s.fw.running % 2
    (fwOvertaken s fn o = true → run = .next (complete s fn tag stOvertaken)) ∧
    (fwOvertaken s fn o = false → s.fw.update ≠ none → run = .next (complete s fn tag stPolicy)) ∧
    (fwOvertaken s fn o = false → s.fw.update = none → P1 o ≤ 16 * 2 ^ 20 → HostTakes s (P0 o) (P1 o) →
      let bs := readCells s.hostMem (P0 o) (P1 o)
      let s1 := { s with fw := raiseMinimum (setSlot s.fw slot { version := imgVersion bs, security := imgSecurity bs, verified := true }) }
      (verifyFirmware s.fw (P1 o) bs = some 0x40 → run = .next (complete s fn tag (stVerifier 0x40))) ∧
      (∀ k, verifyFirmware s.fw (P1 o) bs = some k → k ≠ 0x40 →
        run = .next (complete { s with fw := setSlot s.fw slot (imageOf bs false) } fn tag (stVerifier k))) ∧
      (verifyFirmware s.fw (P1 o) bs = none →
        (act = false → run = .next (complete s1 fn tag (stOk0 s.fw.runningVersion.toNat))) ∧
        (act = true → run = .next (markAccepted { s1 with
          lead := { s.lead with followerUp := false },
          fw := { s1.fw with update := some { fn := fn, tag := tag, phase := 1, startedAt := s.now, failures := 0, oldSlot := s.fw.running, oldVersion := s.fw.runningVersion } } }
          fn tag))))) ∧
  (∀ (s : State) (fn : Nat) (tag : U16) (o : Outstanding) (u : Update),
    (s.fw.update = none → exec .fwFollowerHealthy s = .next s ∧ exec .fwActivationDone s = .next s ∧ exec .fwPhaseTimeout s = .next s) ∧
    (s.fw.update = some u →
      (u.phase = 1 → followerSound s = true → ∃ t, exec .fwFollowerHealthy s = .next t ∧ t.lead.leader = s.lead.leader.other ∧
        t.lead.epoch = nextEpoch s.lead.epoch ∧ t.mstate = .ready ∧ t.fw.bootSlot = 1 - u.oldSlot % 2 ∧
        t.fw.runningVersion = (slotImage s.fw (1 - u.oldSlot % 2)).version ∧ t.fw.update = some { u with phase := 4, startedAt := s.now, failures := 0 } ∧
        t.sessions = s.sessions ∧ t.lists = s.lists ∧ t.contexts = s.contexts) ∧
      (u.phase = 4 → followerSound s = true →
        let s1 := { s with fw := { s.fw with update := none }, lead := { s.lead with followerUp := true } }
        exec .fwActivationDone s = .next (complete (addLog s1 0x07 0 { arg0 := s.fw.runningVersion.toNat, arg1 := 0 }) u.fn u.tag
          (stOk0 s.fw.runningVersion.toNat))) ∧
      (u.phase = 1 → u.startedAt + 300000000 ≤ s.now → exec .fwPhaseTimeout s = .next (complete (addLog { s with
        fw := { s.fw with bootSlot := u.oldSlot, running := u.oldSlot, runningVersion := u.oldVersion, update := none } } 0x07 2
        { arg0 := u.oldVersion.toNat, arg1 := 1 }) u.fn u.tag (stFwFallback u.oldVersion.toNat))) ∧
      (u.phase = 4 → u.startedAt + 2000000000 ≤ s.now → u.failures = 0 → exec .fwPhaseTimeout s = .next { s with
        fw := { s.fw with update := some { u with failures := 1, startedAt := s.now } } }) ∧
      (u.phase = 4 → u.startedAt + 2000000000 ≤ s.now → u.failures ≠ 0 → ∃ t, exec .fwPhaseTimeout s = .next t ∧ t.fw.update = none ∧
        t.fw.running = u.oldSlot ∧ t.fw.bootSlot = u.oldSlot ∧ t.lead.leader = s.lead.leader.other ∧ t.lead.epoch = nextEpoch s.lead.epoch) ∧
      (s.now < u.startedAt + 300000000 → exec .fwPhaseTimeout s = .next s)) ∧
    (findOut s fn tag = some o → o.sub.isRecover fn = true → o.started = false →
      (s.mstate ≠ .recovery → exec (.fwUpdateRecover fn tag) s = .next (complete s fn tag stPolicy)) ∧
      (s.mstate = .recovery → P1 o ≤ 16 * 2 ^ 20 → HostTakes s (P0 o) (P1 o) →
        let bs := readCells s.hostMem (P0 o) (P1 o)
        let i : Image := { version := imgVersion bs, security := imgSecurity bs, verified := true }
        (∀ k, verifyFirmware s.fw (P1 o) bs = some k → exec (.fwUpdateRecover fn tag) s = .next (complete s fn tag (stVerifier k))) ∧
        (verifyFirmware s.fw (P1 o) bs = none →
          let s1 := { s with fw := raiseMinimum { s.fw with slotA := i, slotB := i } }
          let s2 := setMState (complete (addLog s1 0x07 0 { arg0 := i.version.toNat, arg1 := 2 }) fn tag (stOk0 i.version.toNat)) .upsett
          exec (.fwUpdateRecover fn tag) s = .next (match s.power.outcome with
            | some x => upsettFrom 4 { x with handOffA := true, handOffB := true } s2
            | none => s2)))))

/-- RESET_UNIT refuses a class it does not take, and the leader when no other processor can lead; a retired unit fails with
HW_ERROR; else the lease passes first from a leader, the unit is fenced and reset (R641, R642, R644), and its end completes the
command with the new incarnation, or with HW_ERROR and retires a unit that did not return. RETIRE_UNIT refuses the last unit of
its kind and a fifth column with POLICY (R636). A watchdog counts and resets; a bucket falls by its intervals (R631); a
processor rejoins as follower (R654); PERST# low resets every function (15 Table 15.4). -/
def Obligations.UnitsAreResetAndRetired : Prop :=
  ∀ (s : State) (fn : Nat) (tag : U16) (o : Outstanding) (row : Nat) (u : U16) (h : Half),
    (ActsOn s fn tag o → o.sub.opcode = 0x84 →
      let u : U16 := BitVec.ofNat 16 (P0 o)
      let cls := u.toNat / 4096
      let taken := unitKnown u = true ∧ (cls = 0 ∨ cls = 1 ∨ cls = 3 ∨ cls = 4 ∨ cls = 5 ∨ cls = 0xB ∨ cls = 0xC)
      let lone := leads s u = true ∧ cpWorks s s.lead.leader.other = false
      (¬ taken → exec (.resetUnit fn tag) s = .next (complete s fn tag (stBadParam 0x10))) ∧
      (taken → isRetired s u = true → exec (.resetUnit fn tag) s = .next (complete s fn tag (stHwError u.toNat))) ∧
      (taken → isRetired s u = false → lone → exec (.resetUnit fn tag) s = .next (complete s fn tag (stBadParam 0x10))) ∧
      (taken → isRetired s u = false → ¬ lone → unitResetting s u.toNat = false → exec (.resetUnit fn tag) s =
        .next (startReset (markAccepted (if leads s u then passLease (abandonUpdate s) else s) fn tag) u 0 (some (fn, tag))))) ∧
    (∀ r, (s.faults.resetting.find? fun r => r.unit == u) = some r →
      let s1 := { s with faults := { s.faults with resetting := s.faults.resetting.filter fun x => x.unit != u } }
      let done := fun (t : State) (good : Bool) => match r.command with
        | none => t
        | some c => complete t c.1 c.2 (if good then stOk0 (incarnationOf t u).toNat else stHwError u.toNat)
      (exec (.unitResetEnd u false) s = .next (done (actDeferred (unitDead s1 u)) false)) ∧
      (isRetired s1 u = false → isRetired (actDeferred (unitBack s1 u)) u = false →
        exec (.unitResetEnd u true) s = .next (done (actDeferred (unitBack s1 u)) true))) ∧
    ((s.faults.resetting.find? fun r => r.unit == u) = none → ∀ b, exec (.unitResetEnd u b) s = .next s) ∧
    (ActsOn s fn tag o → o.sub.opcode = 0x85 →
      let u : U16 := BitVec.ofNat 16 (P0 o)
      let kept := unitClass u = 0 ∨ isRetired s u = true ∨ lastOfKind s u = true ∨ (unitClass u = 2 ∧ fifthColumn s (unitInst u) = true)
      (u = 0xFFFF ∨ (unitKnown u = true ∧ kept) → exec (.retireUnit fn tag) s = .next (complete s fn tag stPolicy)) ∧
      (u ≠ 0xFFFF → unitKnown u = false → exec (.retireUnit fn tag) s = .next (complete s fn tag (stBadParam 0x10))) ∧
      (unitKnown u = true → ¬ kept →
        let s1 := stackEvents s (retireUnit s u true)
        let s2 := if unitClass u = 0xC ∨ unitClass u = 0xD then linksChanged s1 else s1
        exec (.retireUnit fn tag) s = .next (complete s2 fn tag (stOk0 (perMille s2 (unitClass u)))))) ∧
    (unitKnown u = true → isRetired s u = false → unitResetting s u.toNat = false →
      let s8 := bucketEvent s 8 u 0 0
      (unitClass u ∈ [0x3, 0x4, 0x5, 0xB] → exec (.unitWatchdog u) s = .next (if isRetired s8 u then s8 else startReset s8 u 1 none)) ∧
      (unitClass u = 0xC → exec (.unitWatchdog u) s = .next (startReset s u 1 none)) ∧
      (unitClass u = 1 → leads (bucketEvent s 18 u 0 0) u = false → isRetired (bucketEvent s 18 u 0 0) u = false →
        exec (.unitWatchdog u) s = .next (startReset (bucketEvent s 18 u 0 0) u 1 none))) ∧
    (∃ t, exec (.bucketDrain row u) s = .next t ∧ t = { s with faults := { s.faults with buckets := t.faults.buckets } } ∧
      ∀ b ∈ s.faults.buckets, ∀ n w, bucketRow b.row = some (n, some w) → b.row = row → b.unit = u →
        let k := (s.now - b.since) / (w / n)
        k < b.count → { b with count := b.count - k, since := b.since + k * (w / n) } ∈ t.faults.buckets) ∧
    (∀ kind cause bound cmd, incarnationOf (fenceUnit s u kind cause bound cmd) u = incarnationOf s u + 1 ∧
      unitResetting (fenceUnit s u kind cause bound cmd) u.toNat = true) ∧
    (s.power.pcieUp = true → exec .perst s =
      .next (setBox (((s.boxes.map fun b => b.fn).filter fun f => f != 0).foldl (fun st f => functionReset st 4 f)
        (addLog s 0x05 0 { arg0 := 4, arg1 := 4 })) 0 fun _ => Mailbox.fresh 0)) ∧
    (s.power.pcieUp = false → exec .perst s = .next s) ∧
    (unitResetting s (cpUnit h).toNat = false → h ≠ s.lead.leader → s.lead.followerUp = false → s.lead.heldProcessor = none →
      isRetired s (cpUnit h) = false → unitResetting s h.num = false → s.fw.update = none →
      exec (.processorRejoin h) s = .next { s with lead := { s.lead with followerUp := true, degraded := false } })

/-- READ_ERROR_LOG takes only a non-zero multiple of 64 bytes, and writes the records from P2 on, at most that many, oldest
first, with their count and the number after the last (R668). -/
def Obligations.ErrorLogIsRead : Prop :=
  ∀ (s : State) (fn : Nat) (tag : U16) (o : Outstanding), ActsOn s fn tag o → o.sub.opcode = 0x87 →
    (P1 o = 0 ∨ P1 o % 64 ≠ 0 → exec (.readErrorLog fn tag) s = .next (complete s fn tag (stBadParam 0x18))) ∧
    (0 < P1 o → P1 o % 64 = 0 → LogInOrder s →
      let first := Nat.max (P2 o) (s.faults.nextIndex - s.faults.log.length)
      let n := Nat.min (P1 o / 64) (s.faults.nextIndex - first)
      let rs := (s.faults.log.drop (first + s.faults.log.length - s.faults.nextIndex)).take n
      let bytes := recordBytes (decide (P2 o < first)) rs
      (n = 0 → exec (.readErrorLog fn tag) s = .next (complete s fn tag (stOk1 0 (P2 o)))) ∧
      (0 < n → rs.length = n ∧ bytes.length = 64 * n ∧ ∀ i, i < n → fieldAt bytes (64 * i) 8 = (first + i) % 2 ^ 64) ∧
      (0 < n → HostTakes s (P0 o) (64 * n) →
        exec (.readErrorLog fn tag) s = .next (complete { s with hostMem := writeCells s.hostMem (P0 o) bytes } fn tag (stOk1 n (first + n)))))

/-- The follower that has missed ten heartbeats asks for the lease; with no probe answered it is granted, raising the epoch and
resetting the old leader, and with one it is refused with a record (R651, R652). The leader has a silent follower reset, the
epoch unchanged (R653). A renewal under another epoch, or two claims, fence the processor of the lower epoch, or CP-E, and hold
it (R655). The Handle grants nothing while it restarts (R656). -/
def Obligations.LeaseIsKept : Prop :=
  ∀ (s : State) (h : Half) (e ew ee : U32) (ch : Fin 4),
    let lead := s.lead.leader
    let beat := fun (h : Half) => match h with | .west => s.lead.lastBeatWest | .east => s.lead.lastBeatEast
    exec (.bridgeLoss ch) s = .next (goDown (addLog s 0x03 4 { unit := BitVec.ofNat 16 (0xE000 + ch.val) }) (0xE000 + ch.val)) ∧
    (cpWorks s h = true → ∃ t, exec (.heartbeat h) s = .next t ∧
      t = { s with lead := { s.lead with lastBeatWest := t.lead.lastBeatWest, lastBeatEast := t.lead.lastBeatEast } } ∧
      t.lead.lastBeatWest = (if h = .west then s.now else s.lead.lastBeatWest) ∧ t.lead.lastBeatEast = (if h = .east then s.now else s.lead.lastBeatEast)) ∧
    (s.lead.handleUntil ≤ s.now → cpWorks s lead.other = true →
      (beat lead + 1000000 ≤ s.now →
        exec (.leaseRequest false) s = .next { s with lead := { s.lead with granting := true } } ∧
        exec (.leaseRequest true) s = .next (addLog { s with lead := { s.lead with granting := false } } 0x06 0
          { unit := cpUnit lead.other, arg0 := 1, arg1 := lead.num })) ∧
      (s.now < beat lead + 1000000 → ∀ b, exec (.leaseRequest b) s = .next s) ∧
      (s.lead.granting = true → exec .leaseGrant s = .next (resetOld (takeLease (abandonUpdate s) lead.other 2 false) lead)) ∧
      (beat lead.other + 1000000 ≤ s.now → exec (.followerProbe false) s = .next (resetProcessor s lead.other 3 none)) ∧
      exec (.followerProbe true) s = .next s) ∧
    (s.now < s.lead.handleUntil → ∀ b, exec (.leaseRequest b) s = .next s ∧ exec .leaseGrant s = .next s ∧ exec (.followerProbe b) s = .next s) ∧
    (∀ k f, takeLease s h k f = announceEpoch (addLog { s with
      lead := { s.lead with epoch := nextEpoch s.lead.epoch, leader := h, dispatching := true, followerUp := f, granting := false, lastRenewal := s.now } }
      0x06 k { unit := cpUnit h, arg0 := 0, arg1 := h.num })) ∧
    (∀ e, nextEpoch e ≠ 0 ∧ (e + 1 ≠ 0 → nextEpoch e = e + 1)) ∧
    (s.lead.handleUntil ≤ s.now → cpWorks s h = true →
      (h = lead → exec (.leaseRenewal h s.lead.epoch) s = .next { s with lead := { s.lead with lastRenewal := s.now } }) ∧
      (h ≠ lead → exec (.leaseRenewal h s.lead.epoch) s = .next s) ∧
      (e ≠ s.lead.epoch → exec (.leaseRenewal h e) s =
        exec (match h with | .west => .splitLeaseClaim e s.lead.epoch | .east => .splitLeaseClaim s.lead.epoch e) s)) ∧
    (s.lead.handleUntil ≤ s.now → cpWorks s .west = true → cpWorks s .east = true →
      let x : Half := if ew < ee then .west else .east
      ∃ t, exec (.splitLeaseClaim ew ee) s = .next t ∧ t.lead.degraded = true ∧ t.lead.leader = x.other ∧ t.lead.followerUp = false ∧
        (isRetired t (cpUnit x) = false → t.lead.heldProcessor = some x) ∧
        (lead = x → t.lead.epoch = nextEpoch s.lead.epoch) ∧ (lead ≠ x → t.lead.epoch = s.lead.epoch)) ∧
    exec .handleWatchdogRestart s = .next { s with lead := { s.lead with handleUntil := s.now + 50000000, granting := false } }

/-- A clean start with its input in range, a bootable slot and no failed unit runs the ten steps to READY with nothing of an
earlier run left (R669, R671); without a Handle image the rails stay off, without PLL lock the module is DOWN, without a
bootable slot it is in RECOVERY (Table 14.1; 13 R663); while HOLD_OFF# is asserted it pauses at a step boundary (R674). A module
reset runs the same from step 3 (R670). -/
def Obligations.UpsettReachesReady : Prop :=
  ∀ (s : State) (o : UpsettOutcome), s.power.holdOff = false → s.fw.update = none →
    let ready := fun (t : State) => t.mstate = .ready ∧ t.power.upsettStep = 10 ∧ t.power.railsOn = true ∧ t.power.pcieUp = true ∧
      t.sessions = [] ∧ t.contexts = [] ∧ t.lists = [] ∧ t.mem = [] ∧ t.fw.running = s.fw.bootSlot ∧
      t.faults.moduleIncarnation = s.faults.moduleIncarnation + 1 ∧ t.fabric.ports.length = 12 ∧ t.hbm.pcs.length = 512
    let boots := slotBoots s o 0 = true ∨ slotBoots s o 1 = true
    (s.power.auxPresent = false →
      (o.handleOk = false → ∃ t, exec (.auxPowerGood o) s = .next t ∧ t.power.railsOn = s.power.railsOn ∧ t.power.upsettStep = 0 ∧ t.mstate = s.mstate) ∧
      (inputOk s = true → s.power.charged = true → o.handleOk = true → o.failedUnits = [] →
        (o.locksOk = false → ∃ t, exec (.auxPowerGood o) s = .next t ∧ t.mstate = .down) ∧
        (o.locksOk = true → ¬ boots → (s.fw.bootSlot = 0 ∨ s.fw.bootSlot = 1) → ∃ t, exec (.auxPowerGood o) s = .next t ∧ t.mstate = .recovery) ∧
        (o.locksOk = true → slotBoots s o s.fw.bootSlot = true → ∃ t, exec (.auxPowerGood o) s = .next t ∧ ready t))) ∧
    (s.power.auxPresent = true → exec (.auxPowerGood o) s = .next s) ∧
    (s.power.auxPresent = true → s.power.resetLow = true → s.power.railsOn = true → s.power.thermtrip = false → o.failedUnits = [] →
      o.locksOk = true → slotBoots s o s.fw.bootSlot = true → ∃ t, exec (.modReset false o) s = .next t ∧ ready t) ∧
    (s.power.auxPresent = true → s.power.resetLow = false → s.power.railsOn = true → s.power.thermtrip = false → o.failedUnits = [] →
      o.locksOk = true → slotBoots s o s.fw.bootSlot = true → ∃ t, exec (.managementReset o) s = .next t ∧ ready t) ∧
    (∀ k l, upsettFrom k o { s with power := { s.power with holdOff := true, upsettStep := l } } =
      updateAlert (upsettSteps o ((List.range 10).filterMap fun i => if k ≤ i + 1 then some (i + 1) else none)
        { s with power := { s.power with holdOff := true, outcome := some o, upsettPaused := false, upsettStep := Nat.min l (k - 1) } })) ∧
    ∀ n rest (x : State), x.power.holdOff = true → upsettSteps o (n :: rest) x = { x with power := { x.power with upsettPaused := true } }

/-- A loss of main input below 38 V, or MOD_PRESENT# opening with the input present, runs the power-loss sequence and leaves
STATE RESET; above 62 V, or with a rail out of regulation, STATE is DOWN (R688; 15 R703); what memory held is lost, and the
journal is written. With the input back in range and the bank charged step 2 goes on (15 R699). Without auxiliary power
everything but what boot flash keeps is gone (15 R697). The reference lost takes the ports DOWN and clears LOCKED (R680). -/
def Obligations.SuppliesComeAndGo : Prop :=
  ∀ (s : State) (mv : Nat) (o : UpsettOutcome),
    let off := fun (t : State) (m : ModState) => t.mstate = m ∧ t.power.railsOn = false ∧ t.power.level = 0 ∧ t.tier.powerLoss = true ∧
      t.sessions = [] ∧ t.contexts = [] ∧ t.lists = [] ∧ t.mem = [] ∧ t.faults.retired = s.faults.retired ∧ t.mgmt = s.mgmt ∧ t.tier.blocks = s.tier.blocks
    (38000 ≤ mv → exec (.mainInputLoss mv) s = .next s) ∧
    (mv < 38000 → s.power.railsOn = true → ∃ t, exec (.mainInputLoss mv) s = .next t ∧ off t .reset ∧ t.power.charged = false) ∧
    (inputOk s = true → s.power.railsOn = true → ∃ t, exec .modPresentOpen s = .next t ∧ off t .reset ∧ t.power.presentOpen = true) ∧
    (inputOk s = false → exec .modPresentOpen s = .next { s with power := { s.power with presentOpen := true } }) ∧
    (s.power.railsOn = true → ∀ ov, (ov = true → 62000 < mv) → ∃ t, exec (.overvoltageOrRailFault ov mv) s = .next t ∧ off t .down) ∧
    (mv ≤ 62000 → exec (.overvoltageOrRailFault true mv) s = .next s) ∧
    (mv < 40000 ∨ 60000 < mv → exec (.mainInputInRange mv o) s = .next s) ∧
    (40000 ≤ mv → mv ≤ 60000 →
      let s1 := { s with power := { s.power with inputMv := mv, charged := true, presentOpen := false } }
      (s.power.auxPresent = true → 1 ≤ s.power.upsettStep → s.power.railsOn = false → s.power.resetLow = false → s.mstate ≠ .down →
        exec (.mainInputInRange mv o) s = .next (upsettFrom 2 o s1)) ∧
      (s.power.auxPresent = false ∨ s.power.railsOn = true → exec (.mainInputInRange mv o) s = .next (updateAlert s1))) ∧
    (s.power.auxPresent = true → ∃ t, exec .auxPowerLoss s = .next t ∧ t.power.auxPresent = false ∧ t.power.railsOn = false ∧
      t.boxes = [Mailbox.fresh 0] ∧ t.sessions = [] ∧ t.contexts = [] ∧ t.mem = [] ∧ t.mgmt = s.mgmt ∧ t.fw.slotA = s.fw.slotA ∧
      t.fw.fusedMinimum = s.fw.fusedMinimum ∧ t.faults.retired = s.faults.retired) ∧
    (s.power.auxPresent = true → s.power.resetLow = false →
      ∃ t, exec (.modReset true o) s = .next t ∧ t.power.resetLow = true ∧ t.lists = [] ∧ t.mem = [] ∧ (s.power.railsOn = true → t.mstate = .upsett)) ∧
    (s.power.referenceOk = true → ∃ t, exec .referenceLost s = .next t ∧ t.power.referenceOk = false ∧ t.fabric.locked = false ∧
      ∀ p ∈ t.fabric.ports, (∃ q ∈ s.fabric.ports, q.num = p.num ∧ q.state ≠ .retired ∧ findPort s p.num = some q) → p.state = .down) ∧
    (s.power.referenceOk = false → ∃ t, exec .referenceRestored s = .next t ∧ t.power.referenceOk = true ∧
      t.fabric.ports = s.fabric.ports.map fun p => if p.state = .down then { p with state := .training } else p)

/-- At the end of an interval the governor raises L to the lowest level at which E + D is within the ceiling when it is above
it, lowers L by 1 when it would stay within it, and else keeps it (R682, R685); under a brake L is the lowest level within the
floor (R687). An interval above 1,500 W is recorded (R694). A ramp step raises the allowance by at most 1/16 and is refused
above the ceiling (R684).The power expected at a level is a free function (log entry 11, DESIGN CHOICE). HOLD_OFF# sets the
brake level and is recorded; its release gives L its value from before, unless the thermal brake still stands (R687). The
throttle is entered at 100 °C and left below 97 °C, the brake at 105 °C and 102 °C, and THERMTRIP# comes at 120 °C and takes the
module DOWN (R690, R691); the cap falls by THERMAL_STEP_W each 1 ms under the throttle and climbs back to CAP_W (Table 14.6).
Token buckets refill by their rate (12 R618), and a sample makes TEL_SEQ even again, 2 further (02 R124). -/
def Obligations.GovernorAndHeatAct : Prop :=
  (∀ (s : State) (w : Nat) (h : Half) (inst : EngineInst),
    let ceiling : Int := (effectiveCap s : Int) - 30
    (∀ t, exec (.governorInterval w) s = .next t → s.power.railsOn = true →
      let expected := fun (l : Nat) => Config.estimateAt s.power.estimateWest s.power.estimateEast t.power.offset l
      let e : Int := s.power.estimateWest + s.power.estimateEast + t.power.offset
      t.power.powerW = w ∧ t.power.offset = (w : Int) - (if s.power.estimates = 0 then ((s.power.estimateWest + s.power.estimateEast : Nat) : Int)
        else ((s.power.estimateSum / s.power.estimates : Nat) : Int)) ∧
      (s.power.holdOff = false → s.power.thermalBrake = false →
        (ceiling < e → ∀ k, s.power.level ≤ k → k < 64 → expected k ≤ ceiling → (∀ j, s.power.level ≤ j → j < k → ceiling < expected j) → t.power.level = k) ∧
        (e ≤ ceiling → 0 < s.power.level → expected (s.power.level - 1) ≤ ceiling → t.power.level = s.power.level - 1) ∧
        (e ≤ ceiling → (s.power.level = 0 ∨ ceiling < expected (s.power.level - 1)) → t.power.level = s.power.level)) ∧
      (s.power.holdOff = true ∨ s.power.thermalBrake = true →
        ∀ k, k < 64 → expected k ≤ s.power.config.brakeFloorW → (∀ j, j < k → (s.power.config.brakeFloorW : Int) < expected j) → t.power.level = k) ∧
      (s.power.allowance ≤ 64 - s.power.level → t.power.allowance ≤ 64 - t.power.level) ∧
      t.faults.nextIndex = s.faults.nextIndex + (if 1500 < w then 1 else 0)) ∧
    (∃ t, exec (.governorInterval w) s = .next t) ∧
    (∃ t, exec (.powerEstimateUpdate h w) s = .next t ∧ t.power.estimates = s.power.estimates + 1 ∧
      (h = .west → t.power.estimateWest = w ∧ t.power.estimateEast = s.power.estimateEast ∧ t.power.estimateSum = s.power.estimateSum + w + s.power.estimateEast) ∧
      (h = .east → t.power.estimateEast = w ∧ t.power.estimateWest = s.power.estimateWest ∧ t.power.estimateSum = s.power.estimateSum + s.power.estimateWest + w)) ∧
    (∃ t, exec .rampStep s = .next t ∧ (s.power.allowance ≤ 64 - s.power.level → t.power.allowance ≤ s.power.allowance + 4 ∧ t.power.allowance ≤ 64 - s.power.level) ∧
      (s.power.allowance < t.power.allowance →
        Config.estimateAt s.power.estimateWest s.power.estimateEast s.power.offset (64 - t.power.allowance) ≤ ceiling) ∧
      (t.power.rampRefused = true → s.power.rampRefused = false → t.power.allowance = s.power.allowance)) ∧
    (let e := findEngine s inst
     (e.idle = true ∨ s.now < e.lastIssue + 1000 ∨ engineBusy e = true → exec (.engineIdle inst) s = .next s) ∧
     (e.idle = false → e.lastIssue + 1000 ≤ s.now → engineBusy e = false →
       let s1 := setEngine s inst fun e => { e with idle := true, rampStep := 0 }
       exec (.engineIdle inst) s = .next (if s1.engines.all fun x => x.idle then { s1 with power := { s1.power with allowance := 0 } } else s1)))) ∧
  (∀ (s : State) (o : UpsettOutcome) (west east : Nat) (temps : List Nat) (outlet : Nat),
    (s.power.auxPresent = true → s.power.holdOff = false → ∃ t, exec .holdOffAssert s = .next t ∧ t.power.holdOff = true ∧
      t.power.level = brakeLevel s ∧ (s.power.thermalBrake = false → t.power.levelBeforeBrake = s.power.level) ∧ t.faults.nextIndex = s.faults.nextIndex + 1) ∧
    (s.power.holdOff = true ∨ s.power.auxPresent = false → exec .holdOffAssert s = .next s) ∧
    (s.power.auxPresent = true → s.power.holdOff = true → s.power.upsettPaused = false → ∃ t, exec (.holdOffRelease o) s = .next t ∧
      t.power.holdOff = false ∧ (s.power.thermalBrake = false → t.power.level = s.power.levelBeforeBrake) ∧
      (s.power.thermalBrake = true → t.power.level = s.power.level)) ∧
    (s.power.auxPresent = true → s.power.holdOff = true → s.power.upsettPaused = true → ∃ s1, s1.power.holdOff = false ∧
      exec (.holdOffRelease o) s = .next (upsettFrom (s.power.upsettStep + 1) o s1)) ∧
    (s.power.auxPresent = true → ∃ t, exec (.junctionSensorRead west east) s = .next t ∧ t.power.tempWest = west ∧ t.power.tempEast = east ∧
      let m := Nat.max west east
      (100 ≤ m → m < 120 → t.power.thermalThrottle = true) ∧ (m < 97 → t.power.thermalThrottle = false) ∧
      (97 ≤ m → m < 100 → t.power.thermalThrottle = s.power.thermalThrottle) ∧
      (105 ≤ m → m < 120 → t.power.thermalBrake = true) ∧ (m < 102 → t.power.thermalBrake = false) ∧
      (102 ≤ m → m < 105 → t.power.thermalBrake = s.power.thermalBrake) ∧
      (120 ≤ m → s.power.thermtrip = false → t.mstate = .down ∧ t.power.thermtrip = true ∧ t.power.railsOn = false) ∧
      (m < 120 → t.mstate = s.mstate ∧ t.power.thermtrip = s.power.thermtrip)) ∧
    (∃ t, exec .thermalThrottleStep s = .next t ∧
      (s.power.thermalThrottle = true → t.power.thermalCap = Nat.min s.power.thermalCap s.power.config.capW - s.power.config.thermalStepW) ∧
      (s.power.thermalThrottle = false → s.power.recovering = true → s.power.config.capW ≤ 1500 →
        effectiveCap t = Nat.min s.power.config.capW (s.power.thermalCap + s.power.config.thermalStepW)) ∧
      (s.power.thermalThrottle = false → s.power.recovering = false → t = s)) ∧
    exec .tokenBucketRefill s = .next (drainWaiting { s with tenants := s.tenants.map fun t => { t with
      hbmTokens := refilled s.power.level (quotaLimit s t.id 0x10) (quotaLimit s t.id 0x11) t.hbmTokens, fabricTokens := refilled s.power.level (quotaLimit s t.id 0x12) (quotaLimit s t.id 0x13) t.fabricTokens } }) ∧
    (∀ rate burst n, rate ≠ unlimited → n ≤ burst * 1024 → refilled 0 rate burst (some n) = some (Nat.min (burst * 1024) (n + rate))) ∧
    (s.power.railsOn = true → ∃ t, exec (.telemetrySample temps outlet) s = .next t ∧ t.tel.seq = s.tel.seq + 2 ∧
      t.tel.samples = s.tel.samples + 1 ∧ t.tel.time.toNat = s.now / 1000 % 2 ^ 64 ∧ t.power.coolantOut = outlet ∧ t.mem = s.mem ∧ t.lists = s.lists) ∧
    (s.power.railsOn = false → exec (.telemetrySample temps outlet) s = .next s))

/-- The management interface answers while auxiliary power is present: PLDM types 0 and 2 (15 R705); the configuration, of which
CAP_W and BRAKE_FLOOR_W take effect at once and the rest at the next upsett (14 R678); the map, taken at the next upsett (11
R551); the root key's hash, written once; and key messages, which succeed only with a signature under that root key (15 R706).
Without auxiliary power nothing happens (15 R697). -/
def Obligations.ManagementMessagesAreAnswered : Prop :=
  ∀ (s : State) (ptype : Byte) (n lo hi : Nat) (a : BitVec 7) (cfg : OpConfig) (dims coords : List Nat) (key payload root sig : List Byte),
    (s.power.auxPresent = false → ∀ c ∈ [Instr.pldmRequest ptype n, .entdaa a, .smbusFirstAddress a, .readConfig, .writeConfig cfg, .writeMap dims coords,
      .readIdentity, .installRoot key, .installKek payload root sig, .installCoilKey payload root sig, .revokeCoilKey payload root sig], exec c s = .next s) ∧
    (s.power.auxPresent = true →
      (∃ t, exec (.pldmRequest ptype n) s = .next t ∧ t = { s with mgmt := { s.mgmt with reply := t.mgmt.reply } } ∧
        (t.mgmt.reply.map fun r => r.ok) = some (decide (ptype = 0 ∨ (ptype = 2 ∧ n ≤ (sensors s).length)))) ∧
      (s.mgmt.smbus = false → exec (.entdaa a) s = .next { s with mgmt := { s.mgmt with dynamicAddress := some a } }) ∧
      (a = 0x50 + Config.slotId.setWidth 7 → exec (.smbusFirstAddress a) s = .next { s with mgmt := { s.mgmt with smbus := true, dynamicAddress := none } }) ∧
      (a ≠ 0x50 + Config.slotId.setWidth 7 → exec (.smbusFirstAddress a) s = .next s) ∧
      exec .readConfig s = .next (reply s 0x01 true (Config.mgmtBody 0x01 (configFields s.power.stored) [])) ∧
      (∃ t, exec (.writeConfig cfg) s = .next t ∧ (configValid cfg = false → t = reply s 0x02 false []) ∧
        (configValid cfg = true → t.power.stored = cfg ∧ t.power.config = { s.power.config with capW := cfg.capW, brakeFloorW := cfg.brakeFloorW } ∧
          (t.mgmt.reply.map fun r => r.ok) = some true ∧ t.fabric = s.fabric ∧ t.tier = s.tier)) ∧
      exec (.writeMap dims coords) s = .next (reply { s with fabric := { s.fabric with nextDims := dims, nextCoords := coords, mapWritten := true } } 0x03 true []) ∧
      (s.mgmt.rootHash = none → exec (.installRoot key) s = .next (reply { s with mgmt := { s.mgmt with rootHash := some (sha384 key) } } 0x04 true [])) ∧
      (s.mgmt.rootHash ≠ none → exec (.installRoot key) s = .next (reply s 0x04 false [])) ∧
      exec .readIdentity s = .next (reply s 0x08 true
        (Config.mgmtBody 0x08 [Config.serial.toNat, s.faults.moduleIncarnation.toNat, s.fw.runningVersion.toNat] Config.transportKey)) ∧
      (∀ c k, (c, k) ∈ [(0x05, Instr.installKek payload root sig), (0x06, .installCoilKey payload root sig), (0x07, .revokeCoilKey payload root sig)] →
        signedMessage s c payload root sig = false → exec k s = .next (reply s c false [])) ∧
      (signedMessage s 0x05 payload root sig = true → exec (.installKek payload root sig) s = .next (match Config.unwrapKek payload with
        | some k => reply { s with mgmt := { s.mgmt with kek := some k } } 0x05 true []
        | none => reply s 0x05 false [])) ∧
      (signedMessage s 0x06 payload root sig = true → payload.length = 100 →
        let id := BitVec.ofNat 32 (fieldAt payload 0 4)
        exec (.installCoilKey payload root sig) s = .next (reply { s with
          mgmt := { s.mgmt with coilKeys := (s.mgmt.coilKeys.filter fun k => k.1 != id) ++ [(id, publicKey (payload.drop 4))] } } 0x06 true [])) ∧
      (signedMessage s 0x07 payload root sig = true → payload.length = 4 → exec (.revokeCoilKey payload root sig) s = .next (reply { s with
          mgmt := { s.mgmt with coilKeys := s.mgmt.coilKeys.filter fun k => k.1 != BitVec.ofNat 32 (fieldAt payload 0 4) } } 0x07 true []))) ∧
    (∃ t, exec (.pcieCompletionTimeout lo hi) s = .next t ∧ t = { s with hostRefuse := t.hostRefuse } ∧
      ∀ x, refused t x = true ↔ refused s x = true ∨ (lo ≤ x ∧ x < hi))
end

