-- ==== Sys2Proof/Laws/Exec.lean ====
section
/-! SUPPORT. What exec runs for each command, so that no proof unfolds the dispatch. -/

namespace Sys2Proof.Machine

@[simp] theorem exec_mbxSqDoorbell (fn : Nat) (value : U32) (s : State) :
    exec (.mbxSqDoorbell fn value) s = execMbxSqDoorbell fn value s := rfl
@[simp] theorem exec_mbxCqDoorbell (fn : Nat) (value : U32) (s : State) :
    exec (.mbxCqDoorbell fn value) s = execMbxCqDoorbell fn value s := rfl
@[simp] theorem exec_enableSet (fn : Nat) (s : State) :
    exec (.enableSet fn) s = execEnableSet fn s := rfl
@[simp] theorem exec_enableClear (fn : Nat) (s : State) :
    exec (.enableClear fn) s = execEnableClear fn s := rfl
@[simp] theorem exec_ringReset (fn : Nat) (s : State) :
    exec (.ringReset fn) s = execRingReset fn s := rfl
@[simp] theorem exec_mbxErrClear (fn : Nat) (value : U32) (s : State) :
    exec (.mbxErrClear fn value) s = execMbxErrClear fn value s := rfl
@[simp] theorem exec_mbxTimeLoRead (fn : Nat) (s : State) :
    exec (.mbxTimeLoRead fn) s = execMbxTimeLoRead fn s := rfl
@[simp] theorem exec_registerWrite (bar : Nat) (fn : Nat) (offset : Nat) (size : Nat) (value : U32) (s : State) :
    exec (.registerWrite bar fn offset size value) s = execRegisterWrite bar fn offset size value s := rfl
@[simp] theorem exec_submissionFetch (fn : Nat) (s : State) :
    exec (.submissionFetch fn) s = execSubmissionFetch fn s := rfl
@[simp] theorem exec_noticeWrite (fn : Nat) (s : State) :
    exec (.noticeWrite fn) s = execNoticeWrite fn s := rfl
@[simp] theorem exec_completionIntCoalTimer (fn : Nat) (s : State) :
    exec (.completionIntCoalTimer fn) s = execCompletionIntCoalTimer fn s := rfl
@[simp] theorem exec_telemetryIntTimer (fn : Nat) (s : State) :
    exec (.telemetryIntTimer fn) s = execTelemetryIntTimer fn s := rfl
@[simp] theorem exec_interimQueued (fn : Nat) (tag : U16) (s : State) :
    exec (.interimQueued fn tag) s = execInterimQueued fn tag s := rfl
@[simp] theorem exec_reservedOpcode (fn : Nat) (tag : U16) (s : State) :
    exec (.reservedOpcode fn tag) s = execReservedOpcode fn tag s := rfl
@[simp] theorem exec_identificationQuery (fn : Nat) (tag : U16) (s : State) :
    exec (.identificationQuery fn tag) s = execIdentificationQuery fn tag s := rfl
@[simp] theorem exec_openSession (fn : Nat) (tag : U16) (s : State) :
    exec (.openSession fn tag) s = execOpenSession fn tag s := rfl
@[simp] theorem exec_authResponse (fn : Nat) (tag : U16) (s : State) :
    exec (.authResponse fn tag) s = execAuthResponse fn tag s := rfl
@[simp] theorem exec_closeSession (fn : Nat) (tag : U16) (s : State) :
    exec (.closeSession fn tag) s = execCloseSession fn tag s := rfl
@[simp] theorem exec_keepalive (fn : Nat) (tag : U16) (s : State) :
    exec (.keepalive fn tag) s = execKeepalive fn tag s := rfl
@[simp] theorem exec_nonceExpiry (sess : U32) (s : State) :
    exec (.nonceExpiry sess) s = execNonceExpiry sess s := rfl
@[simp] theorem exec_sessionIdleExpiry (sess : U32) (s : State) :
    exec (.sessionIdleExpiry sess) s = execSessionIdleExpiry sess s := rfl
@[simp] theorem exec_lockoutEnd (tenant : U32) (s : State) :
    exec (.lockoutEnd tenant) s = execLockoutEnd tenant s := rfl
@[simp] theorem exec_allocMem (fn : Nat) (tag : U16) (s : State) :
    exec (.allocMem fn tag) s = execAllocMem fn tag s := rfl
@[simp] theorem exec_freeMem (fn : Nat) (tag : U16) (s : State) :
    exec (.freeMem fn tag) s = execFreeMem fn tag s := rfl
@[simp] theorem exec_mapHost (fn : Nat) (tag : U16) (s : State) :
    exec (.mapHost fn tag) s = execMapHost fn tag s := rfl
@[simp] theorem exec_createTable (fn : Nat) (tag : U16) (s : State) :
    exec (.createTable fn tag) s = execCreateTable fn tag s := rfl
@[simp] theorem exec_createGraph (fn : Nat) (tag : U16) (s : State) :
    exec (.createGraph fn tag) s = execCreateGraph fn tag s := rfl
@[simp] theorem exec_setOwnership (fn : Nat) (tag : U16) (s : State) :
    exec (.setOwnership fn tag) s = execSetOwnership fn tag s := rfl
@[simp] theorem exec_destroyObject (fn : Nat) (tag : U16) (s : State) :
    exec (.destroyObject fn tag) s = execDestroyObject fn tag s := rfl
@[simp] theorem exec_loadCoil (fn : Nat) (tag : U16) (s : State) :
    exec (.loadCoil fn tag) s = execLoadCoil fn tag s := rfl
@[simp] theorem exec_submitList (fn : Nat) (tag : U16) (s : State) :
    exec (.submitList fn tag) s = execSubmitList fn tag s := rfl
@[simp] theorem exec_contextWaitServe (s : State) :
    exec .contextWaitServe s = execContextWaitServe s := rfl
@[simp] theorem exec_cancelList (fn : Nat) (tag : U16) (s : State) :
    exec (.cancelList fn tag) s = execCancelList fn tag s := rfl
@[simp] theorem exec_joinGroup (fn : Nat) (tag : U16) (s : State) :
    exec (.joinGroup fn tag) s = execJoinGroup fn tag s := rfl
@[simp] theorem exec_joinGroupTimeout (fn : Nat) (tag : U16) (s : State) :
    exec (.joinGroupTimeout fn tag) s = execJoinGroupTimeout fn tag s := rfl
@[simp] theorem exec_openPeerStream (fn : Nat) (tag : U16) (s : State) :
    exec (.openPeerStream fn tag) s = execOpenPeerStream fn tag s := rfl
@[simp] theorem exec_openPeerStreamTimeout (fn : Nat) (tag : U16) (s : State) :
    exec (.openPeerStreamTimeout fn tag) s = execOpenPeerStreamTimeout fn tag s := rfl
@[simp] theorem exec_tierSync (fn : Nat) (tag : U16) (s : State) :
    exec (.tierSync fn tag) s = execTierSync fn tag s := rfl
@[simp] theorem exec_saveContext (fn : Nat) (tag : U16) (s : State) :
    exec (.saveContext fn tag) s = execSaveContext fn tag s := rfl
@[simp] theorem exec_restoreContext (fn : Nat) (tag : U16) (s : State) :
    exec (.restoreContext fn tag) s = execRestoreContext fn tag s := rfl
@[simp] theorem exec_queryCountersSplint (fn : Nat) (tag : U16) (s : State) :
    exec (.queryCountersSplint fn tag) s = execQueryCountersSplint fn tag s := rfl
@[simp] theorem exec_queryCountersWeave (fn : Nat) (tag : U16) (s : State) :
    exec (.queryCountersWeave fn tag) s = execQueryCountersWeave fn tag s := rfl
@[simp] theorem exec_queryCountersRim (fn : Nat) (tag : U16) (s : State) :
    exec (.queryCountersRim fn tag) s = execQueryCountersRim fn tag s := rfl
@[simp] theorem exec_queryCountersMemory (fn : Nat) (tag : U16) (s : State) :
    exec (.queryCountersMemory fn tag) s = execQueryCountersMemory fn tag s := rfl
@[simp] theorem exec_queryCountersTier (fn : Nat) (tag : U16) (s : State) :
    exec (.queryCountersTier fn tag) s = execQueryCountersTier fn tag s := rfl
@[simp] theorem exec_queryCountersFabric (fn : Nat) (tag : U16) (s : State) :
    exec (.queryCountersFabric fn tag) s = execQueryCountersFabric fn tag s := rfl
@[simp] theorem exec_queryCountersQuota (fn : Nat) (tag : U16) (s : State) :
    exec (.queryCountersQuota fn tag) s = execQueryCountersQuota fn tag s := rfl
@[simp] theorem exec_queryCountersReserved (fn : Nat) (tag : U16) (s : State) :
    exec (.queryCountersReserved fn tag) s = execQueryCountersReserved fn tag s := rfl
@[simp] theorem exec_readFlags (fn : Nat) (tag : U16) (s : State) :
    exec (.readFlags fn tag) s = execReadFlags fn tag s := rfl
@[simp] theorem exec_clearFlags (fn : Nat) (tag : U16) (s : State) :
    exec (.clearFlags fn tag) s = execClearFlags fn tag s := rfl
@[simp] theorem exec_setTenantKey (fn : Nat) (tag : U16) (s : State) :
    exec (.setTenantKey fn tag) s = execSetTenantKey fn tag s := rfl
@[simp] theorem exec_setQuota (fn : Nat) (tag : U16) (s : State) :
    exec (.setQuota fn tag) s = execSetQuota fn tag s := rfl
@[simp] theorem exec_setPolicy (fn : Nat) (tag : U16) (s : State) :
    exec (.setPolicy fn tag) s = execSetPolicy fn tag s := rfl
@[simp] theorem exec_fwUpdate (fn : Nat) (tag : U16) (s : State) :
    exec (.fwUpdate fn tag) s = execFwUpdate fn tag s := rfl
@[simp] theorem exec_fwUpdateActivate (fn : Nat) (tag : U16) (s : State) :
    exec (.fwUpdateActivate fn tag) s = execFwUpdateActivate fn tag s := rfl
@[simp] theorem exec_fwUpdateRecover (fn : Nat) (tag : U16) (s : State) :
    exec (.fwUpdateRecover fn tag) s = execFwUpdateRecover fn tag s := rfl
@[simp] theorem exec_fwFollowerHealthy (s : State) :
    exec .fwFollowerHealthy s = execFwFollowerHealthy s := rfl
@[simp] theorem exec_fwActivationDone (s : State) :
    exec .fwActivationDone s = execFwActivationDone s := rfl
@[simp] theorem exec_fwPhaseTimeout (s : State) :
    exec .fwPhaseTimeout s = execFwPhaseTimeout s := rfl
@[simp] theorem exec_resetUnit (fn : Nat) (tag : U16) (s : State) :
    exec (.resetUnit fn tag) s = execResetUnit fn tag s := rfl
@[simp] theorem exec_unitResetEnd (unit : U16) (returned : Bool) (s : State) :
    exec (.unitResetEnd unit returned) s = execUnitResetEnd unit returned s := rfl
@[simp] theorem exec_retireUnit (fn : Nat) (tag : U16) (s : State) :
    exec (.retireUnit fn tag) s = execRetireUnit fn tag s := rfl
@[simp] theorem exec_rekeyHbm (fn : Nat) (tag : U16) (s : State) :
    exec (.rekeyHbm fn tag) s = execRekeyHbm fn tag s := rfl
@[simp] theorem exec_readErrorLog (fn : Nat) (tag : U16) (s : State) :
    exec (.readErrorLog fn tag) s = execReadErrorLog fn tag s := rfl
@[simp] theorem exec_functionLevelReset (fn : Nat) (s : State) :
    exec (.functionLevelReset fn) s = execFunctionLevelReset fn s := rfl
@[simp] theorem exec_vfDisable (numVfs : Nat) (s : State) :
    exec (.vfDisable numVfs) s = execVfDisable numVfs s := rfl
@[simp] theorem exec_perst (s : State) :
    exec .perst s = execPerst s := rfl
@[simp] theorem exec_taskChoice (inst : EngineInst) (s : State) :
    exec (.taskChoice inst) s = execTaskChoice inst s := rfl
@[simp] theorem exec_preempt (inst : EngineInst) (s : State) :
    exec (.preempt inst) s = execPreempt inst s := rfl
@[simp] theorem exec_reservedEngineOpcode (inst : EngineInst) (s : State) :
    exec (.reservedEngineOpcode inst) s = execReservedEngineOpcode inst s := rfl
@[simp] theorem exec_listEnd (fn : Nat) (tag : U16) (s : State) :
    exec (.listEnd fn tag) s = execListEnd fn tag s := rfl
@[simp] theorem exec_syWait (inst : EngineInst) (s : State) :
    exec (.syWait inst) s = execSyWait inst s := rfl
@[simp] theorem exec_syWaitTimeout (inst : EngineInst) (s : State) :
    exec (.syWaitTimeout inst) s = execSyWaitTimeout inst s := rfl
@[simp] theorem exec_sySignal (inst : EngineInst) (s : State) :
    exec (.sySignal inst) s = execSySignal inst s := rfl
@[simp] theorem exec_syDelay (inst : EngineInst) (s : State) :
    exec (.syDelay inst) s = execSyDelay inst s := rfl
@[simp] theorem exec_delayEntryExpiry (h : Half) (s : State) :
    exec (.delayEntryExpiry h) s = execDelayEntryExpiry h s := rfl
@[simp] theorem exec_delayEntryFreed (h : Half) (s : State) :
    exec (.delayEntryFreed h) s = execDelayEntryFreed h s := rfl
@[simp] theorem exec_wvMatmul (check : CheckOutcome) (s : State) :
    exec (.wvMatmul check) s = execWvMatmul check s := rfl
@[simp] theorem exec_wvEdge (s : State) :
    exec .wvEdge s = execWvEdge s := rfl
@[simp] theorem exec_edgeTileArrival (check : CheckOutcome) (s : State) :
    exec (.edgeTileArrival check) s = execEdgeTileArrival check s := rfl
@[simp] theorem exec_weaveDoneHandshake (h : Half) (s : State) :
    exec (.weaveDoneHandshake h) s = execWeaveDoneHandshake h s := rfl
@[simp] theorem exec_weavePatternTest (h : Half) (failing : List Nat) (s : State) :
    exec (.weavePatternTest h failing) s = execWeavePatternTest h failing s := rfl
@[simp] theorem exec_columnDisable (s : State) :
    exec .columnDisable s = execColumnDisable s := rfl
@[simp] theorem exec_spGather (h : Half) (s : State) :
    exec (.spGather h) s = execSpGather h s := rfl
@[simp] theorem exec_spScatter (h : Half) (s : State) :
    exec (.spScatter h) s = execSpScatter h s := rfl
@[simp] theorem exec_spRun (h : Half) (s : State) :
    exec (.spRun h) s = execSpRun h s := rfl
@[simp] theorem exec_chunkClaim (c : CoreId) (s : State) :
    exec (.chunkClaim c) s = execChunkClaim c s := rfl
@[simp] theorem exec_chunkApply (h : Half) (s : State) :
    exec (.chunkApply h) s = execChunkApply h s := rfl
@[simp] theorem exec_sortWindowIssue (pc : Fin 512) (s : State) :
    exec (.sortWindowIssue pc) s = execSortWindowIssue pc s := rfl
@[simp] theorem exec_hbmAccessDone (req : Nat) (symbols : Nat) (s : State) :
    exec (.hbmAccessDone req symbols) s = execHbmAccessDone req symbols s := rfl
@[simp] theorem exec_replyDelivery (req : Nat) (badLanes : List (Nat × Nat)) (s : State) :
    exec (.replyDelivery req badLanes) s = execReplyDelivery req badLanes s := rfl
@[simp] theorem exec_aluAdd (c : CoreId) (d : Reg) (a : Reg) (b : Reg) (s : State) :
    exec (.aluAdd c d a b) s = execAluAdd c d a b s := rfl
@[simp] theorem exec_aluSub (c : CoreId) (d : Reg) (a : Reg) (b : Reg) (s : State) :
    exec (.aluSub c d a b) s = execAluSub c d a b s := rfl
@[simp] theorem exec_aluAnd (c : CoreId) (d : Reg) (a : Reg) (b : Reg) (s : State) :
    exec (.aluAnd c d a b) s = execAluAnd c d a b s := rfl
@[simp] theorem exec_aluOr (c : CoreId) (d : Reg) (a : Reg) (b : Reg) (s : State) :
    exec (.aluOr c d a b) s = execAluOr c d a b s := rfl
@[simp] theorem exec_aluXor (c : CoreId) (d : Reg) (a : Reg) (b : Reg) (s : State) :
    exec (.aluXor c d a b) s = execAluXor c d a b s := rfl
@[simp] theorem exec_aluShl (c : CoreId) (d : Reg) (a : Reg) (b : Reg) (s : State) :
    exec (.aluShl c d a b) s = execAluShl c d a b s := rfl
@[simp] theorem exec_aluShr (c : CoreId) (d : Reg) (a : Reg) (b : Reg) (s : State) :
    exec (.aluShr c d a b) s = execAluShr c d a b s := rfl
@[simp] theorem exec_aluSar (c : CoreId) (d : Reg) (a : Reg) (b : Reg) (s : State) :
    exec (.aluSar c d a b) s = execAluSar c d a b s := rfl
@[simp] theorem exec_aluMul (c : CoreId) (d : Reg) (a : Reg) (b : Reg) (s : State) :
    exec (.aluMul c d a b) s = execAluMul c d a b s := rfl
@[simp] theorem exec_aluMulhu (c : CoreId) (d : Reg) (a : Reg) (b : Reg) (s : State) :
    exec (.aluMulhu c d a b) s = execAluMulhu c d a b s := rfl
@[simp] theorem exec_aluMinu (c : CoreId) (d : Reg) (a : Reg) (b : Reg) (s : State) :
    exec (.aluMinu c d a b) s = execAluMinu c d a b s := rfl
@[simp] theorem exec_aluMaxu (c : CoreId) (d : Reg) (a : Reg) (b : Reg) (s : State) :
    exec (.aluMaxu c d a b) s = execAluMaxu c d a b s := rfl
@[simp] theorem exec_aluMins (c : CoreId) (d : Reg) (a : Reg) (b : Reg) (s : State) :
    exec (.aluMins c d a b) s = execAluMins c d a b s := rfl
@[simp] theorem exec_aluMaxs (c : CoreId) (d : Reg) (a : Reg) (b : Reg) (s : State) :
    exec (.aluMaxs c d a b) s = execAluMaxs c d a b s := rfl
@[simp] theorem exec_aluSltu (c : CoreId) (d : Reg) (a : Reg) (b : Reg) (s : State) :
    exec (.aluSltu c d a b) s = execAluSltu c d a b s := rfl
@[simp] theorem exec_aluSlts (c : CoreId) (d : Reg) (a : Reg) (b : Reg) (s : State) :
    exec (.aluSlts c d a b) s = execAluSlts c d a b s := rfl
@[simp] theorem exec_addi (c : CoreId) (d : Reg) (a : Reg) (imm : U16) (s : State) :
    exec (.addi c d a imm) s = execAddi c d a imm s := rfl
@[simp] theorem exec_andi (c : CoreId) (d : Reg) (a : Reg) (imm : U16) (s : State) :
    exec (.andi c d a imm) s = execAndi c d a imm s := rfl
@[simp] theorem exec_ori (c : CoreId) (d : Reg) (a : Reg) (imm : U16) (s : State) :
    exec (.ori c d a imm) s = execOri c d a imm s := rfl
@[simp] theorem exec_xori (c : CoreId) (d : Reg) (a : Reg) (imm : U16) (s : State) :
    exec (.xori c d a imm) s = execXori c d a imm s := rfl
@[simp] theorem exec_shli (c : CoreId) (d : Reg) (a : Reg) (imm : U16) (s : State) :
    exec (.shli c d a imm) s = execShli c d a imm s := rfl
@[simp] theorem exec_shri (c : CoreId) (d : Reg) (a : Reg) (imm : U16) (s : State) :
    exec (.shri c d a imm) s = execShri c d a imm s := rfl
@[simp] theorem exec_sari (c : CoreId) (d : Reg) (a : Reg) (imm : U16) (s : State) :
    exec (.sari c d a imm) s = execSari c d a imm s := rfl
@[simp] theorem exec_lih (c : CoreId) (d : Reg) (a : Reg) (imm : U16) (s : State) :
    exec (.lih c d a imm) s = execLih c d a imm s := rfl
@[simp] theorem exec_ld1 (c : CoreId) (d : Reg) (a : Reg) (imm : U16) (s : State) :
    exec (.ld1 c d a imm) s = execLd1 c d a imm s := rfl
@[simp] theorem exec_ld2 (c : CoreId) (d : Reg) (a : Reg) (imm : U16) (s : State) :
    exec (.ld2 c d a imm) s = execLd2 c d a imm s := rfl
@[simp] theorem exec_ld4 (c : CoreId) (d : Reg) (a : Reg) (imm : U16) (s : State) :
    exec (.ld4 c d a imm) s = execLd4 c d a imm s := rfl
@[simp] theorem exec_ld8 (c : CoreId) (d : Reg) (a : Reg) (imm : U16) (s : State) :
    exec (.ld8 c d a imm) s = execLd8 c d a imm s := rfl
@[simp] theorem exec_beq (c : CoreId) (a : Reg) (b : Reg) (ofs : U16) (s : State) :
    exec (.beq c a b ofs) s = execBeq c a b ofs s := rfl
@[simp] theorem exec_bne (c : CoreId) (a : Reg) (b : Reg) (ofs : U16) (s : State) :
    exec (.bne c a b ofs) s = execBne c a b ofs s := rfl
@[simp] theorem exec_blts (c : CoreId) (a : Reg) (b : Reg) (ofs : U16) (s : State) :
    exec (.blts c a b ofs) s = execBlts c a b ofs s := rfl
@[simp] theorem exec_bges (c : CoreId) (a : Reg) (b : Reg) (ofs : U16) (s : State) :
    exec (.bges c a b ofs) s = execBges c a b ofs s := rfl
@[simp] theorem exec_bltu (c : CoreId) (a : Reg) (b : Reg) (ofs : U16) (s : State) :
    exec (.bltu c a b ofs) s = execBltu c a b ofs s := rfl
@[simp] theorem exec_bgeu (c : CoreId) (a : Reg) (b : Reg) (ofs : U16) (s : State) :
    exec (.bgeu c a b ofs) s = execBgeu c a b ofs s := rfl
@[simp] theorem exec_jmp (c : CoreId) (ofs : U16) (s : State) :
    exec (.jmp c ofs) s = execJmp c ofs s := rfl
@[simp] theorem exec_rnd (c : CoreId) (d : Reg) (a : Reg) (b : Reg) (f : BitVec 11) (s : State) :
    exec (.rnd c d a b f) s = execRnd c d a b f s := rfl
@[simp] theorem exec_etile (c : CoreId) (d : Reg) (a : Reg) (b : Reg) (f : BitVec 11) (s : State) :
    exec (.etile c d a b f) s = execEtile c d a b f s := rfl
@[simp] theorem exec_grow (c : CoreId) (a : Reg) (b : Reg) (f : BitVec 11) (s : State) :
    exec (.grow c a b f) s = execGrow c a b f s := rfl
@[simp] theorem exec_eclose (c : CoreId) (s : State) :
    exec (.eclose c) s = execEclose c s := rfl
@[simp] theorem exec_coilEnd (c : CoreId) (s : State) :
    exec (.coilEnd c) s = execCoilEnd c s := rfl
@[simp] theorem exec_smSample (h : Half) (s : State) :
    exec (.smSample h) s = execSmSample h s := rfl
@[simp] theorem exec_sampleReq (p : Packet) (s : State) :
    exec (.sampleReq p) s = execSampleReq p s := rfl
@[simp] theorem exec_sampleReply (p : Packet) (s : State) :
    exec (.sampleReply p) s = execSampleReply p s := rfl
@[simp] theorem exec_copy (h : Half) (s : State) :
    exec (.copy h) s = execCopy h s := rfl
@[simp] theorem exec_relu (h : Half) (s : State) :
    exec (.relu h) s = execRelu h s := rfl
@[simp] theorem exec_leakyRelu (h : Half) (s : State) :
    exec (.leakyRelu h) s = execLeakyRelu h s := rfl
@[simp] theorem exec_gelu (h : Half) (s : State) :
    exec (.gelu h) s = execGelu h s := rfl
@[simp] theorem exec_sigmoid (h : Half) (s : State) :
    exec (.sigmoid h) s = execSigmoid h s := rfl
@[simp] theorem exec_tanh (h : Half) (s : State) :
    exec (.tanh h) s = execTanh h s := rfl
@[simp] theorem exec_exp (h : Half) (s : State) :
    exec (.exp h) s = execExp h s := rfl
@[simp] theorem exec_log (h : Half) (s : State) :
    exec (.log h) s = execLog h s := rfl
@[simp] theorem exec_sqrt (h : Half) (s : State) :
    exec (.sqrt h) s = execSqrt h s := rfl
@[simp] theorem exec_recip (h : Half) (s : State) :
    exec (.recip h) s = execRecip h s := rfl
@[simp] theorem exec_add (h : Half) (s : State) :
    exec (.add h) s = execAdd h s := rfl
@[simp] theorem exec_sub (h : Half) (s : State) :
    exec (.sub h) s = execSub h s := rfl
@[simp] theorem exec_mul (h : Half) (s : State) :
    exec (.mul h) s = execMul h s := rfl
@[simp] theorem exec_div (h : Half) (s : State) :
    exec (.div h) s = execDiv h s := rfl
@[simp] theorem exec_max (h : Half) (s : State) :
    exec (.max h) s = execMax h s := rfl
@[simp] theorem exec_min (h : Half) (s : State) :
    exec (.min h) s = execMin h s := rfl
@[simp] theorem exec_axpy (h : Half) (s : State) :
    exec (.axpy h) s = execAxpy h s := rfl
@[simp] theorem exec_rowExpSub (h : Half) (s : State) :
    exec (.rowExpSub h) s = execRowExpSub h s := rfl
@[simp] theorem exec_rowScale (h : Half) (s : State) :
    exec (.rowScale h) s = execRowScale h s := rfl
@[simp] theorem exec_rowDiv (h : Half) (s : State) :
    exec (.rowDiv h) s = execRowDiv h s := rfl
@[simp] theorem exec_dropout (h : Half) (s : State) :
    exec (.dropout h) s = execDropout h s := rfl
@[simp] theorem exec_test (h : Half) (s : State) :
    exec (.test h) s = execTest h s := rfl
@[simp] theorem exec_scaleLoss (h : Half) (s : State) :
    exec (.scaleLoss h) s = execScaleLoss h s := rfl
@[simp] theorem exec_initUniform (h : Half) (s : State) :
    exec (.initUniform h) s = execInitUniform h s := rfl
@[simp] theorem exec_initNormalBm (h : Half) (s : State) :
    exec (.initNormalBm h) s = execInitNormalBm h s := rfl
@[simp] theorem exec_initNormalZig (h : Half) (s : State) :
    exec (.initNormalZig h) s = execInitNormalZig h s := rfl
@[simp] theorem exec_aliasBuild (h : Half) (s : State) :
    exec (.aliasBuild h) s = execAliasBuild h s := rfl
@[simp] theorem exec_versionBind (h : Half) (s : State) :
    exec (.versionBind h) s = execVersionBind h s := rfl
@[simp] theorem exec_versionUnbind (h : Half) (s : State) :
    exec (.versionUnbind h) s = execVersionUnbind h s := rfl
@[simp] theorem exec_stepVote (h : Half) (s : State) :
    exec (.stepVote h) s = execStepVote h s := rfl
@[simp] theorem exec_stepApply (h : Half) (s : State) :
    exec (.stepApply h) s = execStepApply h s := rfl
@[simp] theorem exec_scaleSet (h : Half) (s : State) :
    exec (.scaleSet h) s = execScaleSet h s := rfl
@[simp] theorem exec_plaitSet (h : Half) (s : State) :
    exec (.plaitSet h) s = execPlaitSet h s := rfl
@[simp] theorem exec_rmReduceRecords (h : Half) (s : State) :
    exec (.rmReduceRecords h) s = execRmReduceRecords h s := rfl
@[simp] theorem exec_rmReduceDenseSum (h : Half) (s : State) :
    exec (.rmReduceDenseSum h) s = execRmReduceDenseSum h s := rfl
@[simp] theorem exec_rmConvert (h : Half) (s : State) :
    exec (.rmConvert h) s = execRmConvert h s := rfl
@[simp] theorem exec_rmOpt (h : Half) (s : State) :
    exec (.rmOpt h) s = execRmOpt h s := rfl
@[simp] theorem exec_rmOptTable (h : Half) (s : State) :
    exec (.rmOptTable h) s = execRmOptTable h s := rfl
@[simp] theorem exec_rmPrune (h : Half) (s : State) :
    exec (.rmPrune h) s = execRmPrune h s := rfl
@[simp] theorem exec_fbSend (s : State) :
    exec .fbSend s = execFbSend s := rfl
@[simp] theorem exec_allReduce (s : State) :
    exec .allReduce s = execAllReduce s := rfl
@[simp] theorem exec_reduceScatter (s : State) :
    exec .reduceScatter s = execReduceScatter s := rfl
@[simp] theorem exec_allGather (s : State) :
    exec .allGather s = execAllGather s := rfl
@[simp] theorem exec_allToAll (s : State) :
    exec .allToAll s = execAllToAll s := rfl
@[simp] theorem exec_broadcast (s : State) :
    exec .broadcast s = execBroadcast s := rfl
@[simp] theorem exec_barrier (s : State) :
    exec .barrier s = execBarrier s := rfl
@[simp] theorem exec_trFold (s : State) :
    exec .trFold s = execTrFold s := rfl
@[simp] theorem exec_trSync (s : State) :
    exec .trSync s = execTrSync s := rfl
@[simp] theorem exec_writePacket (p : Packet) (s : State) :
    exec (.writePacket p) s = execWritePacket p s := rfl
@[simp] theorem exec_collData (p : Packet) (mismatches : Nat) (s : State) :
    exec (.collData p mismatches) s = execCollData p mismatches s := rfl
@[simp] theorem exec_collReady (p : Packet) (s : State) :
    exec (.collReady p) s = execCollReady p s := rfl
@[simp] theorem exec_rowReq (p : Packet) (s : State) :
    exec (.rowReq p) s = execRowReq p s := rfl
@[simp] theorem exec_rowReply (p : Packet) (s : State) :
    exec (.rowReply p) s = execRowReply p s := rfl
@[simp] theorem exec_bagReq (p : Packet) (s : State) :
    exec (.bagReq p) s = execBagReq p s := rfl
@[simp] theorem exec_bagReply (p : Packet) (s : State) :
    exec (.bagReply p) s = execBagReply p s := rfl
@[simp] theorem exec_contrib (p : Packet) (s : State) :
    exec (.contrib p) s = execContrib p s := rfl
@[simp] theorem exec_contribStoreWaitDone (sess : U32) (s : State) :
    exec (.contribStoreWaitDone sess) s = execContribStoreWaitDone sess s := rfl
@[simp] theorem exec_accept (p : Packet) (s : State) :
    exec (.accept p) s = execAccept p s := rfl
@[simp] theorem exec_replicaWrite (p : Packet) (s : State) :
    exec (.replicaWrite p) s = execReplicaWrite p s := rfl
@[simp] theorem exec_replicaMark (p : Packet) (s : State) :
    exec (.replicaMark p) s = execReplicaMark p s := rfl
@[simp] theorem exec_refusal (p : Packet) (s : State) :
    exec (.refusal p) s = execRefusal p s := rfl
@[simp] theorem exec_streamOpen (p : Packet) (s : State) :
    exec (.streamOpen p) s = execStreamOpen p s := rfl
@[simp] theorem exec_streamAccept (p : Packet) (s : State) :
    exec (.streamAccept p) s = execStreamAccept p s := rfl
@[simp] theorem exec_join (p : Packet) (s : State) :
    exec (.join p) s = execJoin p s := rfl
@[simp] theorem exec_barrierPacket (p : Packet) (s : State) :
    exec (.barrierPacket p) s = execBarrierPacket p s := rfl
@[simp] theorem exec_vote (p : Packet) (s : State) :
    exec (.vote p) s = execVote p s := rfl
@[simp] theorem exec_abort (p : Packet) (s : State) :
    exec (.abort p) s = execAbort p s := rfl
@[simp] theorem exec_abortEnd (sess : U32) (group : BitVec 24) (s : State) :
    exec (.abortEnd sess group) s = execAbortEnd sess group s := rfl
@[simp] theorem exec_unknownPacket (p : Packet) (s : State) :
    exec (.unknownPacket p) s = execUnknownPacket p s := rfl
@[simp] theorem exec_collectiveTimeout (sess : U32) (group : BitVec 24) (s : State) :
    exec (.collectiveTimeout sess group) s = execCollectiveTimeout sess group s := rfl
@[simp] theorem exec_decisionTimeout (sess : U32) (s : State) :
    exec (.decisionTimeout sess) s = execDecisionTimeout sess s := rfl
@[simp] theorem exec_settleTimeout (sess : U32) (s : State) :
    exec (.settleTimeout sess) s = execSettleTimeout sess s := rfl
@[simp] theorem exec_remoteReplyTimeout (req : Nat) (s : State) :
    exec (.remoteReplyTimeout req) s = execRemoteReplyTimeout req s := rfl
@[simp] theorem exec_contribAcceptTimeout (h : Half) (s : State) :
    exec (.contribAcceptTimeout h) s = execContribAcceptTimeout h s := rfl
@[simp] theorem exec_dataFlit (port : PortNo) (flit : List Byte) (s : State) :
    exec (.dataFlit port flit) s = execDataFlit port flit s := rfl
@[simp] theorem exec_idleFlit (port : PortNo) (flit : List Byte) (s : State) :
    exec (.idleFlit port flit) s = execIdleFlit port flit s := rfl
@[simp] theorem exec_nak (port : PortNo) (seq : BitVec 12) (s : State) :
    exec (.nak port seq) s = execNak port seq s := rfl
@[simp] theorem exec_nakRepeat (port : PortNo) (s : State) :
    exec (.nakRepeat port) s = execNakRepeat port s := rfl
@[simp] theorem exec_linkState (port : PortNo) (peer : BitVec 12) (peerPort : PortNo) (incarnation : Byte) (s : State) :
    exec (.linkState port peer peerPort incarnation) s = execLinkState port peer peerPort incarnation s := rfl
@[simp] theorem exec_wiringRetry (port : PortNo) (s : State) :
    exec (.wiringRetry port) s = execWiringRetry port s := rfl
@[simp] theorem exec_hold (port : PortNo) (s : State) :
    exec (.hold port) s = execHold port s := rfl
@[simp] theorem exec_resume (port : PortNo) (s : State) :
    exec (.resume port) s = execResume port s := rfl
@[simp] theorem exec_laneFailure (port : PortNo) (lane : Fin 4) (s : State) :
    exec (.laneFailure port lane) s = execLaneFailure port lane s := rfl
@[simp] theorem exec_portHoldTimeout (port : PortNo) (lastAccepted : BitVec 12) (s : State) :
    exec (.portHoldTimeout port lastAccepted) s = execPortHoldTimeout port lastAccepted s := rfl
@[simp] theorem exec_linkStateUpdate (module : BitVec 12) (live : BitVec 12) (s : State) :
    exec (.linkStateUpdate module live) s = execLinkStateUpdate module live s := rfl
@[simp] theorem exec_timeExchange (offset : Int) (s : State) :
    exec (.timeExchange offset) s = execTimeExchange offset s := rfl
@[simp] theorem exec_promotion (sess : U32) (table : BitVec 24) (row : Nat) (s : State) :
    exec (.promotion sess table row) s = execPromotion sess table row s := rfl
@[simp] theorem exec_flashFetchDone (sess : U32) (table : BitVec 24) (row : Nat) (outcome : FetchOutcome) (s : State) :
    exec (.flashFetchDone sess table row outcome) s = execFlashFetchDone sess table row outcome s := rfl
@[simp] theorem exec_forcedFoldAge (sess : U32) (s : State) :
    exec (.forcedFoldAge sess) s = execForcedFoldAge sess s := rfl
@[simp] theorem exec_forcedFoldFull (sess : U32) (s : State) :
    exec (.forcedFoldFull sess) s = execForcedFoldFull sess s := rfl
@[simp] theorem exec_backgroundFold (h : Half) (s : State) :
    exec (.backgroundFold h) s = execBackgroundFold h s := rfl
@[simp] theorem exec_stagingProgram (h : Half) (s : State) :
    exec (.stagingProgram h) s = execStagingProgram h s := rfl
@[simp] theorem exec_writeBackStage (sess : U32) (table : BitVec 24) (row : Nat) (s : State) :
    exec (.writeBackStage sess table row) s = execWriteBackStage sess table row s := rfl
@[simp] theorem exec_reclamation (ch : Fin 32) (s : State) :
    exec (.reclamation ch) s = execReclamation ch s := rfl
@[simp] theorem exec_flashPatrol (ch : Fin 32) (die : Fin 12) (block : Nat) (relocate : Bool) (s : State) :
    exec (.flashPatrol ch die block relocate) s = execFlashPatrol ch die block relocate s := rfl
@[simp] theorem exec_readDisturbRelocate (ch : Fin 32) (die : Fin 12) (block : Nat) (s : State) :
    exec (.readDisturbRelocate ch die block) s = execReadDisturbRelocate ch die block s := rfl
@[simp] theorem exec_programEraseFail (ch : Fin 32) (die : Fin 12) (block : Nat) (s : State) :
    exec (.programEraseFail ch die block) s = execProgramEraseFail ch die block s := rfl
@[simp] theorem exec_wearThrottleEnd (s : State) :
    exec .wearThrottleEnd s = execWearThrottleEnd s := rfl
@[simp] theorem exec_hbmRetrain (pc : Fin 512) (laneErrors : Nat) (s : State) :
    exec (.hbmRetrain pc laneErrors) s = execHbmRetrain pc laneErrors s := rfl
@[simp] theorem exec_hbmPatrolScrub (pc : Fin 512) (sector : Nat) (symbols : Nat) (s : State) :
    exec (.hbmPatrolScrub pc sector symbols) s = execHbmPatrolScrub pc sector symbols s := rfl
@[simp] theorem exec_sramScrub (h : Half) (row : Nat) (bits : Nat) (s : State) :
    exec (.sramScrub h row bits) s = execSramScrub h row bits s := rfl
@[simp] theorem exec_telemetrySample (stackTemps : List Nat) (coolantOut : Nat) (s : State) :
    exec (.telemetrySample stackTemps coolantOut) s = execTelemetrySample stackTemps coolantOut s := rfl
@[simp] theorem exec_stackStopTimeout (req : Nat) (s : State) :
    exec (.stackStopTimeout req) s = execStackStopTimeout req s := rfl
@[simp] theorem exec_bucketDrain (row : Nat) (unit : U16) (s : State) :
    exec (.bucketDrain row unit) s = execBucketDrain row unit s := rfl
@[simp] theorem exec_unitWatchdog (unit : U16) (s : State) :
    exec (.unitWatchdog unit) s = execUnitWatchdog unit s := rfl
@[simp] theorem exec_bridgeLoss (channel : Fin 4) (s : State) :
    exec (.bridgeLoss channel) s = execBridgeLoss channel s := rfl
@[simp] theorem exec_heartbeat (h : Half) (s : State) :
    exec (.heartbeat h) s = execHeartbeat h s := rfl
@[simp] theorem exec_leaseRenewal (h : Half) (epoch : U32) (s : State) :
    exec (.leaseRenewal h epoch) s = execLeaseRenewal h epoch s := rfl
@[simp] theorem exec_leaseRequest (answered : Bool) (s : State) :
    exec (.leaseRequest answered) s = execLeaseRequest answered s := rfl
@[simp] theorem exec_leaseGrant (s : State) :
    exec .leaseGrant s = execLeaseGrant s := rfl
@[simp] theorem exec_followerProbe (answered : Bool) (s : State) :
    exec (.followerProbe answered) s = execFollowerProbe answered s := rfl
@[simp] theorem exec_splitLeaseClaim (epochWest : U32) (epochEast : U32) (s : State) :
    exec (.splitLeaseClaim epochWest epochEast) s = execSplitLeaseClaim epochWest epochEast s := rfl
@[simp] theorem exec_processorRejoin (h : Half) (s : State) :
    exec (.processorRejoin h) s = execProcessorRejoin h s := rfl
@[simp] theorem exec_handleWatchdogRestart (s : State) :
    exec .handleWatchdogRestart s = execHandleWatchdogRestart s := rfl
@[simp] theorem exec_auxPowerGood (outcome : UpsettOutcome) (s : State) :
    exec (.auxPowerGood outcome) s = execAuxPowerGood outcome s := rfl
@[simp] theorem exec_mainInputInRange (mv : Nat) (outcome : UpsettOutcome) (s : State) :
    exec (.mainInputInRange mv outcome) s = execMainInputInRange mv outcome s := rfl
@[simp] theorem exec_modReset (low : Bool) (outcome : UpsettOutcome) (s : State) :
    exec (.modReset low outcome) s = execModReset low outcome s := rfl
@[simp] theorem exec_holdOffAssert (s : State) :
    exec .holdOffAssert s = execHoldOffAssert s := rfl
@[simp] theorem exec_holdOffRelease (outcome : UpsettOutcome) (s : State) :
    exec (.holdOffRelease outcome) s = execHoldOffRelease outcome s := rfl
@[simp] theorem exec_mainInputLoss (mv : Nat) (s : State) :
    exec (.mainInputLoss mv) s = execMainInputLoss mv s := rfl
@[simp] theorem exec_overvoltageOrRailFault (overvoltage : Bool) (mv : Nat) (s : State) :
    exec (.overvoltageOrRailFault overvoltage mv) s = execOvervoltageOrRailFault overvoltage mv s := rfl
@[simp] theorem exec_modPresentOpen (s : State) :
    exec .modPresentOpen s = execModPresentOpen s := rfl
@[simp] theorem exec_referenceLost (s : State) :
    exec .referenceLost s = execReferenceLost s := rfl
@[simp] theorem exec_referenceRestored (s : State) :
    exec .referenceRestored s = execReferenceRestored s := rfl
@[simp] theorem exec_governorInterval (watts : Nat) (s : State) :
    exec (.governorInterval watts) s = execGovernorInterval watts s := rfl
@[simp] theorem exec_powerEstimateUpdate (h : Half) (watts : Nat) (s : State) :
    exec (.powerEstimateUpdate h watts) s = execPowerEstimateUpdate h watts s := rfl
@[simp] theorem exec_rampStep (s : State) :
    exec .rampStep s = execRampStep s := rfl
@[simp] theorem exec_engineIdle (inst : EngineInst) (s : State) :
    exec (.engineIdle inst) s = execEngineIdle inst s := rfl
@[simp] theorem exec_junctionSensorRead (west : Nat) (east : Nat) (s : State) :
    exec (.junctionSensorRead west east) s = execJunctionSensorRead west east s := rfl
@[simp] theorem exec_thermalThrottleStep (s : State) :
    exec .thermalThrottleStep s = execThermalThrottleStep s := rfl
@[simp] theorem exec_tokenBucketRefill (s : State) :
    exec .tokenBucketRefill s = execTokenBucketRefill s := rfl
@[simp] theorem exec_memoryZeroed (fn : Nat) (tag : U16) (s : State) :
    exec (.memoryZeroed fn tag) s = execMemoryZeroed fn tag s := rfl
@[simp] theorem exec_pldmRequest (ptype : Byte) (sensor : Nat) (s : State) :
    exec (.pldmRequest ptype sensor) s = execPldmRequest ptype sensor s := rfl
@[simp] theorem exec_entdaa (address : BitVec 7) (s : State) :
    exec (.entdaa address) s = execEntdaa address s := rfl
@[simp] theorem exec_smbusFirstAddress (address : BitVec 7) (s : State) :
    exec (.smbusFirstAddress address) s = execSmbusFirstAddress address s := rfl
@[simp] theorem exec_readConfig (s : State) :
    exec .readConfig s = execReadConfig s := rfl
@[simp] theorem exec_writeConfig (cfg : OpConfig) (s : State) :
    exec (.writeConfig cfg) s = execWriteConfig cfg s := rfl
@[simp] theorem exec_writeMap (dims : List Nat) (coords : List Nat) (s : State) :
    exec (.writeMap dims coords) s = execWriteMap dims coords s := rfl
@[simp] theorem exec_installRoot (key : List Byte) (s : State) :
    exec (.installRoot key) s = execInstallRoot key s := rfl
@[simp] theorem exec_installKek (payload : List Byte) (root : List Byte) (sig : List Byte) (s : State) :
    exec (.installKek payload root sig) s = execInstallKek payload root sig s := rfl
@[simp] theorem exec_installCoilKey (payload : List Byte) (root : List Byte) (sig : List Byte) (s : State) :
    exec (.installCoilKey payload root sig) s = execInstallCoilKey payload root sig s := rfl
@[simp] theorem exec_revokeCoilKey (payload : List Byte) (root : List Byte) (sig : List Byte) (s : State) :
    exec (.revokeCoilKey payload root sig) s = execRevokeCoilKey payload root sig s := rfl
@[simp] theorem exec_readIdentity (s : State) :
    exec .readIdentity s = execReadIdentity s := rfl
@[simp] theorem exec_pipeTileArrival (inst : EngineInst) (s : State) :
    exec (.pipeTileArrival inst) s = execPipeTileArrival inst s := rfl
@[simp] theorem exec_auxPowerLoss (s : State) :
    exec .auxPowerLoss s = execAuxPowerLoss s := rfl
@[simp] theorem exec_vfEnable (numVfs : Nat) (s : State) :
    exec (.vfEnable numVfs) s = execVfEnable numVfs s := rfl
@[simp] theorem exec_managementReset (outcome : UpsettOutcome) (s : State) :
    exec (.managementReset outcome) s = execManagementReset outcome s := rfl
@[simp] theorem exec_pcieCompletionTimeout (lo : Nat) (hi : Nat) (s : State) :
    exec (.pcieCompletionTimeout lo hi) s = execPcieCompletionTimeout lo hi s := rfl

end Sys2Proof.Machine
end

