-- ==== Sys2Proof/Laws/Memory.lean ====
section
/-! SUPPORT. The cells of memory: every write keeps the canonical form, a read after a write gives what was written and elsewhere what
was there, and memories of the canonical form that read alike are equal. -/

namespace Sys2Proof.Machine

theorem readCell_below : ∀ {m : List Host.Cell} {lo x : Nat}, cellsFrom lo m = true → x < lo → readCell m x = unlisted
  | [], _, _, _, _ => rfl
  | (a, b) :: t, lo, x, h, hx => by
    simp only [cellsFrom, Bool.and_eq_true, decide_eq_true_eq] at h
    simp [readCell, show x < a by omega]

theorem cellsFrom_mono {m : List Host.Cell} {lo k : Nat} (h : cellsFrom lo m = true) (hk : k ≤ lo) : cellsFrom k m = true := by
  cases m with
  | nil => rfl
  | cons c t =>
    simp only [cellsFrom, Bool.and_eq_true, decide_eq_true_eq] at h ⊢
    exact ⟨⟨by omega, h.1.2⟩, h.2⟩

theorem writeCell_from {x : Nat} {v : Byte} : ∀ {m : List Host.Cell} {lo : Nat}, cellsFrom lo m = true → lo ≤ x →
    cellsFrom lo (writeCell m x v) = true
  | [], lo, _, hx => by
    unfold writeCell; split <;> simp_all [cellsFrom]
  | (a, b) :: t, lo, h, hx => by
    simp only [cellsFrom, Bool.and_eq_true, decide_eq_true_eq] at h
    unfold writeCell
    split
    · split
      · simp [cellsFrom, h]
      · rename_i h1 h2; simp [cellsFrom, h, hx, h2]; omega
    · split
      · split
        · exact cellsFrom_mono h.2 (by omega)
        · rename_i h1 h2 h3; subst h2; simp [cellsFrom, h, h3]
      · rename_i h1 h2
        simp [cellsFrom, h, writeCell_from h.2 (show a + 1 ≤ x by omega)]

/-- Writing a byte keeps the canonical form. -/
theorem writeCell_wf {m : List Host.Cell} (x : Nat) (v : Byte) (h : Memory.wf m = true) : Memory.wf (writeCell m x v) = true :=
  writeCell_from h (Nat.zero_le x)

theorem read_write_from {x : Nat} {v : Byte} (y : Nat) : ∀ {m : List Host.Cell} {lo : Nat}, cellsFrom lo m = true →
    readCell (writeCell m x v) y = if y = x then v else readCell m y
  | [], lo, _ => by
    unfold writeCell; split
    · split <;> simp_all [readCell]
    · simp only [readCell]; split <;> split <;> first | rfl | omega
  | (a, b) :: t, lo, h => by
    simp only [cellsFrom, Bool.and_eq_true, decide_eq_true_eq] at h
    unfold writeCell
    split
    · rename_i h1
      split
      · rename_i h2
        split
        · rename_i h3; simp [readCell, h3, h1, h2]
        · rfl
      · by_cases h3 : y = x
        · simp [readCell, h3]
        · simp only [readCell, h3, if_false]
          split
          · rw [if_pos (by omega)]
          · rfl
    · split
      · rename_i h1 h2
        subst h2
        split
        · rename_i h3
          by_cases h4 : y = x
          · rw [if_pos h4, readCell_below h.2 (by omega), h3]
          · simp only [readCell, h4, if_false]
            split
            · exact readCell_below h.2 (by omega)
            · rfl
        · by_cases h4 : y = x
          · simp [readCell, h4]
          · simp [readCell, h4]
      · rename_i h1 h2
        simp only [readCell, read_write_from y h.2]
        split
        · rw [if_neg (by omega)]
        · split
          · rw [if_neg (by omega)]
          · rfl

/-- A read after a write: the byte written there, and what was there elsewhere. -/
theorem readCell_writeCell {m : List Host.Cell} (h : Memory.wf m = true) (x y : Nat) (v : Byte) :
    readCell (writeCell m x v) y = if y = x then v else readCell m y := read_write_from y h

/-- Writing bytes keeps the canonical form. -/
theorem writeCells_wf : ∀ (bs : List Byte) {m : List Host.Cell} (a : Nat), Memory.wf m = true → Memory.wf (writeCells m a bs) = true
  | [], _, _, h => h
  | b :: t, _, a, h => writeCells_wf t (a + 1) (writeCell_wf a b h)

/-- A byte after a write of several: the one written there, and what was there elsewhere. -/
theorem readCell_writeCells : ∀ (bs : List Byte) {m : List Host.Cell} (a y : Nat), Memory.wf m = true →
    readCell (writeCells m a bs) y = if a ≤ y ∧ y < a + bs.length then bs.getD (y - a) unlisted else readCell m y
  | [], m, a, y, h => by
    simp [writeCells]
    all_goals (intros; omega)
  | b :: t, m, a, y, h => by
    rw [writeCells, readCell_writeCells t (a + 1) y (writeCell_wf a b h), readCell_writeCell h]
    by_cases h1 : y = a
    · subst h1; rw [if_neg (by omega), if_pos rfl, if_pos (by simp)]; simp
    · by_cases h2 : a + 1 ≤ y ∧ y < a + 1 + t.length
      · rw [if_pos h2, if_pos (by simp; omega), show y - a = (y - (a + 1)) + 1 by omega]; simp
      · rw [if_neg h2, if_neg h1, if_neg (by simp; omega)]

theorem clear_from {lo n : Nat} : ∀ {m : List Host.Cell} {k : Nat}, cellsFrom k m = true → cellsFrom k (clearCells m lo n) = true
  | [], _, _ => rfl
  | (a, b) :: t, k, h => by
    simp only [cellsFrom, Bool.and_eq_true, decide_eq_true_eq] at h
    have ih : cellsFrom (a + 1) (clearCells t lo n) = true := clear_from h.2
    unfold clearCells at ih ⊢
    rw [List.filter_cons]
    split
    · simp [cellsFrom, h, ih]
    · exact cellsFrom_mono ih (by omega)

/-- Clearing a range keeps the canonical form. -/
theorem clearCells_wf {m : List Host.Cell} (lo n : Nat) (h : Memory.wf m = true) : Memory.wf (clearCells m lo n) = true := clear_from h

theorem read_clear_from {lo n : Nat} (y : Nat) : ∀ {m : List Host.Cell} {k : Nat}, cellsFrom k m = true →
    readCell (clearCells m lo n) y = if lo ≤ y ∧ y < lo + n then unlisted else readCell m y
  | [], _, _ => by simp [clearCells, readCell]
  | (a, b) :: t, k, h => by
    simp only [cellsFrom, Bool.and_eq_true, decide_eq_true_eq] at h
    have ih : readCell (clearCells t lo n) y = _ := read_clear_from y h.2
    have below : cellsFrom (a + 1) (clearCells t lo n) = true := clear_from h.2
    unfold clearCells at ih below ⊢
    rw [List.filter_cons]
    by_cases hk : a < lo ∨ lo + n ≤ a
    · rw [if_pos (by simpa using hk)]
      simp only [readCell, ih]
      by_cases h1 : y < a
      · simp [h1]
      · by_cases h2 : y = a
        · subst h2; rw [if_neg h1, if_pos rfl, if_neg (by omega), if_neg h1, if_pos rfl]
        · simp [h1, h2]
    · rw [if_neg (by simpa using hk), ih]
      by_cases h0 : lo ≤ y ∧ y < lo + n
      · simp [h0]
      · rw [if_neg h0, if_neg h0]
        simp only [readCell]
        by_cases h1 : y < a
        · rw [if_pos h1]; exact readCell_below h.2 (by omega)
        · rw [if_neg h1, if_neg (by omega)]

/-- A read after clearing a range: zero in it, and what was there elsewhere. -/
theorem readCell_clearCells {m : List Host.Cell} (h : Memory.wf m = true) (lo n y : Nat) :
    readCell (clearCells m lo n) y = if lo ≤ y ∧ y < lo + n then unlisted else readCell m y := read_clear_from y h

theorem readCell_cons {a : Nat} {b : Byte} {t : List Host.Cell} (y : Nat) :
    readCell ((a, b) :: t) y = if y < a then unlisted else if y = a then b else readCell t y := rfl

theorem cells_ext : ∀ {m m' : List Host.Cell} {k k' : Nat}, cellsFrom k m = true → cellsFrom k' m' = true →
    (∀ y, readCell m y = readCell m' y) → m = m'
  | [], [], _, _, _, _, _ => rfl
  | [], (a, b) :: t, _, _, _, h', e => by
    simp only [cellsFrom, Bool.and_eq_true, decide_eq_true_eq] at h'
    have := e a; simp [readCell] at this; exact absurd this.symm h'.1.2
  | (a, b) :: t, [], _, _, h, _, e => by
    simp only [cellsFrom, Bool.and_eq_true, decide_eq_true_eq] at h
    have := e a; simp [readCell] at this; exact absurd this h.1.2
  | (a, b) :: t, (a', b') :: t', _, _, h, h', e => by
    simp only [cellsFrom, Bool.and_eq_true, decide_eq_true_eq] at h h'
    have e1 := e a
    have e2 := e a'
    simp only [readCell_cons, Nat.lt_irrefl, if_false, if_true] at e1 e2
    have hab : a = a' := by
      by_cases h1 : a < a'
      · rw [if_pos h1] at e1; exact absurd e1 h.1.2
      · by_cases h2 : a' < a
        · rw [if_pos h2] at e2; exact absurd e2.symm h'.1.2
        · omega
    subst hab
    simp only [Nat.lt_irrefl, if_false, if_true] at e1
    subst e1
    congr 1
    refine cells_ext h.2 h'.2 fun y => ?_
    by_cases hy : y < a + 1
    · rw [readCell_below h.2 hy, readCell_below h'.2 hy]
    · have := e y
      simpa [readCell_cons, show ¬ y < a by omega, show ¬ y = a by omega] using this

/-- Memories in the canonical form that read alike at every address are equal. -/
theorem memory_ext {m m' : List Host.Cell} (h : Memory.wf m = true) (h' : Memory.wf m' = true) (e : ∀ y, readCell m y = readCell m' y) :
    m = m' := cells_ext h h' e

end Sys2Proof.Machine
end

