-- ==== Sys2Proof/Laws/State.lean ====
section
/-! SUPPORT. One lemma for each field of State and each of the shared updates that leaves it alone, so that no proof
unfolds an update. -/

namespace Sys2Proof.Machine

variable (s : State)

/-! ### setCtx -/

@[simp] theorem setCtx_pending (sess : U32) (f : Context → Context) : (setCtx s sess f).pending = s.pending := rfl
@[simp] theorem setCtx_now (sess : U32) (f : Context → Context) : (setCtx s sess f).now = s.now := rfl
@[simp] theorem setCtx_mstate (sess : U32) (f : Context → Context) : (setCtx s sess f).mstate = s.mstate := rfl
@[simp] theorem setCtx_numVfs (sess : U32) (f : Context → Context) : (setCtx s sess f).numVfs = s.numVfs := rfl
@[simp] theorem setCtx_boxes (sess : U32) (f : Context → Context) : (setCtx s sess f).boxes = s.boxes := rfl
@[simp] theorem setCtx_sessions (sess : U32) (f : Context → Context) : (setCtx s sess f).sessions = s.sessions := rfl
@[simp] theorem setCtx_generations (sess : U32) (f : Context → Context) : (setCtx s sess f).generations = s.generations := rfl
@[simp] theorem setCtx_tenants (sess : U32) (f : Context → Context) : (setCtx s sess f).tenants = s.tenants := rfl
@[simp] theorem setCtx_waitQueue (sess : U32) (f : Context → Context) : (setCtx s sess f).waitQueue = s.waitQueue := rfl
@[simp] theorem setCtx_lists (sess : U32) (f : Context → Context) : (setCtx s sess f).lists = s.lists := rfl
@[simp] theorem setCtx_engines (sess : U32) (f : Context → Context) : (setCtx s sess f).engines = s.engines := rfl
@[simp] theorem setCtx_progress (sess : U32) (f : Context → Context) : (setCtx s sess f).progress = s.progress := rfl
@[simp] theorem setCtx_delays (sess : U32) (f : Context → Context) : (setCtx s sess f).delays = s.delays := rfl
@[simp] theorem setCtx_delayWaits (sess : U32) (f : Context → Context) : (setCtx s sess f).delayWaits = s.delayWaits := rfl
@[simp] theorem setCtx_jobs (sess : U32) (f : Context → Context) : (setCtx s sess f).jobs = s.jobs := rfl
@[simp] theorem setCtx_cores (sess : U32) (f : Context → Context) : (setCtx s sess f).cores = s.cores := rfl
@[simp] theorem setCtx_requests (sess : U32) (f : Context → Context) : (setCtx s sess f).requests = s.requests := rfl
@[simp] theorem setCtx_remotePicks (sess : U32) (f : Context → Context) : (setCtx s sess f).remotePicks = s.remotePicks := rfl
@[simp] theorem setCtx_remoteReqs (sess : U32) (f : Context → Context) : (setCtx s sess f).remoteReqs = s.remoteReqs := rfl
@[simp] theorem setCtx_heldLookups (sess : U32) (f : Context → Context) : (setCtx s sess f).heldLookups = s.heldLookups := rfl
@[simp] theorem setCtx_weave (sess : U32) (f : Context → Context) : (setCtx s sess f).weave = s.weave := rfl
@[simp] theorem setCtx_hbm (sess : U32) (f : Context → Context) : (setCtx s sess f).hbm = s.hbm := rfl
@[simp] theorem setCtx_tier (sess : U32) (f : Context → Context) : (setCtx s sess f).tier = s.tier := rfl
@[simp] theorem setCtx_fabric (sess : U32) (f : Context → Context) : (setCtx s sess f).fabric = s.fabric := rfl
@[simp] theorem setCtx_faults (sess : U32) (f : Context → Context) : (setCtx s sess f).faults = s.faults := rfl
@[simp] theorem setCtx_lead (sess : U32) (f : Context → Context) : (setCtx s sess f).lead = s.lead := rfl
@[simp] theorem setCtx_fw (sess : U32) (f : Context → Context) : (setCtx s sess f).fw = s.fw := rfl
@[simp] theorem setCtx_power (sess : U32) (f : Context → Context) : (setCtx s sess f).power = s.power := rfl
@[simp] theorem setCtx_tel (sess : U32) (f : Context → Context) : (setCtx s sess f).tel = s.tel := rfl
@[simp] theorem setCtx_mgmt (sess : U32) (f : Context → Context) : (setCtx s sess f).mgmt = s.mgmt := rfl
@[simp] theorem setCtx_mem (sess : U32) (f : Context → Context) : (setCtx s sess f).mem = s.mem := rfl
@[simp] theorem setCtx_hostMem (sess : U32) (f : Context → Context) : (setCtx s sess f).hostMem = s.hostMem := rfl
@[simp] theorem setCtx_hostRefuse (sess : U32) (f : Context → Context) : (setCtx s sess f).hostRefuse = s.hostRefuse := rfl
@[simp] theorem setCtx_busRead (sess : U32) (f : Context → Context) : (setCtx s sess f).busRead = s.busRead := rfl
@[simp] theorem setCtx_splintIssued (sess : U32) (f : Context → Context) : (setCtx s sess f).splintIssued = s.splintIssued := rfl
@[simp] theorem setCtx_splintBusyNs (sess : U32) (f : Context → Context) : (setCtx s sess f).splintBusyNs = s.splintBusyNs := rfl
@[simp] theorem setCtx_dedupKeys (sess : U32) (f : Context → Context) : (setCtx s sess f).dedupKeys = s.dedupKeys := rfl
@[simp] theorem setCtx_draws (sess : U32) (f : Context → Context) : (setCtx s sess f).draws = s.draws := rfl
@[simp] theorem setCtx_choices (sess : U32) (f : Context → Context) : (setCtx s sess f).choices = s.choices := rfl
@[simp] theorem setCtx_nextUid (sess : U32) (f : Context → Context) : (setCtx s sess f).nextUid = s.nextUid := rfl

/-! ### setBox -/

@[simp] theorem setBox_pending (fn : Nat) (f : Mailbox → Mailbox) : (setBox s fn f).pending = s.pending := rfl
@[simp] theorem setBox_now (fn : Nat) (f : Mailbox → Mailbox) : (setBox s fn f).now = s.now := rfl
@[simp] theorem setBox_mstate (fn : Nat) (f : Mailbox → Mailbox) : (setBox s fn f).mstate = s.mstate := rfl
@[simp] theorem setBox_numVfs (fn : Nat) (f : Mailbox → Mailbox) : (setBox s fn f).numVfs = s.numVfs := rfl
@[simp] theorem setBox_sessions (fn : Nat) (f : Mailbox → Mailbox) : (setBox s fn f).sessions = s.sessions := rfl
@[simp] theorem setBox_generations (fn : Nat) (f : Mailbox → Mailbox) : (setBox s fn f).generations = s.generations := rfl
@[simp] theorem setBox_tenants (fn : Nat) (f : Mailbox → Mailbox) : (setBox s fn f).tenants = s.tenants := rfl
@[simp] theorem setBox_contexts (fn : Nat) (f : Mailbox → Mailbox) : (setBox s fn f).contexts = s.contexts := rfl
@[simp] theorem setBox_waitQueue (fn : Nat) (f : Mailbox → Mailbox) : (setBox s fn f).waitQueue = s.waitQueue := rfl
@[simp] theorem setBox_lists (fn : Nat) (f : Mailbox → Mailbox) : (setBox s fn f).lists = s.lists := rfl
@[simp] theorem setBox_engines (fn : Nat) (f : Mailbox → Mailbox) : (setBox s fn f).engines = s.engines := rfl
@[simp] theorem setBox_progress (fn : Nat) (f : Mailbox → Mailbox) : (setBox s fn f).progress = s.progress := rfl
@[simp] theorem setBox_delays (fn : Nat) (f : Mailbox → Mailbox) : (setBox s fn f).delays = s.delays := rfl
@[simp] theorem setBox_delayWaits (fn : Nat) (f : Mailbox → Mailbox) : (setBox s fn f).delayWaits = s.delayWaits := rfl
@[simp] theorem setBox_jobs (fn : Nat) (f : Mailbox → Mailbox) : (setBox s fn f).jobs = s.jobs := rfl
@[simp] theorem setBox_cores (fn : Nat) (f : Mailbox → Mailbox) : (setBox s fn f).cores = s.cores := rfl
@[simp] theorem setBox_requests (fn : Nat) (f : Mailbox → Mailbox) : (setBox s fn f).requests = s.requests := rfl
@[simp] theorem setBox_remotePicks (fn : Nat) (f : Mailbox → Mailbox) : (setBox s fn f).remotePicks = s.remotePicks := rfl
@[simp] theorem setBox_remoteReqs (fn : Nat) (f : Mailbox → Mailbox) : (setBox s fn f).remoteReqs = s.remoteReqs := rfl
@[simp] theorem setBox_heldLookups (fn : Nat) (f : Mailbox → Mailbox) : (setBox s fn f).heldLookups = s.heldLookups := rfl
@[simp] theorem setBox_weave (fn : Nat) (f : Mailbox → Mailbox) : (setBox s fn f).weave = s.weave := rfl
@[simp] theorem setBox_hbm (fn : Nat) (f : Mailbox → Mailbox) : (setBox s fn f).hbm = s.hbm := rfl
@[simp] theorem setBox_tier (fn : Nat) (f : Mailbox → Mailbox) : (setBox s fn f).tier = s.tier := rfl
@[simp] theorem setBox_fabric (fn : Nat) (f : Mailbox → Mailbox) : (setBox s fn f).fabric = s.fabric := rfl
@[simp] theorem setBox_faults (fn : Nat) (f : Mailbox → Mailbox) : (setBox s fn f).faults = s.faults := rfl
@[simp] theorem setBox_lead (fn : Nat) (f : Mailbox → Mailbox) : (setBox s fn f).lead = s.lead := rfl
@[simp] theorem setBox_fw (fn : Nat) (f : Mailbox → Mailbox) : (setBox s fn f).fw = s.fw := rfl
@[simp] theorem setBox_power (fn : Nat) (f : Mailbox → Mailbox) : (setBox s fn f).power = s.power := rfl
@[simp] theorem setBox_tel (fn : Nat) (f : Mailbox → Mailbox) : (setBox s fn f).tel = s.tel := rfl
@[simp] theorem setBox_mgmt (fn : Nat) (f : Mailbox → Mailbox) : (setBox s fn f).mgmt = s.mgmt := rfl
@[simp] theorem setBox_mem (fn : Nat) (f : Mailbox → Mailbox) : (setBox s fn f).mem = s.mem := rfl
@[simp] theorem setBox_hostMem (fn : Nat) (f : Mailbox → Mailbox) : (setBox s fn f).hostMem = s.hostMem := rfl
@[simp] theorem setBox_hostRefuse (fn : Nat) (f : Mailbox → Mailbox) : (setBox s fn f).hostRefuse = s.hostRefuse := rfl
@[simp] theorem setBox_busRead (fn : Nat) (f : Mailbox → Mailbox) : (setBox s fn f).busRead = s.busRead := rfl
@[simp] theorem setBox_splintIssued (fn : Nat) (f : Mailbox → Mailbox) : (setBox s fn f).splintIssued = s.splintIssued := rfl
@[simp] theorem setBox_splintBusyNs (fn : Nat) (f : Mailbox → Mailbox) : (setBox s fn f).splintBusyNs = s.splintBusyNs := rfl
@[simp] theorem setBox_dedupKeys (fn : Nat) (f : Mailbox → Mailbox) : (setBox s fn f).dedupKeys = s.dedupKeys := rfl
@[simp] theorem setBox_draws (fn : Nat) (f : Mailbox → Mailbox) : (setBox s fn f).draws = s.draws := rfl
@[simp] theorem setBox_choices (fn : Nat) (f : Mailbox → Mailbox) : (setBox s fn f).choices = s.choices := rfl
@[simp] theorem setBox_nextUid (fn : Nat) (f : Mailbox → Mailbox) : (setBox s fn f).nextUid = s.nextUid := rfl

/-! ### setTenant -/

@[simp] theorem setTenant_pending (id : U32) (f : Tenant → Tenant) : (setTenant s id f).pending = s.pending := by unfold setTenant; split <;> rfl
@[simp] theorem setTenant_now (id : U32) (f : Tenant → Tenant) : (setTenant s id f).now = s.now := by unfold setTenant; split <;> rfl
@[simp] theorem setTenant_mstate (id : U32) (f : Tenant → Tenant) : (setTenant s id f).mstate = s.mstate := by unfold setTenant; split <;> rfl
@[simp] theorem setTenant_numVfs (id : U32) (f : Tenant → Tenant) : (setTenant s id f).numVfs = s.numVfs := by unfold setTenant; split <;> rfl
@[simp] theorem setTenant_boxes (id : U32) (f : Tenant → Tenant) : (setTenant s id f).boxes = s.boxes := by unfold setTenant; split <;> rfl
@[simp] theorem setTenant_sessions (id : U32) (f : Tenant → Tenant) : (setTenant s id f).sessions = s.sessions := by unfold setTenant; split <;> rfl
@[simp] theorem setTenant_generations (id : U32) (f : Tenant → Tenant) : (setTenant s id f).generations = s.generations := by unfold setTenant; split <;> rfl
@[simp] theorem setTenant_contexts (id : U32) (f : Tenant → Tenant) : (setTenant s id f).contexts = s.contexts := by unfold setTenant; split <;> rfl
@[simp] theorem setTenant_waitQueue (id : U32) (f : Tenant → Tenant) : (setTenant s id f).waitQueue = s.waitQueue := by unfold setTenant; split <;> rfl
@[simp] theorem setTenant_lists (id : U32) (f : Tenant → Tenant) : (setTenant s id f).lists = s.lists := by unfold setTenant; split <;> rfl
@[simp] theorem setTenant_engines (id : U32) (f : Tenant → Tenant) : (setTenant s id f).engines = s.engines := by unfold setTenant; split <;> rfl
@[simp] theorem setTenant_progress (id : U32) (f : Tenant → Tenant) : (setTenant s id f).progress = s.progress := by unfold setTenant; split <;> rfl
@[simp] theorem setTenant_delays (id : U32) (f : Tenant → Tenant) : (setTenant s id f).delays = s.delays := by unfold setTenant; split <;> rfl
@[simp] theorem setTenant_delayWaits (id : U32) (f : Tenant → Tenant) : (setTenant s id f).delayWaits = s.delayWaits := by unfold setTenant; split <;> rfl
@[simp] theorem setTenant_jobs (id : U32) (f : Tenant → Tenant) : (setTenant s id f).jobs = s.jobs := by unfold setTenant; split <;> rfl
@[simp] theorem setTenant_cores (id : U32) (f : Tenant → Tenant) : (setTenant s id f).cores = s.cores := by unfold setTenant; split <;> rfl
@[simp] theorem setTenant_requests (id : U32) (f : Tenant → Tenant) : (setTenant s id f).requests = s.requests := by unfold setTenant; split <;> rfl
@[simp] theorem setTenant_remotePicks (id : U32) (f : Tenant → Tenant) : (setTenant s id f).remotePicks = s.remotePicks := by unfold setTenant; split <;> rfl
@[simp] theorem setTenant_remoteReqs (id : U32) (f : Tenant → Tenant) : (setTenant s id f).remoteReqs = s.remoteReqs := by unfold setTenant; split <;> rfl
@[simp] theorem setTenant_heldLookups (id : U32) (f : Tenant → Tenant) : (setTenant s id f).heldLookups = s.heldLookups := by unfold setTenant; split <;> rfl
@[simp] theorem setTenant_weave (id : U32) (f : Tenant → Tenant) : (setTenant s id f).weave = s.weave := by unfold setTenant; split <;> rfl
@[simp] theorem setTenant_hbm (id : U32) (f : Tenant → Tenant) : (setTenant s id f).hbm = s.hbm := by unfold setTenant; split <;> rfl
@[simp] theorem setTenant_tier (id : U32) (f : Tenant → Tenant) : (setTenant s id f).tier = s.tier := by unfold setTenant; split <;> rfl
@[simp] theorem setTenant_fabric (id : U32) (f : Tenant → Tenant) : (setTenant s id f).fabric = s.fabric := by unfold setTenant; split <;> rfl
@[simp] theorem setTenant_faults (id : U32) (f : Tenant → Tenant) : (setTenant s id f).faults = s.faults := by unfold setTenant; split <;> rfl
@[simp] theorem setTenant_lead (id : U32) (f : Tenant → Tenant) : (setTenant s id f).lead = s.lead := by unfold setTenant; split <;> rfl
@[simp] theorem setTenant_fw (id : U32) (f : Tenant → Tenant) : (setTenant s id f).fw = s.fw := by unfold setTenant; split <;> rfl
@[simp] theorem setTenant_power (id : U32) (f : Tenant → Tenant) : (setTenant s id f).power = s.power := by unfold setTenant; split <;> rfl
@[simp] theorem setTenant_tel (id : U32) (f : Tenant → Tenant) : (setTenant s id f).tel = s.tel := by unfold setTenant; split <;> rfl
@[simp] theorem setTenant_mgmt (id : U32) (f : Tenant → Tenant) : (setTenant s id f).mgmt = s.mgmt := by unfold setTenant; split <;> rfl
@[simp] theorem setTenant_mem (id : U32) (f : Tenant → Tenant) : (setTenant s id f).mem = s.mem := by unfold setTenant; split <;> rfl
@[simp] theorem setTenant_hostMem (id : U32) (f : Tenant → Tenant) : (setTenant s id f).hostMem = s.hostMem := by unfold setTenant; split <;> rfl
@[simp] theorem setTenant_hostRefuse (id : U32) (f : Tenant → Tenant) : (setTenant s id f).hostRefuse = s.hostRefuse := by unfold setTenant; split <;> rfl
@[simp] theorem setTenant_busRead (id : U32) (f : Tenant → Tenant) : (setTenant s id f).busRead = s.busRead := by unfold setTenant; split <;> rfl
@[simp] theorem setTenant_splintIssued (id : U32) (f : Tenant → Tenant) : (setTenant s id f).splintIssued = s.splintIssued := by unfold setTenant; split <;> rfl
@[simp] theorem setTenant_splintBusyNs (id : U32) (f : Tenant → Tenant) : (setTenant s id f).splintBusyNs = s.splintBusyNs := by unfold setTenant; split <;> rfl
@[simp] theorem setTenant_dedupKeys (id : U32) (f : Tenant → Tenant) : (setTenant s id f).dedupKeys = s.dedupKeys := by unfold setTenant; split <;> rfl
@[simp] theorem setTenant_draws (id : U32) (f : Tenant → Tenant) : (setTenant s id f).draws = s.draws := by unfold setTenant; split <;> rfl
@[simp] theorem setTenant_choices (id : U32) (f : Tenant → Tenant) : (setTenant s id f).choices = s.choices := by unfold setTenant; split <;> rfl
@[simp] theorem setTenant_nextUid (id : U32) (f : Tenant → Tenant) : (setTenant s id f).nextUid = s.nextUid := by unfold setTenant; split <;> rfl

/-! ### setEngine -/

@[simp] theorem setEngine_pending (i : EngineInst) (f : Engine → Engine) : (setEngine s i f).pending = s.pending := rfl
@[simp] theorem setEngine_now (i : EngineInst) (f : Engine → Engine) : (setEngine s i f).now = s.now := rfl
@[simp] theorem setEngine_mstate (i : EngineInst) (f : Engine → Engine) : (setEngine s i f).mstate = s.mstate := rfl
@[simp] theorem setEngine_numVfs (i : EngineInst) (f : Engine → Engine) : (setEngine s i f).numVfs = s.numVfs := rfl
@[simp] theorem setEngine_boxes (i : EngineInst) (f : Engine → Engine) : (setEngine s i f).boxes = s.boxes := rfl
@[simp] theorem setEngine_sessions (i : EngineInst) (f : Engine → Engine) : (setEngine s i f).sessions = s.sessions := rfl
@[simp] theorem setEngine_generations (i : EngineInst) (f : Engine → Engine) : (setEngine s i f).generations = s.generations := rfl
@[simp] theorem setEngine_tenants (i : EngineInst) (f : Engine → Engine) : (setEngine s i f).tenants = s.tenants := rfl
@[simp] theorem setEngine_contexts (i : EngineInst) (f : Engine → Engine) : (setEngine s i f).contexts = s.contexts := rfl
@[simp] theorem setEngine_waitQueue (i : EngineInst) (f : Engine → Engine) : (setEngine s i f).waitQueue = s.waitQueue := rfl
@[simp] theorem setEngine_lists (i : EngineInst) (f : Engine → Engine) : (setEngine s i f).lists = s.lists := rfl
@[simp] theorem setEngine_progress (i : EngineInst) (f : Engine → Engine) : (setEngine s i f).progress = s.progress := rfl
@[simp] theorem setEngine_delays (i : EngineInst) (f : Engine → Engine) : (setEngine s i f).delays = s.delays := rfl
@[simp] theorem setEngine_delayWaits (i : EngineInst) (f : Engine → Engine) : (setEngine s i f).delayWaits = s.delayWaits := rfl
@[simp] theorem setEngine_jobs (i : EngineInst) (f : Engine → Engine) : (setEngine s i f).jobs = s.jobs := rfl
@[simp] theorem setEngine_cores (i : EngineInst) (f : Engine → Engine) : (setEngine s i f).cores = s.cores := rfl
@[simp] theorem setEngine_requests (i : EngineInst) (f : Engine → Engine) : (setEngine s i f).requests = s.requests := rfl
@[simp] theorem setEngine_remotePicks (i : EngineInst) (f : Engine → Engine) : (setEngine s i f).remotePicks = s.remotePicks := rfl
@[simp] theorem setEngine_remoteReqs (i : EngineInst) (f : Engine → Engine) : (setEngine s i f).remoteReqs = s.remoteReqs := rfl
@[simp] theorem setEngine_heldLookups (i : EngineInst) (f : Engine → Engine) : (setEngine s i f).heldLookups = s.heldLookups := rfl
@[simp] theorem setEngine_weave (i : EngineInst) (f : Engine → Engine) : (setEngine s i f).weave = s.weave := rfl
@[simp] theorem setEngine_hbm (i : EngineInst) (f : Engine → Engine) : (setEngine s i f).hbm = s.hbm := rfl
@[simp] theorem setEngine_tier (i : EngineInst) (f : Engine → Engine) : (setEngine s i f).tier = s.tier := rfl
@[simp] theorem setEngine_fabric (i : EngineInst) (f : Engine → Engine) : (setEngine s i f).fabric = s.fabric := rfl
@[simp] theorem setEngine_faults (i : EngineInst) (f : Engine → Engine) : (setEngine s i f).faults = s.faults := rfl
@[simp] theorem setEngine_lead (i : EngineInst) (f : Engine → Engine) : (setEngine s i f).lead = s.lead := rfl
@[simp] theorem setEngine_fw (i : EngineInst) (f : Engine → Engine) : (setEngine s i f).fw = s.fw := rfl
@[simp] theorem setEngine_power (i : EngineInst) (f : Engine → Engine) : (setEngine s i f).power = s.power := rfl
@[simp] theorem setEngine_tel (i : EngineInst) (f : Engine → Engine) : (setEngine s i f).tel = s.tel := rfl
@[simp] theorem setEngine_mgmt (i : EngineInst) (f : Engine → Engine) : (setEngine s i f).mgmt = s.mgmt := rfl
@[simp] theorem setEngine_mem (i : EngineInst) (f : Engine → Engine) : (setEngine s i f).mem = s.mem := rfl
@[simp] theorem setEngine_hostMem (i : EngineInst) (f : Engine → Engine) : (setEngine s i f).hostMem = s.hostMem := rfl
@[simp] theorem setEngine_hostRefuse (i : EngineInst) (f : Engine → Engine) : (setEngine s i f).hostRefuse = s.hostRefuse := rfl
@[simp] theorem setEngine_busRead (i : EngineInst) (f : Engine → Engine) : (setEngine s i f).busRead = s.busRead := rfl
@[simp] theorem setEngine_splintIssued (i : EngineInst) (f : Engine → Engine) : (setEngine s i f).splintIssued = s.splintIssued := rfl
@[simp] theorem setEngine_splintBusyNs (i : EngineInst) (f : Engine → Engine) : (setEngine s i f).splintBusyNs = s.splintBusyNs := rfl
@[simp] theorem setEngine_dedupKeys (i : EngineInst) (f : Engine → Engine) : (setEngine s i f).dedupKeys = s.dedupKeys := rfl
@[simp] theorem setEngine_draws (i : EngineInst) (f : Engine → Engine) : (setEngine s i f).draws = s.draws := rfl
@[simp] theorem setEngine_choices (i : EngineInst) (f : Engine → Engine) : (setEngine s i f).choices = s.choices := rfl
@[simp] theorem setEngine_nextUid (i : EngineInst) (f : Engine → Engine) : (setEngine s i f).nextUid = s.nextUid := rfl

/-! ### setList -/

@[simp] theorem setList_pending (uid : Nat) (f : CmdList → CmdList) : (setList s uid f).pending = s.pending := rfl
@[simp] theorem setList_now (uid : Nat) (f : CmdList → CmdList) : (setList s uid f).now = s.now := rfl
@[simp] theorem setList_mstate (uid : Nat) (f : CmdList → CmdList) : (setList s uid f).mstate = s.mstate := rfl
@[simp] theorem setList_numVfs (uid : Nat) (f : CmdList → CmdList) : (setList s uid f).numVfs = s.numVfs := rfl
@[simp] theorem setList_boxes (uid : Nat) (f : CmdList → CmdList) : (setList s uid f).boxes = s.boxes := rfl
@[simp] theorem setList_sessions (uid : Nat) (f : CmdList → CmdList) : (setList s uid f).sessions = s.sessions := rfl
@[simp] theorem setList_generations (uid : Nat) (f : CmdList → CmdList) : (setList s uid f).generations = s.generations := rfl
@[simp] theorem setList_tenants (uid : Nat) (f : CmdList → CmdList) : (setList s uid f).tenants = s.tenants := rfl
@[simp] theorem setList_contexts (uid : Nat) (f : CmdList → CmdList) : (setList s uid f).contexts = s.contexts := rfl
@[simp] theorem setList_waitQueue (uid : Nat) (f : CmdList → CmdList) : (setList s uid f).waitQueue = s.waitQueue := rfl
@[simp] theorem setList_engines (uid : Nat) (f : CmdList → CmdList) : (setList s uid f).engines = s.engines := rfl
@[simp] theorem setList_progress (uid : Nat) (f : CmdList → CmdList) : (setList s uid f).progress = s.progress := rfl
@[simp] theorem setList_delays (uid : Nat) (f : CmdList → CmdList) : (setList s uid f).delays = s.delays := rfl
@[simp] theorem setList_delayWaits (uid : Nat) (f : CmdList → CmdList) : (setList s uid f).delayWaits = s.delayWaits := rfl
@[simp] theorem setList_jobs (uid : Nat) (f : CmdList → CmdList) : (setList s uid f).jobs = s.jobs := rfl
@[simp] theorem setList_cores (uid : Nat) (f : CmdList → CmdList) : (setList s uid f).cores = s.cores := rfl
@[simp] theorem setList_requests (uid : Nat) (f : CmdList → CmdList) : (setList s uid f).requests = s.requests := rfl
@[simp] theorem setList_remotePicks (uid : Nat) (f : CmdList → CmdList) : (setList s uid f).remotePicks = s.remotePicks := rfl
@[simp] theorem setList_remoteReqs (uid : Nat) (f : CmdList → CmdList) : (setList s uid f).remoteReqs = s.remoteReqs := rfl
@[simp] theorem setList_heldLookups (uid : Nat) (f : CmdList → CmdList) : (setList s uid f).heldLookups = s.heldLookups := rfl
@[simp] theorem setList_weave (uid : Nat) (f : CmdList → CmdList) : (setList s uid f).weave = s.weave := rfl
@[simp] theorem setList_hbm (uid : Nat) (f : CmdList → CmdList) : (setList s uid f).hbm = s.hbm := rfl
@[simp] theorem setList_tier (uid : Nat) (f : CmdList → CmdList) : (setList s uid f).tier = s.tier := rfl
@[simp] theorem setList_fabric (uid : Nat) (f : CmdList → CmdList) : (setList s uid f).fabric = s.fabric := rfl
@[simp] theorem setList_faults (uid : Nat) (f : CmdList → CmdList) : (setList s uid f).faults = s.faults := rfl
@[simp] theorem setList_lead (uid : Nat) (f : CmdList → CmdList) : (setList s uid f).lead = s.lead := rfl
@[simp] theorem setList_fw (uid : Nat) (f : CmdList → CmdList) : (setList s uid f).fw = s.fw := rfl
@[simp] theorem setList_power (uid : Nat) (f : CmdList → CmdList) : (setList s uid f).power = s.power := rfl
@[simp] theorem setList_tel (uid : Nat) (f : CmdList → CmdList) : (setList s uid f).tel = s.tel := rfl
@[simp] theorem setList_mgmt (uid : Nat) (f : CmdList → CmdList) : (setList s uid f).mgmt = s.mgmt := rfl
@[simp] theorem setList_mem (uid : Nat) (f : CmdList → CmdList) : (setList s uid f).mem = s.mem := rfl
@[simp] theorem setList_hostMem (uid : Nat) (f : CmdList → CmdList) : (setList s uid f).hostMem = s.hostMem := rfl
@[simp] theorem setList_hostRefuse (uid : Nat) (f : CmdList → CmdList) : (setList s uid f).hostRefuse = s.hostRefuse := rfl
@[simp] theorem setList_busRead (uid : Nat) (f : CmdList → CmdList) : (setList s uid f).busRead = s.busRead := rfl
@[simp] theorem setList_splintIssued (uid : Nat) (f : CmdList → CmdList) : (setList s uid f).splintIssued = s.splintIssued := rfl
@[simp] theorem setList_splintBusyNs (uid : Nat) (f : CmdList → CmdList) : (setList s uid f).splintBusyNs = s.splintBusyNs := rfl
@[simp] theorem setList_dedupKeys (uid : Nat) (f : CmdList → CmdList) : (setList s uid f).dedupKeys = s.dedupKeys := rfl
@[simp] theorem setList_draws (uid : Nat) (f : CmdList → CmdList) : (setList s uid f).draws = s.draws := rfl
@[simp] theorem setList_choices (uid : Nat) (f : CmdList → CmdList) : (setList s uid f).choices = s.choices := rfl
@[simp] theorem setList_nextUid (uid : Nat) (f : CmdList → CmdList) : (setList s uid f).nextUid = s.nextUid := rfl

/-! ### setProgress -/

@[simp] theorem setProgress_pending (r : CmdRef) (f : Progress → Progress) : (setProgress s r f).pending = s.pending := rfl
@[simp] theorem setProgress_now (r : CmdRef) (f : Progress → Progress) : (setProgress s r f).now = s.now := rfl
@[simp] theorem setProgress_mstate (r : CmdRef) (f : Progress → Progress) : (setProgress s r f).mstate = s.mstate := rfl
@[simp] theorem setProgress_numVfs (r : CmdRef) (f : Progress → Progress) : (setProgress s r f).numVfs = s.numVfs := rfl
@[simp] theorem setProgress_boxes (r : CmdRef) (f : Progress → Progress) : (setProgress s r f).boxes = s.boxes := rfl
@[simp] theorem setProgress_sessions (r : CmdRef) (f : Progress → Progress) : (setProgress s r f).sessions = s.sessions := rfl
@[simp] theorem setProgress_generations (r : CmdRef) (f : Progress → Progress) : (setProgress s r f).generations = s.generations := rfl
@[simp] theorem setProgress_tenants (r : CmdRef) (f : Progress → Progress) : (setProgress s r f).tenants = s.tenants := rfl
@[simp] theorem setProgress_contexts (r : CmdRef) (f : Progress → Progress) : (setProgress s r f).contexts = s.contexts := rfl
@[simp] theorem setProgress_waitQueue (r : CmdRef) (f : Progress → Progress) : (setProgress s r f).waitQueue = s.waitQueue := rfl
@[simp] theorem setProgress_lists (r : CmdRef) (f : Progress → Progress) : (setProgress s r f).lists = s.lists := rfl
@[simp] theorem setProgress_engines (r : CmdRef) (f : Progress → Progress) : (setProgress s r f).engines = s.engines := rfl
@[simp] theorem setProgress_delays (r : CmdRef) (f : Progress → Progress) : (setProgress s r f).delays = s.delays := rfl
@[simp] theorem setProgress_delayWaits (r : CmdRef) (f : Progress → Progress) : (setProgress s r f).delayWaits = s.delayWaits := rfl
@[simp] theorem setProgress_jobs (r : CmdRef) (f : Progress → Progress) : (setProgress s r f).jobs = s.jobs := rfl
@[simp] theorem setProgress_cores (r : CmdRef) (f : Progress → Progress) : (setProgress s r f).cores = s.cores := rfl
@[simp] theorem setProgress_requests (r : CmdRef) (f : Progress → Progress) : (setProgress s r f).requests = s.requests := rfl
@[simp] theorem setProgress_remotePicks (r : CmdRef) (f : Progress → Progress) : (setProgress s r f).remotePicks = s.remotePicks := rfl
@[simp] theorem setProgress_remoteReqs (r : CmdRef) (f : Progress → Progress) : (setProgress s r f).remoteReqs = s.remoteReqs := rfl
@[simp] theorem setProgress_heldLookups (r : CmdRef) (f : Progress → Progress) : (setProgress s r f).heldLookups = s.heldLookups := rfl
@[simp] theorem setProgress_weave (r : CmdRef) (f : Progress → Progress) : (setProgress s r f).weave = s.weave := rfl
@[simp] theorem setProgress_hbm (r : CmdRef) (f : Progress → Progress) : (setProgress s r f).hbm = s.hbm := rfl
@[simp] theorem setProgress_tier (r : CmdRef) (f : Progress → Progress) : (setProgress s r f).tier = s.tier := rfl
@[simp] theorem setProgress_fabric (r : CmdRef) (f : Progress → Progress) : (setProgress s r f).fabric = s.fabric := rfl
@[simp] theorem setProgress_faults (r : CmdRef) (f : Progress → Progress) : (setProgress s r f).faults = s.faults := rfl
@[simp] theorem setProgress_lead (r : CmdRef) (f : Progress → Progress) : (setProgress s r f).lead = s.lead := rfl
@[simp] theorem setProgress_fw (r : CmdRef) (f : Progress → Progress) : (setProgress s r f).fw = s.fw := rfl
@[simp] theorem setProgress_power (r : CmdRef) (f : Progress → Progress) : (setProgress s r f).power = s.power := rfl
@[simp] theorem setProgress_tel (r : CmdRef) (f : Progress → Progress) : (setProgress s r f).tel = s.tel := rfl
@[simp] theorem setProgress_mgmt (r : CmdRef) (f : Progress → Progress) : (setProgress s r f).mgmt = s.mgmt := rfl
@[simp] theorem setProgress_mem (r : CmdRef) (f : Progress → Progress) : (setProgress s r f).mem = s.mem := rfl
@[simp] theorem setProgress_hostMem (r : CmdRef) (f : Progress → Progress) : (setProgress s r f).hostMem = s.hostMem := rfl
@[simp] theorem setProgress_hostRefuse (r : CmdRef) (f : Progress → Progress) : (setProgress s r f).hostRefuse = s.hostRefuse := rfl
@[simp] theorem setProgress_busRead (r : CmdRef) (f : Progress → Progress) : (setProgress s r f).busRead = s.busRead := rfl
@[simp] theorem setProgress_splintIssued (r : CmdRef) (f : Progress → Progress) : (setProgress s r f).splintIssued = s.splintIssued := rfl
@[simp] theorem setProgress_splintBusyNs (r : CmdRef) (f : Progress → Progress) : (setProgress s r f).splintBusyNs = s.splintBusyNs := rfl
@[simp] theorem setProgress_dedupKeys (r : CmdRef) (f : Progress → Progress) : (setProgress s r f).dedupKeys = s.dedupKeys := rfl
@[simp] theorem setProgress_draws (r : CmdRef) (f : Progress → Progress) : (setProgress s r f).draws = s.draws := rfl
@[simp] theorem setProgress_choices (r : CmdRef) (f : Progress → Progress) : (setProgress s r f).choices = s.choices := rfl
@[simp] theorem setProgress_nextUid (r : CmdRef) (f : Progress → Progress) : (setProgress s r f).nextUid = s.nextUid := rfl

/-! ### setPort -/

@[simp] theorem setPort_pending (n : Nat) (f : Port → Port) : (setPort s n f).pending = s.pending := rfl
@[simp] theorem setPort_now (n : Nat) (f : Port → Port) : (setPort s n f).now = s.now := rfl
@[simp] theorem setPort_mstate (n : Nat) (f : Port → Port) : (setPort s n f).mstate = s.mstate := rfl
@[simp] theorem setPort_numVfs (n : Nat) (f : Port → Port) : (setPort s n f).numVfs = s.numVfs := rfl
@[simp] theorem setPort_boxes (n : Nat) (f : Port → Port) : (setPort s n f).boxes = s.boxes := rfl
@[simp] theorem setPort_sessions (n : Nat) (f : Port → Port) : (setPort s n f).sessions = s.sessions := rfl
@[simp] theorem setPort_generations (n : Nat) (f : Port → Port) : (setPort s n f).generations = s.generations := rfl
@[simp] theorem setPort_tenants (n : Nat) (f : Port → Port) : (setPort s n f).tenants = s.tenants := rfl
@[simp] theorem setPort_contexts (n : Nat) (f : Port → Port) : (setPort s n f).contexts = s.contexts := rfl
@[simp] theorem setPort_waitQueue (n : Nat) (f : Port → Port) : (setPort s n f).waitQueue = s.waitQueue := rfl
@[simp] theorem setPort_lists (n : Nat) (f : Port → Port) : (setPort s n f).lists = s.lists := rfl
@[simp] theorem setPort_engines (n : Nat) (f : Port → Port) : (setPort s n f).engines = s.engines := rfl
@[simp] theorem setPort_progress (n : Nat) (f : Port → Port) : (setPort s n f).progress = s.progress := rfl
@[simp] theorem setPort_delays (n : Nat) (f : Port → Port) : (setPort s n f).delays = s.delays := rfl
@[simp] theorem setPort_delayWaits (n : Nat) (f : Port → Port) : (setPort s n f).delayWaits = s.delayWaits := rfl
@[simp] theorem setPort_jobs (n : Nat) (f : Port → Port) : (setPort s n f).jobs = s.jobs := rfl
@[simp] theorem setPort_cores (n : Nat) (f : Port → Port) : (setPort s n f).cores = s.cores := rfl
@[simp] theorem setPort_requests (n : Nat) (f : Port → Port) : (setPort s n f).requests = s.requests := rfl
@[simp] theorem setPort_remotePicks (n : Nat) (f : Port → Port) : (setPort s n f).remotePicks = s.remotePicks := rfl
@[simp] theorem setPort_remoteReqs (n : Nat) (f : Port → Port) : (setPort s n f).remoteReqs = s.remoteReqs := rfl
@[simp] theorem setPort_heldLookups (n : Nat) (f : Port → Port) : (setPort s n f).heldLookups = s.heldLookups := rfl
@[simp] theorem setPort_weave (n : Nat) (f : Port → Port) : (setPort s n f).weave = s.weave := rfl
@[simp] theorem setPort_hbm (n : Nat) (f : Port → Port) : (setPort s n f).hbm = s.hbm := rfl
@[simp] theorem setPort_tier (n : Nat) (f : Port → Port) : (setPort s n f).tier = s.tier := rfl
@[simp] theorem setPort_faults (n : Nat) (f : Port → Port) : (setPort s n f).faults = s.faults := rfl
@[simp] theorem setPort_lead (n : Nat) (f : Port → Port) : (setPort s n f).lead = s.lead := rfl
@[simp] theorem setPort_fw (n : Nat) (f : Port → Port) : (setPort s n f).fw = s.fw := rfl
@[simp] theorem setPort_power (n : Nat) (f : Port → Port) : (setPort s n f).power = s.power := rfl
@[simp] theorem setPort_tel (n : Nat) (f : Port → Port) : (setPort s n f).tel = s.tel := rfl
@[simp] theorem setPort_mgmt (n : Nat) (f : Port → Port) : (setPort s n f).mgmt = s.mgmt := rfl
@[simp] theorem setPort_mem (n : Nat) (f : Port → Port) : (setPort s n f).mem = s.mem := rfl
@[simp] theorem setPort_hostMem (n : Nat) (f : Port → Port) : (setPort s n f).hostMem = s.hostMem := rfl
@[simp] theorem setPort_hostRefuse (n : Nat) (f : Port → Port) : (setPort s n f).hostRefuse = s.hostRefuse := rfl
@[simp] theorem setPort_busRead (n : Nat) (f : Port → Port) : (setPort s n f).busRead = s.busRead := rfl
@[simp] theorem setPort_splintIssued (n : Nat) (f : Port → Port) : (setPort s n f).splintIssued = s.splintIssued := rfl
@[simp] theorem setPort_splintBusyNs (n : Nat) (f : Port → Port) : (setPort s n f).splintBusyNs = s.splintBusyNs := rfl
@[simp] theorem setPort_dedupKeys (n : Nat) (f : Port → Port) : (setPort s n f).dedupKeys = s.dedupKeys := rfl
@[simp] theorem setPort_draws (n : Nat) (f : Port → Port) : (setPort s n f).draws = s.draws := rfl
@[simp] theorem setPort_choices (n : Nat) (f : Port → Port) : (setPort s n f).choices = s.choices := rfl
@[simp] theorem setPort_nextUid (n : Nat) (f : Port → Port) : (setPort s n f).nextUid = s.nextUid := rfl

/-! ### addLog -/

@[simp] theorem addLog_pending (k v : Nat) (w : LogWhat) : (addLog s k v w).pending = s.pending := rfl
@[simp] theorem addLog_now (k v : Nat) (w : LogWhat) : (addLog s k v w).now = s.now := rfl
@[simp] theorem addLog_mstate (k v : Nat) (w : LogWhat) : (addLog s k v w).mstate = s.mstate := rfl
@[simp] theorem addLog_numVfs (k v : Nat) (w : LogWhat) : (addLog s k v w).numVfs = s.numVfs := rfl
@[simp] theorem addLog_boxes (k v : Nat) (w : LogWhat) : (addLog s k v w).boxes = s.boxes := rfl
@[simp] theorem addLog_sessions (k v : Nat) (w : LogWhat) : (addLog s k v w).sessions = s.sessions := rfl
@[simp] theorem addLog_generations (k v : Nat) (w : LogWhat) : (addLog s k v w).generations = s.generations := rfl
@[simp] theorem addLog_tenants (k v : Nat) (w : LogWhat) : (addLog s k v w).tenants = s.tenants := rfl
@[simp] theorem addLog_contexts (k v : Nat) (w : LogWhat) : (addLog s k v w).contexts = s.contexts := rfl
@[simp] theorem addLog_waitQueue (k v : Nat) (w : LogWhat) : (addLog s k v w).waitQueue = s.waitQueue := rfl
@[simp] theorem addLog_lists (k v : Nat) (w : LogWhat) : (addLog s k v w).lists = s.lists := rfl
@[simp] theorem addLog_engines (k v : Nat) (w : LogWhat) : (addLog s k v w).engines = s.engines := rfl
@[simp] theorem addLog_progress (k v : Nat) (w : LogWhat) : (addLog s k v w).progress = s.progress := rfl
@[simp] theorem addLog_delays (k v : Nat) (w : LogWhat) : (addLog s k v w).delays = s.delays := rfl
@[simp] theorem addLog_delayWaits (k v : Nat) (w : LogWhat) : (addLog s k v w).delayWaits = s.delayWaits := rfl
@[simp] theorem addLog_jobs (k v : Nat) (w : LogWhat) : (addLog s k v w).jobs = s.jobs := rfl
@[simp] theorem addLog_cores (k v : Nat) (w : LogWhat) : (addLog s k v w).cores = s.cores := rfl
@[simp] theorem addLog_requests (k v : Nat) (w : LogWhat) : (addLog s k v w).requests = s.requests := rfl
@[simp] theorem addLog_remotePicks (k v : Nat) (w : LogWhat) : (addLog s k v w).remotePicks = s.remotePicks := rfl
@[simp] theorem addLog_remoteReqs (k v : Nat) (w : LogWhat) : (addLog s k v w).remoteReqs = s.remoteReqs := rfl
@[simp] theorem addLog_heldLookups (k v : Nat) (w : LogWhat) : (addLog s k v w).heldLookups = s.heldLookups := rfl
@[simp] theorem addLog_weave (k v : Nat) (w : LogWhat) : (addLog s k v w).weave = s.weave := rfl
@[simp] theorem addLog_hbm (k v : Nat) (w : LogWhat) : (addLog s k v w).hbm = s.hbm := rfl
@[simp] theorem addLog_tier (k v : Nat) (w : LogWhat) : (addLog s k v w).tier = s.tier := rfl
@[simp] theorem addLog_fabric (k v : Nat) (w : LogWhat) : (addLog s k v w).fabric = s.fabric := rfl
@[simp] theorem addLog_lead (k v : Nat) (w : LogWhat) : (addLog s k v w).lead = s.lead := rfl
@[simp] theorem addLog_fw (k v : Nat) (w : LogWhat) : (addLog s k v w).fw = s.fw := rfl
@[simp] theorem addLog_power (k v : Nat) (w : LogWhat) : (addLog s k v w).power = s.power := rfl
@[simp] theorem addLog_tel (k v : Nat) (w : LogWhat) : (addLog s k v w).tel = s.tel := rfl
@[simp] theorem addLog_mgmt (k v : Nat) (w : LogWhat) : (addLog s k v w).mgmt = s.mgmt := rfl
@[simp] theorem addLog_mem (k v : Nat) (w : LogWhat) : (addLog s k v w).mem = s.mem := rfl
@[simp] theorem addLog_hostMem (k v : Nat) (w : LogWhat) : (addLog s k v w).hostMem = s.hostMem := rfl
@[simp] theorem addLog_hostRefuse (k v : Nat) (w : LogWhat) : (addLog s k v w).hostRefuse = s.hostRefuse := rfl
@[simp] theorem addLog_busRead (k v : Nat) (w : LogWhat) : (addLog s k v w).busRead = s.busRead := rfl
@[simp] theorem addLog_splintIssued (k v : Nat) (w : LogWhat) : (addLog s k v w).splintIssued = s.splintIssued := rfl
@[simp] theorem addLog_splintBusyNs (k v : Nat) (w : LogWhat) : (addLog s k v w).splintBusyNs = s.splintBusyNs := rfl
@[simp] theorem addLog_dedupKeys (k v : Nat) (w : LogWhat) : (addLog s k v w).dedupKeys = s.dedupKeys := rfl
@[simp] theorem addLog_draws (k v : Nat) (w : LogWhat) : (addLog s k v w).draws = s.draws := rfl
@[simp] theorem addLog_choices (k v : Nat) (w : LogWhat) : (addLog s k v w).choices = s.choices := rfl
@[simp] theorem addLog_nextUid (k v : Nat) (w : LogWhat) : (addLog s k v w).nextUid = s.nextUid := rfl

/-! ### takePacket -/

@[simp] theorem takePacket_pending (p : Packet) : (takePacket s p).pending = s.pending := rfl
@[simp] theorem takePacket_now (p : Packet) : (takePacket s p).now = s.now := rfl
@[simp] theorem takePacket_mstate (p : Packet) : (takePacket s p).mstate = s.mstate := rfl
@[simp] theorem takePacket_numVfs (p : Packet) : (takePacket s p).numVfs = s.numVfs := rfl
@[simp] theorem takePacket_boxes (p : Packet) : (takePacket s p).boxes = s.boxes := rfl
@[simp] theorem takePacket_sessions (p : Packet) : (takePacket s p).sessions = s.sessions := rfl
@[simp] theorem takePacket_generations (p : Packet) : (takePacket s p).generations = s.generations := rfl
@[simp] theorem takePacket_tenants (p : Packet) : (takePacket s p).tenants = s.tenants := rfl
@[simp] theorem takePacket_contexts (p : Packet) : (takePacket s p).contexts = s.contexts := rfl
@[simp] theorem takePacket_waitQueue (p : Packet) : (takePacket s p).waitQueue = s.waitQueue := rfl
@[simp] theorem takePacket_lists (p : Packet) : (takePacket s p).lists = s.lists := rfl
@[simp] theorem takePacket_engines (p : Packet) : (takePacket s p).engines = s.engines := rfl
@[simp] theorem takePacket_progress (p : Packet) : (takePacket s p).progress = s.progress := rfl
@[simp] theorem takePacket_delays (p : Packet) : (takePacket s p).delays = s.delays := rfl
@[simp] theorem takePacket_delayWaits (p : Packet) : (takePacket s p).delayWaits = s.delayWaits := rfl
@[simp] theorem takePacket_jobs (p : Packet) : (takePacket s p).jobs = s.jobs := rfl
@[simp] theorem takePacket_cores (p : Packet) : (takePacket s p).cores = s.cores := rfl
@[simp] theorem takePacket_requests (p : Packet) : (takePacket s p).requests = s.requests := rfl
@[simp] theorem takePacket_remotePicks (p : Packet) : (takePacket s p).remotePicks = s.remotePicks := rfl
@[simp] theorem takePacket_remoteReqs (p : Packet) : (takePacket s p).remoteReqs = s.remoteReqs := rfl
@[simp] theorem takePacket_heldLookups (p : Packet) : (takePacket s p).heldLookups = s.heldLookups := rfl
@[simp] theorem takePacket_weave (p : Packet) : (takePacket s p).weave = s.weave := rfl
@[simp] theorem takePacket_hbm (p : Packet) : (takePacket s p).hbm = s.hbm := rfl
@[simp] theorem takePacket_tier (p : Packet) : (takePacket s p).tier = s.tier := rfl
@[simp] theorem takePacket_faults (p : Packet) : (takePacket s p).faults = s.faults := rfl
@[simp] theorem takePacket_lead (p : Packet) : (takePacket s p).lead = s.lead := rfl
@[simp] theorem takePacket_fw (p : Packet) : (takePacket s p).fw = s.fw := rfl
@[simp] theorem takePacket_power (p : Packet) : (takePacket s p).power = s.power := rfl
@[simp] theorem takePacket_tel (p : Packet) : (takePacket s p).tel = s.tel := rfl
@[simp] theorem takePacket_mgmt (p : Packet) : (takePacket s p).mgmt = s.mgmt := rfl
@[simp] theorem takePacket_mem (p : Packet) : (takePacket s p).mem = s.mem := rfl
@[simp] theorem takePacket_hostMem (p : Packet) : (takePacket s p).hostMem = s.hostMem := rfl
@[simp] theorem takePacket_hostRefuse (p : Packet) : (takePacket s p).hostRefuse = s.hostRefuse := rfl
@[simp] theorem takePacket_busRead (p : Packet) : (takePacket s p).busRead = s.busRead := rfl
@[simp] theorem takePacket_splintIssued (p : Packet) : (takePacket s p).splintIssued = s.splintIssued := rfl
@[simp] theorem takePacket_splintBusyNs (p : Packet) : (takePacket s p).splintBusyNs = s.splintBusyNs := rfl
@[simp] theorem takePacket_dedupKeys (p : Packet) : (takePacket s p).dedupKeys = s.dedupKeys := rfl
@[simp] theorem takePacket_draws (p : Packet) : (takePacket s p).draws = s.draws := rfl
@[simp] theorem takePacket_choices (p : Packet) : (takePacket s p).choices = s.choices := rfl
@[simp] theorem takePacket_nextUid (p : Packet) : (takePacket s p).nextUid = s.nextUid := rfl

/-! ### keepPacket -/

@[simp] theorem keepPacket_pending (p : Packet) : (keepPacket s p).pending = s.pending := rfl
@[simp] theorem keepPacket_now (p : Packet) : (keepPacket s p).now = s.now := rfl
@[simp] theorem keepPacket_mstate (p : Packet) : (keepPacket s p).mstate = s.mstate := rfl
@[simp] theorem keepPacket_numVfs (p : Packet) : (keepPacket s p).numVfs = s.numVfs := rfl
@[simp] theorem keepPacket_boxes (p : Packet) : (keepPacket s p).boxes = s.boxes := rfl
@[simp] theorem keepPacket_sessions (p : Packet) : (keepPacket s p).sessions = s.sessions := rfl
@[simp] theorem keepPacket_generations (p : Packet) : (keepPacket s p).generations = s.generations := rfl
@[simp] theorem keepPacket_tenants (p : Packet) : (keepPacket s p).tenants = s.tenants := rfl
@[simp] theorem keepPacket_contexts (p : Packet) : (keepPacket s p).contexts = s.contexts := rfl
@[simp] theorem keepPacket_waitQueue (p : Packet) : (keepPacket s p).waitQueue = s.waitQueue := rfl
@[simp] theorem keepPacket_lists (p : Packet) : (keepPacket s p).lists = s.lists := rfl
@[simp] theorem keepPacket_engines (p : Packet) : (keepPacket s p).engines = s.engines := rfl
@[simp] theorem keepPacket_progress (p : Packet) : (keepPacket s p).progress = s.progress := rfl
@[simp] theorem keepPacket_delays (p : Packet) : (keepPacket s p).delays = s.delays := rfl
@[simp] theorem keepPacket_delayWaits (p : Packet) : (keepPacket s p).delayWaits = s.delayWaits := rfl
@[simp] theorem keepPacket_jobs (p : Packet) : (keepPacket s p).jobs = s.jobs := rfl
@[simp] theorem keepPacket_cores (p : Packet) : (keepPacket s p).cores = s.cores := rfl
@[simp] theorem keepPacket_requests (p : Packet) : (keepPacket s p).requests = s.requests := rfl
@[simp] theorem keepPacket_remotePicks (p : Packet) : (keepPacket s p).remotePicks = s.remotePicks := rfl
@[simp] theorem keepPacket_remoteReqs (p : Packet) : (keepPacket s p).remoteReqs = s.remoteReqs := rfl
@[simp] theorem keepPacket_heldLookups (p : Packet) : (keepPacket s p).heldLookups = s.heldLookups := rfl
@[simp] theorem keepPacket_weave (p : Packet) : (keepPacket s p).weave = s.weave := rfl
@[simp] theorem keepPacket_hbm (p : Packet) : (keepPacket s p).hbm = s.hbm := rfl
@[simp] theorem keepPacket_tier (p : Packet) : (keepPacket s p).tier = s.tier := rfl
@[simp] theorem keepPacket_faults (p : Packet) : (keepPacket s p).faults = s.faults := rfl
@[simp] theorem keepPacket_lead (p : Packet) : (keepPacket s p).lead = s.lead := rfl
@[simp] theorem keepPacket_fw (p : Packet) : (keepPacket s p).fw = s.fw := rfl
@[simp] theorem keepPacket_power (p : Packet) : (keepPacket s p).power = s.power := rfl
@[simp] theorem keepPacket_tel (p : Packet) : (keepPacket s p).tel = s.tel := rfl
@[simp] theorem keepPacket_mgmt (p : Packet) : (keepPacket s p).mgmt = s.mgmt := rfl
@[simp] theorem keepPacket_mem (p : Packet) : (keepPacket s p).mem = s.mem := rfl
@[simp] theorem keepPacket_hostMem (p : Packet) : (keepPacket s p).hostMem = s.hostMem := rfl
@[simp] theorem keepPacket_hostRefuse (p : Packet) : (keepPacket s p).hostRefuse = s.hostRefuse := rfl
@[simp] theorem keepPacket_busRead (p : Packet) : (keepPacket s p).busRead = s.busRead := rfl
@[simp] theorem keepPacket_splintIssued (p : Packet) : (keepPacket s p).splintIssued = s.splintIssued := rfl
@[simp] theorem keepPacket_splintBusyNs (p : Packet) : (keepPacket s p).splintBusyNs = s.splintBusyNs := rfl
@[simp] theorem keepPacket_dedupKeys (p : Packet) : (keepPacket s p).dedupKeys = s.dedupKeys := rfl
@[simp] theorem keepPacket_draws (p : Packet) : (keepPacket s p).draws = s.draws := rfl
@[simp] theorem keepPacket_choices (p : Packet) : (keepPacket s p).choices = s.choices := rfl
@[simp] theorem keepPacket_nextUid (p : Packet) : (keepPacket s p).nextUid = s.nextUid := rfl

end Sys2Proof.Machine
end

