-- ==== Sys2Proof/Laws/Commands.lean ====
section
/-! SUPPORT. What the shared operations do: when a row runs its command, packet or instance, and what a completion may change. -/

namespace Sys2Proof.Machine

/-! ### Rows of commands -/

theorem withCommand_acts {s : State} {fn : Nat} {tag : U16} {o : Outstanding} {sel : Submission → Bool} (f : State → Outstanding → State)
    (h : ActsOn s fn tag o) (hs : sel o.sub = true) : withCommand s fn tag sel f = f s o := by
  obtain ⟨h1, h2, h3, h4⟩ := h
  simp [withCommand, h1, hs, h2, h3, h4]

/-- A row of a command runs it, or changes nothing. -/
theorem withCommand_cases (s : State) (fn : Nat) (tag : U16) (sel : Submission → Bool) (f : State → Outstanding → State) :
    withCommand s fn tag sel f = s ∨ ∃ o, ActsOn s fn tag o ∧ sel o.sub = true ∧ withCommand s fn tag sel f = f s o := by
  unfold withCommand
  split
  · exact .inl rfl
  · rename_i o ho
    split
    · rename_i h
      simp only [Bool.and_eq_true, Bool.not_eq_true'] at h
      exact .inr ⟨o, ⟨ho, h.1.1.2, h.1.2, h.2⟩, h.1.1.1, rfl⟩
    · exact .inl rfl

theorem withOwnCtx_acts {s : State} {fn : Nat} {tag : U16} {o : Outstanding} {op : Byte} {c : Context} (f : Context → State)
    (h : ActsFor s fn tag op o c) : withOwnCtx s fn tag o f = f c := by
  simp [withOwnCtx, h.2.2]

/-- A row of a session's command, for a command it acts on. -/
theorem withCommand_for {s : State} {fn : Nat} {tag : U16} {o : Outstanding} {op : Byte} {c : Context} (f : State → Outstanding → State)
    (h : ActsFor s fn tag op o c) : withCommand s fn tag (isOp op) f = f s o :=
  withCommand_acts f h.1 (by simp [isOp, h.2.1])

/-! ### Rows of engine instances -/

theorem withRunning_runs {s : State} {inst : EngineInst} {sel : BitVec 512 → Bool} {r : Running} {c : Context}
    (f : State → Context → Running → Except CmdErr State) (h : Runs s inst sel r c) :
    withRunning s inst sel f = match f s c r with | .error e => faultCommand s r.ref e | .ok t => armWaits t := by
  obtain ⟨h1, h2, h3⟩ := h
  have hf : ∀ x, fencedOr s inst x = x := by
    intro x
    unfold fencedOr
    split
    · rename_i u hu; simp [(h3 rfl).1, (h3 rfl).2] at hu
    · rfl
  simp only [withRunning, h1, h2, hf]
  all_goals (cases f s c r <;> rfl)

/-- A row of an instance changes nothing, faults its command, or does its work and lets waits fire. -/
theorem withRunning_cases (s : State) (inst : EngineInst) (sel : BitVec 512 → Bool) (f : State → Context → Running → Except CmdErr State) :
    withRunning s inst sel f = s ∨ (∃ r e, withRunning s inst sel f = faultCommand s r e) ∨
      ∃ r c t, findCtx s r.sess = some c ∧ f s c r = .ok t ∧ withRunning s inst sel f = armWaits t := by
  unfold withRunning
  split
  · exact .inl rfl
  · rename_i r _
    split
    · exact .inl rfl
    · rename_i c hc
      split
      · exact .inr (.inl ⟨_, _, rfl⟩)
      · rename_i t ht
        refine .inr (.inr ⟨r, c, t, hc, ?_, rfl⟩)
        unfold fencedOr at ht
        split at ht
        · cases ht
        · exact ht

/-! ### Rows of packets -/

theorem withPacket_arrives {s : State} {p : Packet} {type : Nat} {c : Context} {g : Group} (f : State → Context → Group → State)
    (h : Arrives s p type c g) : withPacket s p type f = f (takePacket s p) c g := by
  obtain ⟨h1, h2, h3, h4⟩ := h
  simp [withPacket, h1, h2, h3, h4]

theorem withResident_wakes {s : State} {p : Packet} {c : Context} {t : State} {c' : Context} (f : State → Context → State)
    (h : Wakes s p c t c') : withResident (takePacket s p) p c f = f t c' := by
  obtain ⟨h1, h2⟩ := h
  simp [withResident, h1, h2]

theorem withFlood_floods {s : State} {p : Packet} {type : Nat} {t : State} {c : Context} {g : Group} {axis : Nat}
    (f : State → Context → Group → Nat → State) (h : Floods s p type t c g axis) : withFlood s p type f = f t c g axis := by
  obtain ⟨h1, h2, h3, rfl, h5, h6, neg, n, h7⟩ := h
  simp only [withFlood, h1, h2, ne_eq, not_true_eq_false, or_self, if_false, takePacket_faults, h3, h5, h7, h6, if_true]

/-! ### Finding what was set -/

theorem mapIf_find {α : Type} (p : α → Bool) (f : α → α) (keeps : ∀ x, p x = true → p (f x) = true) :
    ∀ l : List α, (mapIf p f l).find? p = (l.find? p).map f
  | [] => rfl
  | x :: t => by
    by_cases h : p x = true
    · simp [mapIf, h, keeps x h]
    · have ih := mapIf_find p f keeps t
      simp [mapIf, h] at ih ⊢
      exact ih

theorem findBox_setBox {s : State} {fn : Nat} {f : Mailbox → Mailbox} (keeps : ∀ b, (f b).fn = b.fn) :
    findBox (setBox s fn f) fn = (findBox s fn).map f :=
  mapIf_find _ f (by intro b hb; simpa [keeps] using hb) s.boxes

theorem findCtx_setCtx {s : State} {sess : U32} {f : Context → Context} (keeps : ∀ c, (f c).sess = c.sess) :
    findCtx (setCtx s sess f) sess = (findCtx s sess).map f :=
  mapIf_find _ f (by intro c hc; simpa [keeps] using hc) s.contexts

/-! ### Completions -/

/-- Writing a completion changes the host's memory only. -/
theorem putCompletion_frame (s : State) (b : Mailbox) (c : Completion) :
    ∃ m, (putCompletion s b c).1 = { s with hostMem := m } := by
  unfold putCompletion
  split
  · exact ⟨s.hostMem, rfl⟩
  · unfold hostWrite
    split
    · exact ⟨s.hostMem, rfl⟩
    · rename_i h
      split at h
      · cases h
      · cases h; exact ⟨_, rfl⟩

theorem flushHeld_frame : ∀ (l : List Completion) (s : State) (b : Mailbox),
    ∃ m, (flushHeld s b l).1 = { s with hostMem := m }
  | [], s, _ => ⟨s.hostMem, rfl⟩
  | c :: t, s, b => by
    obtain ⟨m, h⟩ := putCompletion_frame s b c
    unfold flushHeld
    split
    · rename_i s' b' e
      rw [e] at h
      obtain ⟨m', ih⟩ := flushHeld_frame t s' b'
      exact ⟨m', by rw [ih, show s' = _ from h]⟩
    · rename_i s' b' e
      rw [e] at h
      exact ⟨m, h⟩

/-- Writing what is held changes the mailboxes and the host's memory only. -/
theorem flush_frame (s : State) (fn : Nat) : ∃ bs m, flush s fn = { s with boxes := bs, hostMem := m } := by
  unfold flush
  split
  · exact ⟨s.boxes, s.hostMem, rfl⟩
  · rename_i b _
    obtain ⟨m, h⟩ := flushHeld_frame b.held s b
    generalize flushHeld s b b.held = r at h ⊢
    obtain ⟨t, b'⟩ := r
    subst h
    exact ⟨_, m, rfl⟩

theorem post_frame (s : State) (fn : Nat) (c : Completion) : ∃ bs m, post s fn c = { s with boxes := bs, hostMem := m } := by
  obtain ⟨bs, m, h⟩ := flush_frame (setBox s fn fun b => { b with held := b.held ++ [c] }) fn
  exact ⟨bs, m, by unfold post; rw [h]; rfl⟩

/-- An interim completion changes the mailboxes and the host's memory only. -/
theorem interim_frame (s : State) (fn : Nat) (tag : U16) (r : Byte) (d : Nat) :
    ∃ bs m, interim s fn tag r d = { s with boxes := bs, hostMem := m } := by
  unfold interim
  split
  · exact ⟨s.boxes, s.hostMem, rfl⟩
  · split
    · exact ⟨s.boxes, s.hostMem, rfl⟩
    · generalize Status.toCompletion _ _ _ _ = c
      generalize hb : setBox s fn _ = s1
      obtain ⟨bs, m, h⟩ := post_frame s1 fn c
      exact ⟨bs, m, by rw [h, ← hb]; rfl⟩

/-- A completion changes the mailboxes, the host's memory and its session's last use only. -/
theorem complete_frame (s : State) (fn : Nat) (tag : U16) (st : Status) :
    ∃ bs m ss, complete s fn tag st = { s with boxes := bs, hostMem := m, sessions := ss } := by
  unfold complete
  split
  · exact ⟨s.boxes, s.hostMem, s.sessions, rfl⟩
  · rename_i o _
    generalize Status.toCompletion _ _ _ _ = c
    generalize hb : setBox s fn _ = s1
    obtain ⟨bs, m, h⟩ := post_frame s1 fn c
    simp only [touchSession]
    rw [h, ← hb]
    exact ⟨bs, m, _, rfl⟩

theorem putCompletion_wf {s : State} (b : Mailbox) (c : Completion) (h : Memory.wf s.hostMem = true) :
    Memory.wf (putCompletion s b c).1.hostMem = true := by
  unfold putCompletion
  split
  · exact h
  · unfold hostWrite
    split
    · exact h
    · rename_i e
      split at e
      · cases e
      · cases e; dsimp only; exact writeCells_wf _ _ h

theorem flushHeld_wf : ∀ (l : List Completion) (s : State) (b : Mailbox), Memory.wf s.hostMem = true →
    Memory.wf (flushHeld s b l).1.hostMem = true
  | [], _, _, h => h
  | c :: t, s, b, h => by
    have hp := putCompletion_wf b c h
    unfold flushHeld
    split
    · rename_i s' b' e
      rw [e] at hp
      exact flushHeld_wf t s' b' hp
    · rename_i s' b' e
      rw [e] at hp
      exact hp

/-- Writing what is held keeps the state sound. -/
theorem flush_sound {s : State} (fn : Nat) (h : Sound s) : Sound (flush s fn) := by
  unfold flush
  split
  · exact h
  · rename_i b _
    have hw := flushHeld_wf b.held s b h.2
    obtain ⟨m, hf⟩ := flushHeld_frame b.held s b
    generalize flushHeld s b b.held = r at hw hf ⊢
    obtain ⟨t, b'⟩ := r
    exact ⟨by subst hf; exact h.1, hw⟩

theorem post_sound {s : State} (fn : Nat) (c : Completion) (h : Sound s) : Sound (post s fn c) :=
  flush_sound fn (s := setBox s fn _) ⟨h.1, h.2⟩

/-- A completion keeps the state sound. -/
theorem complete_sound {s : State} (fn : Nat) (tag : U16) (st : Status) (h : Sound s) : Sound (complete s fn tag st) := by
  unfold complete
  split
  · exact h
  · generalize Status.toCompletion _ _ _ _ = c
    exact post_sound fn c (s := setBox s fn _) ⟨h.1, h.2⟩

end Sys2Proof.Machine
end

