-- ==== Sys2Proof/Tests/Slice0.lean ====
section
/-! SUPPORT. The model's own tests: ill-formed commands, values of the spec, and states that meet the hypotheses of the statements. -/

namespace Sys2Proof.Tests

set_option Elab.async false

open Sys2Proof.Machine

/-! ### States that the tests share -/

/-- A submission of a session, with its opcode and first four operands. -/
def sub (op : Byte) (p0 p1 p2 p3 : U64 := 0) : Submission :=
  { opcode := op, flags := 0, tag := 7, session := 0x1000, epoch := 1, p0 := p0, p1 := p1, p2 := p2, p3 := p3, p4 := 0, p5 := 0 }

/-- The same from the operator, without a session. -/
def subOp (op : Byte) (p0 p1 p2 p3 : U64 := 0) : Submission := { sub op p0 p1 p2 p3 with session := 0 }

/-- A command as the module has read it, not yet acted on. -/
def out (u : Submission) : Outstanding := { sub := u, readAt := 0, interim := false, held := false, started := false, order := 5 }

def sess : Session := { id := 0x1000, fn := 0, tenant := 1, isOpen := true, nonce := [], openedAt := 0, idleTimeout := 300, lastActive := 0 }

/-- A resident context of tenant 1 with 1 MiB of striped memory at 0x10000. -/
def ctx : Context :=
  { sess := 0x1000, tenant := 1, fn := 0, slot := some 0, residentAt := 0, activeAt := 0, plaitKey := 5, bases := List.replicate 32 0,
    allocs := [{ base := 0x10000, size := 0x100000, page := 0x10000, backing := .striped, rd := true, wr := true, phys := 0, use := .plain }] }

/-- PF0's mailbox, enabled, with rings of 64 entries in host memory. -/
def box : Mailbox := { Mailbox.fresh 0 with enable := true, sqBase := 0x100000, cqBase := 0x200000 }

/-- A module that is READY, with one session and its context. -/
def rdy : State :=
  { State.reset with
    mstate := .ready, now := 10 ^ 12, boxes := [box], sessions := [sess], contexts := [ctx]
    hbm := { keyA := (List.range 9).map (fun i => 1 <<< i), pcs := (List.range 512).map fun n => { num := n }
             stackList := (List.range 8).map fun n => { num := n } }
    tier := { channels := (List.range 32).map fun n => { num := n, diesLive := 12, state := 0, eraseMean := 0, eraseSpread := 0 } }
    power := { auxPresent := true, inputMv := 48000, charged := true, railsOn := true, pcieUp := true, upsettStep := 10 } }

/-- The same with one command outstanding on PF0. -/
def wait (s : State) (o : Outstanding) : State := { s with boxes := [{ box with outstanding := [o] }] }

def cmd (u : Submission) : State := wait rdy (out u)

/-- The outcome of a computation that ends well. -/
def good {ε α : Type} (x : Except ε α) : Bool := match x with | .ok _ => true | .error _ => false

theorem good_ok {ε α : Type} {x : Except ε α} (h : good x = true) : ∃ a, x = .ok a := by
  cases x with
  | ok a => exact ⟨a, rfl⟩
  | error e => cases h

theorem good_error {ε α : Type} {x : Except ε α} (h : good x = false) : ∃ e, x = .error e := by
  cases x with
  | ok a => cases h
  | error e => exact ⟨e, rfl⟩

/-- A computation ends well with a value. -/
def gives {ε α : Type} [DecidableEq α] (x : Except ε α) (a : α) : Bool := match x with | .ok b => decide (b = a) | .error _ => false

theorem gives_eq {ε α : Type} [DecidableEq α] {x : Except ε α} {a : α} (h : gives x a = true) : x = .ok a := by
  cases x with
  | ok b => simp only [gives, decide_eq_true_eq] at h; rw [h]
  | error e => cases h

theorem isSome_some {α : Type} {x : Option α} (h : x.isSome = true) : ∃ a, x = some a := Option.isSome_iff_exists.mp h

/-- A command word: its opcode, both halves, and payload fields by byte offset. -/
def word (op : Nat) (fs : List (Nat × Nat)) : BitVec 512 :=
  BitVec.ofNat 512 (fs.foldl (fun a f => a + f.2 <<< (8 * f.1)) (op + 3 * 65536))

/-- A stream descriptor of one dimension: its base, format, count and stride. -/
def vec (base fmt n stride : Nat) : BitVec 512 := BitVec.ofNat 512 (base + fmt <<< 48 + 1 <<< 52 + n <<< 64 + stride <<< 192)

/-- A stream descriptor of two dimensions: rows of n elements. -/
def mat (base fmt n rows step rowStep tile0 tile1 : Nat) : BitVec 512 :=
  BitVec.ofNat 512 (base + fmt <<< 48 + 2 <<< 52 + n <<< 64 + rows <<< 88 + step <<< 192 + rowStep <<< 232 + tile0 <<< 392 + tile1 <<< 400)

def prog (w : BitVec 512) : Progress :=
  { ref := ⟨1, 0, 0⟩, sess := 0x1000, word := w, halves := 3, units := [], signalled := 0, westDone := false, eastDone := false, plaitKey := 0,
    bases := List.replicate 32 0 }

def task : Task :=
  { engine := 3, halves := 3, count := 1, offset := 128, nextWest := 0, nextEast := 0, doneWest := [], doneEast := [], waitSince := none, timedOut := false }

/-- A list of the session, admitted, with one task of Rim. -/
def lst : CmdList :=
  { uid := 1, fn := 0, tag := 9, sess := 0x1000, base := 0x10000, bytes := 192, status := 0, prio := 3, order := 2, readAt := 0, admitted := true,
    tasks := [task], started := false, preemptions := 0, preempted := false, times := [0, 0, 0, 0, 0, 0, 0], ended := none }

def going (w : BitVec 512) (descs : List (Nat × BitVec 512)) : Running :=
  { ref := ⟨1, 0, 0⟩, sess := 0x1000, word := w, descs := descs, firedAt := 0, started := false }

/-- A module with a command in progress on an instance. -/
def onInst (s : State) (inst : EngineInst) (r : Running) : State :=
  { setEngine s inst (fun e => { e with running := [r], idle := false }) with lists := [lst], progress := [prog r.word] }

theorem runs_on {s : State} {c : Context} (inst : EngineInst) (sel : BitVec 512 → Bool) (r : Running) (he : s.engines = Engine.all)
    (hf : s.faults = {}) (hc : findCtx s r.sess = some c) (hs : sel r.word = true) (hn : r.started = false) :
    Runs (onInst s inst r) inst sel r c := by
  have hu : ∀ u, unitResetting (onInst s inst r) u = false := by
    intro u
    simp [unitResetting, onInst, setEngine, hf]
  have hi : instFenced (onInst s inst r) inst = false := by
    cases inst <;> simp [instFenced, hu]
  have hr : (findEngine (onInst s inst r) inst).running = [r] := by
    cases inst with
    | splints h => cases h <;> simp [findEngine, onInst, setEngine, he, Engine.all, mapIf]
    | sampler h => cases h <;> simp [findEngine, onInst, setEngine, he, Engine.all, mapIf]
    | rim h => cases h <;> simp [findEngine, onInst, setEngine, he, Engine.all, mapIf]
    | _ => simp [findEngine, onInst, setEngine, he, Engine.all, mapIf]
  refine ⟨?_, hc, fun _ => ⟨?_, ?_⟩⟩
  · simp [hr, hs, hn, hi]
  · simp [tierFenced, hu]
  · simp [tierFenced, hu]

/-- The command of a submission with a session is one its row acts on. -/
theorem acts_cmd (u : Submission) (ht : u.tag = 7) (hs : u.session = 0x1000) : ActsFor (cmd u) 0 7 u.opcode (out u) ctx := by
  obtain ⟨op, fl, tag, ss, ep, a, b, c, d, e, f⟩ := u
  subst ht hs
  refine ⟨⟨rfl, rfl, rfl, ?_⟩, rfl, rfl⟩
  simp [cmd, wait, out, inOrder, findBox, box, rdy, Mailbox.fresh]

theorem acts_cmdOp (u : Submission) (ht : u.tag = 7) : ActsOn (cmd u) 0 7 (out u) := by
  obtain ⟨op, fl, tag, ss, ep, a, b, c, d, e, f⟩ := u
  subst ht
  refine ⟨rfl, rfl, rfl, ?_⟩
  simp [cmd, wait, out, inOrder, findBox, box, rdy, Mailbox.fresh]

/-- The command acts for a context other than the usual one. -/
def cmdIn (c : Context) (u : Submission) : State := { cmd u with contexts := [c] }

theorem acts_cmdIn (c : Context) (u : Submission) (ht : u.tag = 7) (hs : u.session = 0x1000) (hc : c.sess = 0x1000) :
    ActsFor (cmdIn c u) 0 7 u.opcode (out u) c := by
  obtain ⟨⟨a, b, d, e⟩, f, -⟩ := acts_cmd u ht hs
  refine ⟨⟨a, b, d, e⟩, f, ?_⟩
  simp [cmdIn, findCtx, hc, out, hs]

def graph : Graph :=
  { handle := 3, offsets := 0x10000, neighbours := 0x12000, nodes := 4, relationCount := 1, weights := 0, relations := 0, ownership := none, mapOrder := 0 }

def table : Table :=
  { handle := 4, fmt := 0, rowBytes := 128, rows := 16, optimiser := 0, hub := false, placement := 2, storage := 0x20000, ownStorage := false,
    defaultRow := [], ownership := none, poolGroup := none, tier := none }

def grp : Group :=
  { handle := 0x800001, gid := 2, axes := 1, origin := 0, extent := 0, jobTag := 6, timeoutMs := 50, rxBase := 0x40000, rxBytes := 0x1000, order := 1,
    joinedAt := 0, members := [0], joined := [0], complete := true, joinTag := none, nextSeq := 1, current := none, early := [], aborts := [], votes := [], rx := [] }

/-- A module that holds bytes at context address 0x10000. -/
def withMem (s : State) (bs : List Byte) : State := { s with mem := writeCells [] (2 * spaceSize) bs }

/-- The context with a graph, a table, a group and a coil. -/
def full : Context :=
  { ctx with nextHandle := 5, graphs := [graph], tables := [table], groups := [grp], coils := [{ handle := 0x800002, cls := 0, code := [] }] }

/-- The bytes of a list of one Rim task with one command word. -/
def listBytes (w : BitVec 512) : List Byte :=
  [3, 0, 1, 0, 192, 0, 0, 0] ++ List.replicate 56 0 ++ [0x33, 0, 1, 0, 128, 0, 0, 0] ++ List.replicate 56 0 ++ leBytes 64 w.toNat

/-! ### Commands of the mailbox -/

theorem witness_StepRunsFrontCommand :
    ({ rdy with pending := [Instr.enableSet 0] } : State).pending = .enableSet 0 :: [] ∧ rdy.pending = [] ∧ rdy.fabric.slewNs = 0 := by
  decide +kernel

theorem witness_StepKeepsSound : Sound rdy ∧ ∃ t, step rdy = .next t := ⟨⟨rfl, rfl⟩, _, rfl⟩

theorem witness_EveryCommandAnswers : missesBox rdy (.enableSet 3) = true ∧ missesBox rdy (.enableSet 0) = false := by decide +kernel

theorem witness_NoStepGoesBack : (∃ t, step rdy = .next t) ∧ rdy.lead.epoch ≠ 0 ∧ LogInOrder rdy ∧
    ({ rdy with mgmt := { rootHash := some [1] } } : State).mgmt.rootHash = some [1] :=
  ⟨⟨_, rfl⟩, by decide, ⟨by decide, by intro i r h; simp [rdy, State.reset] at h⟩, rfl⟩

/-- Doorbells: a tail in the free span and at its bounds, one beyond it, a head released, one not written, one beyond the ring. -/
theorem witness_DoorbellsMoveTheRings :
    findBox rdy 0 = some box ∧
    ((0x3F : U32).toNat % 4096 < box.sqSize ∧ ∃ k, 1 ≤ k ∧ k ≤ 63 ∧ (0x3F : U32).toNat % 4096 = (0 + k) % box.sqSize) ∧
    ¬ ((0x40 : U32).toNat % 4096 < box.sqSize) ∧
    (let b := { box with cqTail := 63, noticeSlot := some 4 }
     (0x3F : U32).toNat % 4096 < b.cqSize ∧ ((0x3F : U32).toNat % 4096 + b.cqSize - b.cqHead % b.cqSize) % b.cqSize ≤ b.unreleased ∧
     b.noticeSlot = some 4) ∧
    (let b := { box with cqTail := 2 }
     b.unreleased < ((3 : U32).toNat % 4096 + b.cqSize - b.cqHead % b.cqSize) % b.cqSize) := by
  refine ⟨by decide +kernel, ⟨by decide +kernel, 63, by decide +kernel⟩, by decide +kernel⟩

theorem witness_RegistersTakeTheirWrites :
    findBox rdy 0 = some box ∧ box.enable = true ∧ ({ box with enable := false }).enable = false ∧
    configOk { box with enable := false } = true ∧ configOk (Mailbox.fresh 0) = false ∧ box.outstandingTags = [] ∧
    ({ box with outstanding := [out (sub 4)] }).outstandingTags ≠ [] ∧ (2 : Nat) ≠ 0 ∧ 0x28 ∈ [0x18, 0x1C, 0x20, 0x24, 0x28] := by
  decide +kernel

/-- The entry that PF0's ring holds: a KEEPALIVE of the session. -/
def ringed (bs : List Byte) : State := { rdy with boxes := [{ box with sqTail := 1 }], hostMem := writeCells [] 0x100000 bs }

def entry : List Byte := [0x04, 0, 7, 0, 0, 0x10, 0, 0, 1, 0, 0, 0]

theorem witness_SubmissionsAndCompletionsPass :
    (let s := ringed entry
     let b := { box with sqTail := 1 }
     findBox s 0 = some b ∧ b.enable = true ∧ b.halted = false ∧ b.sqHead % b.sqSize ≠ b.sqTail ∧ slotsFree b = true ∧
     (∀ i, i < 64 → refused s (0x100000 + i) = false) ∧ commonCheck s 0 b (decodeSubmission (readCells s.hostMem 0x100000 64)) = none ∧
     (s.boxes.filter fun x => x.fn == 0) = [b]) ∧
    (let s := ringed (0x03 :: entry.drop 1 |>.set 8 2)
     commonCheck s 0 { box with sqTail := 1 } (decodeSubmission (readCells s.hostMem 0x100000 64)) = some (stBadParam 8)) ∧
    refused { ringed entry with hostRefuse := [(0x100000, 0x100040)] } 0x100005 = true ∧
    (findOut (cmd (sub 4)) 0 7 = some (out (sub 4)) ∧ ∀ i, i < 32 → refused (cmd (sub 4)) (0x200000 + i) = false) ∧
    (∃ b : Mailbox, (b.enable = false ∨ b.halted = true ∨ b.cqSize ≤ b.unreleased) ∧ b = Mailbox.fresh 0) ∧
    (let b := { box with cqTail := 64 }; b.enable = true ∧ b.cqSize ≤ b.unreleased) :=
  ⟨by decide +kernel, by decide +kernel, by decide +kernel, by decide +kernel, ⟨_, .inl rfl, rfl⟩, by decide +kernel⟩

theorem witness_NoticesReachTheHost :
    (let n : Notice := { kind := 3, arg := 2 }
     let b := { box with notices := [n] }
     let s := { rdy with boxes := [b] }
     findBox s 0 = some b ∧ b.notices = n :: [] ∧ b.noticeSlot = none ∧ b.unreleased < b.cqSize ∧
     (∀ i, i < 32 → refused s (0x200000 + i) = false) ∧ b.unsignalled + 1 ≥ Nat.max b.count.toNat 1 ∧
     ({ b with noticeSlot := some 9 }).noticeSlot = some 9 ∧
     n ∈ ({ b with notices := [n] }).notices ∧ ({ kind := 1, arg := 2 } : Notice) ∉ b.notices ∧
     (b.notices.filter fun x => x.kind == 3).length ≤ 1) ∧
    (let b := { box with firstUnsignalled := some 5, timeUs := 2, periodMs := 3, telFired := 4 }
     b.firstUnsignalled = some 5 ∧ 5 + 1000 * b.timeUs.toNat ≤ 2005 ∧ 2004 < 5 + 1000 * b.timeUs.toNat ∧ b.periodMs ≠ 0 ∧
     b.telFired + b.periodMs.toNat ≤ 7 ∧ 6 < b.telFired + b.periodMs.toNat ∧ box.firstUnsignalled = none ∧ box.periodMs = 0) := by
  decide +kernel

/-! ### Sessions, settings and functions -/

/-- A host that refuses nothing takes every write. -/
theorem takes {s : State} (h : s.hostRefuse = []) (a n : Nat) (b : a + n ≤ 2 ^ 64) : HostTakes s a n := by
  intro i hi
  simp [refused, h]
  omega

/-- The states of QueriesAnswer: the identification query, a reserved opcode, and every group of counters with room for its record. -/
theorem witness_QueriesAnswer :
    (findOut (cmd (sub 0x50)) 0 7 = some (out (sub 0x50)) ∧ (sub 0x50).isIdent = true ∧ (cmd (sub 0x50)).mstate = .ready) ∧
    (ActsOn (cmd (sub 0x09)) 0 7 (out (sub 0x09)) ∧ knownOpcode 0x09 = false) ∧
    (∀ g n, ActsFor (cmd (sub 0x50 g 0x300000 n)) 0 7 0x50 (out (sub 0x50 g 0x300000 n)) ctx ∧
      ∃ d, findCtx (unseenEvents (cmd (sub 0x50 g 0x300000 n)) ctx.sess) ctx.sess = some d) ∧
    HostTakes rdy 0x300000 4096 ∧ (findSession (cmd (sub 0x04)) 0x1000 = some sess) ∧
    ActsFor (cmd (sub 0x51 3)) 0 7 0x51 (out (sub 0x51 3)) ctx ∧ ActsFor (cmd (sub 0x52 3 31)) 0 7 0x52 (out (sub 0x52 3 31)) ctx :=
  ⟨by decide +kernel, ⟨acts_cmdOp _ rfl, by decide⟩, fun g n => ⟨acts_cmd _ rfl rfl, _, rfl⟩, takes rfl _ _ (by decide), rfl,
    acts_cmd _ rfl rfl, acts_cmd _ rfl rfl⟩

theorem witness_OpenSessionMakesPending :
    let u := subOp 0x01 1 0x300000
    ActsOn (cmd u) 0 7 (out u) ∧ P1 (out u) % 32 = 0 ∧ lockedFor (cmd u) 1 = none ∧
    quotaBreach (cmd u) 1 [(0x01, ((cmd u).sessions.filter fun x => x.tenant == 1).length + 1)] = none ∧
    (cmd u).sessions.length < 4096 ∧ ((cmd u).sessions.filter fun x => x.fn == 0 && !x.isOpen).length < 16 ∧
    HostTakes (cmd u) (P1 (out u)) 32 ∧ (cmd u).generations.length + 2 < 2 ^ 20 := by
  unfold ActsOn HostTakes; decide +kernel

/-- A pending session of tenant 1, whose key is 9, with a nonce of 32 bytes 0x11, opened at a time. -/
def pend (t : Nat) : Session := { sess with isOpen := false, nonce := List.replicate 32 0x11, openedAt := t }

/-- AUTH_RESPONSE with P0 and with the other words of the right value, which is an independent program's HMAC-SHA-256. -/
def authAt (t : Nat) (p0 : U64) (lock : Option Nat) : State :=
  wait { rdy with sessions := [pend t], contexts := [], tenants := [{ id := 1, key := some 9, lockedUntil := lock }] }
    (out (sub 0x02 p0 0x25ce695b7fcc012a 0x42133bbcffb83bfc 0x5366aad7f24f6814))

theorem witness_AuthenticationDecides :
    (∀ t p0 lock, ActsOn (authAt t p0 lock) 0 7 (out (sub 0x02 p0 0x25ce695b7fcc012a 0x42133bbcffb83bfc 0x5366aad7f24f6814)) ∧
      findSession (authAt t p0 lock) 0x1000 = some (pend t) ∧ (pend t).isOpen = false) ∧
    lockedFor (authAt (10 ^ 12) 0 (some (2 * 10 ^ 12))) 1 = some 1000 ∧ lockedFor (authAt (10 ^ 12) 0 none) 1 = none ∧
    (pend 0).openedAt + 10 * 10 ^ 9 ≤ rdy.now ∧ rdy.now < (pend (10 ^ 12)).openedAt + 10 * 10 ^ 9 ∧
    authOk (authAt (10 ^ 12) 0 none) (pend (10 ^ 12)) (out (sub 0x02 0 0x25ce695b7fcc012a 0x42133bbcffb83bfc 0x5366aad7f24f6814)) = false ∧
    authOk (authAt (10 ^ 12) 0x1284c63d0a31f428 none) (pend (10 ^ 12))
      (out (sub 0x02 0x1284c63d0a31f428 0x25ce695b7fcc012a 0x42133bbcffb83bfc 0x5366aad7f24f6814)) = true ∧
    (findTenant rdy 1).lockedUntil = none ∧
    (let s := { rdy with tenants := [{ id := 1, failures := List.replicate 4 (10 ^ 12) : Tenant }] }
     4 ≤ ((findTenant s 1).failures.filter fun x => decide (s.now - x ≤ 60 * 10 ^ 9)).length) ∧
    ((findTenant rdy 1).failures.filter fun x => decide (rdy.now - x ≤ 60 * 10 ^ 9)).length < 4 :=
  ⟨fun t p0 lock => ⟨⟨rfl, rfl, rfl, rfl⟩, rfl, rfl⟩, by decide +kernel⟩

theorem witness_SessionsEnd :
    (let s := cmd (sub 0x03)
     findOut s 0 7 = some (out (sub 0x03)) ∧ serving s = true ∧ stillRunning (closeLists s 0x1000) 0x1000 = false) ∧
    (let s := { cmd (sub 0x03) with progress := [prog 0] }
     stillRunning (closeLists s 0x1000) 0x1000 = true ∧ findOut s 0 7 = some (out (sub 0x03)) ∧ serving s = true) ∧
    (let s := { rdy with sessions := [pend 0] }
     findSession s 0x1000 = some (pend 0) ∧ (pend 0).isOpen = false ∧ (pend 0).openedAt + 10 * 10 ^ 9 ≤ s.now ∧
     s.now < (pend (10 ^ 12)).openedAt + 10 * 10 ^ 9) ∧
    (findSession rdy 0x1000 = some sess ∧ sessionIdle rdy sess = true ∧ sess.lastActive + sess.idleTimeout * 10 ^ 9 ≤ rdy.now ∧
     rdy.now < 10 ^ 12 + sess.idleTimeout * 10 ^ 9 ∧ sessionIdle (cmd (sub 4)) sess = false) ∧
    (let s := fun u => { rdy with tenants := [{ id := 1, lockedUntil := some u : Tenant }] }
     (findTenant (s 5) 1).lockedUntil = some 5 ∧ 5 ≤ rdy.now ∧ rdy.now < 10 ^ 13 ∧ (findTenant (s (10 ^ 13)) 1).lockedUntil = some (10 ^ 13)) := by
  decide +kernel

/-- Two settings of one target outstanding: the second was read later. -/
def twice (u : Submission) (first second : Nat) : State :=
  { rdy with boxes := [{ box with outstanding := [{ out u with order := first }, { out { u with tag := 8 } with order := second }] }] }

theorem witness_OperatorSettingsTakeEffect :
    ActsOn (cmd (subOp 0x80 1)) 0 7 (out (subOp 0x80 1)) ∧ P0 (out (subOp 0x80 1)) / 2 ^ 32 % 2 = 0 ∧
    ((cmd (subOp 0x80 1)).mgmt.kek.bind fun k => keyUnwrap k (wrappedKey (out (subOp 0x80 1)))) = none ∧
    (∀ k key, keyUnwrap k (wrappedKey (out (subOp 0x80 1))) = some key →
      (({ cmd (subOp 0x80 1) with mgmt := { kek := some k } } : State).mgmt.kek.bind fun k => keyUnwrap k (wrappedKey (out (subOp 0x80 1)))) =
        some key ∧ ActsOn { cmd (subOp 0x80 1) with mgmt := { kek := some k } } 0 7 (out (subOp 0x80 1))) ∧
    P0 (out (subOp 0x80 0x100000001)) / 2 ^ 32 % 2 = 1 ∧
    (∀ op a b c, (ActsOn (twice (subOp op a b c) 5 6) 0 7 (out (subOp op a b c))) ∧ ActsOn (cmd (subOp op a b c)) 0 7 (out (subOp op a b c))) ∧
    sameTarget (subOp 0x81 1 0x05) (subOp 0x81 1 0x05) = true ∧ (quotaDefault 0x05).isSome = true ∧
    10 ≤ P1 (out (subOp 0x82 1 0xA00000003)) / 2 ^ 32 ∧ P1 (out (subOp 0x82 1 0xA00000003)) / 2 ^ 32 ≤ 86400 ∧
    (findBox rdy 0).isSome = true ∧ (0 < ({ rdy with numVfs := 2 } : State).numVfs ∧ rdy.numVfs ≤ 0) ∧ rdy.numVfs < 255 ∧
    (findBox rdy 0 ≠ none ∧ findBox rdy 1 = none) :=
  ⟨acts_cmdOp _ rfl, by decide +kernel, by decide +kernel, fun k key h => ⟨h, ⟨rfl, rfl, rfl, rfl⟩⟩, by decide +kernel,
    fun op a b c => ⟨⟨rfl, rfl, rfl, rfl⟩, acts_cmdOp _ rfl⟩, by decide +kernel⟩

/-! ### Memory and objects -/

theorem witness_MemoryIsPlacedAndFreed :
    (∀ p q, ActsFor (cmd (sub 0x10 p q)) 0 7 0x10 (out (sub 0x10 p q)) ctx ∧ ActsFor (cmd (sub 0x11 p q)) 0 7 0x11 (out (sub 0x11 p q)) ctx ∧
      ActsFor (cmd (sub 0x12 p q 3)) 0 7 0x12 (out (sub 0x12 p q 3)) ctx) ∧
    (let s := cmd (sub 0x10 0x20000 0x60)
     0x20000 % pageSize (P1 (out (sub 0x10 0x20000 0x60)) / 4 % 4) = 0 ∧ askedBacking 0x60 = some .nearWest ∧
     quotaBreach s 1 (allocNeeds s ctx .nearWest 0x20000) = none ∧ capacityOk s .nearWest 0x20000 true = true ∧
     capacityOk s .nearWest 0x20000 false = true ∧ (firstFit 0x10000 0x10000 0x20000 spaceSize [(0x10000, 0x100000)]).isSome = true ∧
     (firstFit 0 0x10000 0x20000 spaceSize []).isSome = true) ∧
    (let s := cmd (sub 0x10 0x10000 0x70)
     askedBacking 0x70 = some .basketWest ∧ 0x10000 % pageSize (0x70 / 4 % 4) = 0 ∧ quotaBreach s 1 (allocNeeds s ctx .basketWest 0x10000) = some 4) ∧
    (let s := { rdy with hbm := { rdy.hbm with zeroing := [(.nearWest, hbmCapacity rdy 0)] } }
     capacityOk s .nearWest 0x20000 true = false ∧ capacityOk s .nearWest 0x20000 false = true) ∧
    (0x400000 % (64 * kib) = 0 ∧ 0x10000 % (64 * kib) = 0 ∧ quotaBreach rdy 1 (allocNeeds rdy ctx .host 0x10000) = none ∧
     (firstFit (64 * kib) (64 * kib) 0x10000 spaceSize [(0x10000, 0x100000)]).isSome = true) ∧
    ((ctx.allocs.find? fun a => a.base == 0x10000 && freeable ctx a) = ctx.allocs.head? ∧ earlierListsEnded rdy (out (sub 0x11 0x10000)) = true ∧
     earlierListsEnded { rdy with lists := [lst] } (out (sub 0x11 0x10000)) = false ∧
     ∀ a ∈ ctx.allocs, allocInUse ctx a = false ∧ a.backing ≠ .host ∧ allocInUse { ctx with allocs := [{ a with use := .shadow }] } { a with use := .shadow } = true) ∧
    (∀ op, let o := { out (sub op 0x20000 0x60) with held := true }
     ActsFor (wait rdy o) 0 7 op o ctx ∧ o.held = true) :=
  ⟨fun _ _ => ⟨acts_cmd _ rfl rfl, acts_cmd _ rfl rfl, acts_cmd _ rfl rfl⟩, by decide +kernel, by decide +kernel, by decide +kernel, by decide +kernel,
    by decide +kernel, fun op => ⟨⟨⟨rfl, rfl, rfl, rfl⟩, rfl, rfl⟩, rfl⟩⟩

/-- Memory with nothing listed reads as zeros. -/
theorem zeros_read {s : State} {c : Context} (hm : s.mem = []) (hq : s.hbm.poisoned = []) (ha : c.allocs = ctx.allocs) (hr : c.regions = []) :
    ∀ (n va : Nat), 0x10000 ≤ va → va + n ≤ 0x110000 → readVa s c .rd va n = .ok (List.replicate n 0)
  | 0, _, _, _ => rfl
  | n + 1, va, h1, h2 => by
    have ih := zeros_read hm hq ha hr n (va + 1) (by omega) (by omega)
    have hf : (c.allocs.find? fun a => a.has va) = ctx.allocs.head? := by
      simp only [ha, ctx, List.find?, Alloc.has, List.head?]
      rw [show (decide (0x10000 ≤ va) && decide (va < 0x10000 + 0x100000)) = true by simp; omega]
    have hl : locate c .rd va = some (.mem (2 * spaceSize + (va - 0x10000))) := by
      unfold locate plainLoc findAlloc
      rw [hf]
      simp [ctx, findRegion, hr, Backing.space]
    have hb : readByte s c .rd va = .ok 0 := by
      unfold readByte
      rw [hl]
      simp [poisonIn, hq, hm, readCell, unlisted]
    simp only [readVa, hb, ih, List.replicate_succ]

theorem zeros_map {s : State} {c : Context} (hm : s.mem = []) (hq : s.hbm.poisoned = []) (ha : c.allocs = ctx.allocs) (hr : c.regions = []) :
    ∀ n i : Nat, 0x10000 + 16 * (i + n) ≤ 0x110000 → ∃ m, readRanges s c 0x10000 n i 0 = .ok m
  | 0, _, _ => ⟨[], rfl⟩
  | n + 1, i, h => by
    obtain ⟨m, ih⟩ := zeros_map hm hq ha hr n (i + 1) (by omega)
    have hb : ∀ b, badRange 0 b (List.replicate 16 0) = none := by intro b; cases b <;> decide
    have hd : decodeRange (List.replicate 16 0) = { first := 0, owner := 0, replicated := false, unowned := false, localBase := 0 } := by decide
    rw [readRanges, zeros_read hm hq ha hr 16 (0x10000 + 16 * i) (by omega) (by omega)]
    dsimp only
    rw [hb, hd]
    dsimp only
    rw [ih]
    exact ⟨_, rfl⟩

/-- The smallest coil image, one END, of key 1, with a signature by the key below. -/
def image : List Byte :=
  [0x43, 0x4F, 0x49, 0x4C, 3, 0, 0, 0, 1, 0, 0, 0, 1, 0, 0, 0] ++ List.replicate 48 0 ++ [0, 0, 0, 0xFC] ++
    beBytes 48 0xd975136a7414f8d3221bb59e13692ee684bcc5a2e1ebf70b801e5fc98f7ee69df7dab7742ff7365dd6bab1b0d9da1699 ++
    beBytes 48 0xd975136a7414f8d3221bb59e13692ee684bcc5a2e1ebf70b801e5fc98f7ee69df7dab7742ff7365dd6bab1b0d9da1699

def coilPoint : Nat × Nat :=
  (0x5463eb6ba1169c0e78a7ee1a5f2fe6e347cc05f40ae399bc653a332a34e0c9083c5ed5a0b4aec55c9da753b2afc9ad72,
   0xcbbb60b1cce42256f1017de7e845a89811498706b7cc394bd859131b2d18cd59072980c6a1aaa098e5914abddbdb338a)

/-- A signature that verifies: its point is that of a message whose hash is both halves of it. -/
theorem test_ecdsa : ecdsaVerify coilPoint (image.take 68) (image.drop 68) = true := by decide +kernel

theorem test_verify_image : verifyImage image 1 true true = none ∧ verifyImage (image.set 4 2) 1 true true = some 0x02 := by decide +kernel

def keyed (s : State) : State := { s with mgmt := { coilKeys := [(1, coilPoint)] } }

/-- CREATE_TABLE of 16 rows of 128 B, FP32, with the first optimiser, in the allocation at 0x10000. -/
def askTable : Outstanding := out (sub 0x13 16 0x100080 0x10000)

/-- The state after the module has chosen a page size, and what the table needs whatever that is. -/
def chosen : State := { cmd (sub 0x13 16 0x100080 0x10000) with choices := 1 }

theorem askTable_hbm (page : Nat) : tableHbm chosen ctx (tableAsk askTable) page = tableHbm chosen ctx (tableAsk askTable) 0 := rfl

theorem askTable_fits (page : Nat) : quotaBreach chosen 1 (tableNeeds chosen ctx (tableAsk askTable) page) = none ∧
    capacityAll chosen (tableHbm chosen ctx (tableAsk askTable) page) false = true ∧
    capacityAll chosen (tableHbm chosen ctx (tableAsk askTable) page) true = true := by
  simp only [tableNeeds, askTable_hbm page]
  decide +kernel

theorem askTable_placed (page : Nat) :
    ∃ s1, placeTable (reserveStore chosen 0x1000 (storeNeed chosen ctx 1)) ctx (tableAsk askTable) 1 page [] = some s1 := by
  simp only [placeTable, show (tableAsk askTable).tiered = false from rfl, show (tableAsk askTable).image = 0x10000 from rfl]
  exact ⟨_, rfl⟩

theorem witness_ObjectsAreEnteredAndGo :
    nextObjectHandle ctx = some 1 ∧
    (ActsFor (cmd askTable.sub) 0 7 0x13 askTable ctx ∧ (tableAsk askTable).rows < missingRow ∧ (tableAsk askTable).shapeOk = true ∧
     tableImage (cmd askTable.sub) ctx (tableAsk askTable) = some [] ∧ (tableAsk askTable).optimiser = 1 ∧ (tableAsk askTable).tiered = false ∧
     (choose (cmd askTable.sub)).2 = chosen) ∧
    (let u := sub 0x14 0x10000 0x12000 4 1
     ActsFor (cmd u) 0 7 0x14 (out u) ctx ∧ 1 ≤ P3 (out u) % 512 ∧ P3 (out u) % 512 ≤ 256 ∧
     quotaBreach (cmd u) 1 [(0x0A, quotaUse (cmd u) 1 0x0A none + 1)] = none) :=
  ⟨rfl, ⟨acts_cmd _ rfl rfl, by decide +kernel, by decide +kernel, by decide +kernel, by decide +kernel, by decide +kernel, rfl⟩,
    ⟨acts_cmd _ rfl rfl, by decide +kernel⟩⟩

/-- SET_OWNERSHIP of a graph, with a map of zeros, one that cannot be read, and the map of a graph that has one. -/
theorem witness_ObjectsAreEnteredAndGo_maps :
    (∀ p1 p2, ActsFor (cmdIn full (sub 0x15 3 p1 p2)) 0 7 0x15 (out (sub 0x15 3 p1 p2)) full ∧
      ∃ m, readRanges (cmdIn full (sub 0x15 3 p1 p2)) full 0x10000 mapEntries 0 0 = .ok m) ∧
    (full.graphs.any fun g => g.handle == 3) = true ∧
    (∃ off, readRanges (cmdIn full (sub 0x15 3 0 0)) full 0 mapEntries 0 0 = .error off) ∧
    (let c := { full with graphs := [{ graph with ownership := some [] }] }
     ((c.graphs.find? fun g => g.handle == 3).bind fun g => g.ownership) = some [] ∧
     ActsFor (cmdIn c (sub 0x15 3 0 3)) 0 7 0x15 (out (sub 0x15 3 0 3)) c) :=
  ⟨fun p1 p2 => ⟨acts_cmdIn _ _ rfl rfl rfl, zeros_map (s := cmdIn full (sub 0x15 3 p1 p2)) (c := full) (by rfl) (by rfl) (by rfl) (by rfl) mapEntries 0 (by decide)⟩, by decide, good_error (by decide +kernel), rfl,
    acts_cmdIn _ _ rfl rfl rfl⟩

/-- LOAD_COIL of a good image and of one with a bad version, and DESTROY_OBJECT of each kind of object and of a named one. -/
theorem witness_ObjectsAreEnteredAndGo_coils :
    (let u := sub 0x20 0x10000 164
     let s := keyed (withMem (cmd u) image)
     ActsFor s 0 7 0x20 (out u) ctx ∧ readVa s ctx .rd 0x10000 164 = .ok image ∧ coilKey s (BitVec.ofNat 32 (fieldAt image 0xC 4)) = some coilPoint ∧
     image.length = 164 ∧ quotaBreach s 1 [(0x0A, quotaUse s 1 0x0A none + 1)] = none) ∧
    (let u := sub 0x20 0x10000 164
     readVa (keyed (withMem (cmd u) (image.set 4 2))) ctx .rd 0x10000 164 = .ok (image.set 4 2)) ∧
    (∀ h, ActsFor (cmdIn full (sub 0x16 h)) 0 7 0x16 (out (sub 0x16 h)) full) ∧
    ((findTable full 4).isSome = true ∧ (full.graphs.any fun g => g.handle == 3) = true ∧ 0x800001 ∈ otherHandles full ∧ 0x800002 ∈ otherHandles full) ∧
    (let s := cmdIn full (sub 0x16 3)
     objectNamed s full 3 = false ∧ objectNamed s full 4 = false ∧ objectNamed s full 0x800001 = false ∧
     objectNamed { s with progress := [prog (0x30 ||| (3 <<< 128))] } full 3 = true ∧ findTable full 4 = some table ∧
     findTable full 0x800001 = none ∧ findGroup full 0x800001 = some grp ∧ findTable full 3 = none ∧ findGroup full 3 = none) :=
  ⟨⟨⟨⟨rfl, rfl, rfl, rfl⟩, rfl, rfl⟩, gives_eq (by decide +kernel), by decide +kernel⟩, gives_eq (by decide +kernel), fun h => acts_cmdIn _ _ rfl rfl rfl, by decide +kernel, by decide +kernel⟩

/-! ### Lists, tasks and synchronisation -/

/-- A parked context of another tenant with a list that waits for residency. -/
def parked : Context := { ctx with sess := 0x2000, tenant := 2, slot := none }

theorem witness_ListsAreAdmittedAndQueued :
    (∀ p, ActsFor (cmd (sub 0x21 0x10000 p)) 0 7 0x21 (out (sub 0x21 0x10000 p)) ctx) ∧ 0x10000 % 64 = 0 ∧
    (findTenant rdy 1).ceiling.toNat < 6 % 8 ∧ 3 % 8 ≤ (findTenant rdy 1).ceiling.toNat ∧
    quotaBreach rdy 1 [(0x0B, quotaUse rdy 1 0x0B none + 1)] = none ∧
    quotaBreach { rdy with tenants := [{ id := 1, quotas := [(0x0B, 0)] : Tenant }] } 1 [(0x0B, 1)] = some 0x0B ∧
    gives (checkList (withMem rdy (listBytes 0)) ctx 0x10000) (192, 0, [task]) = true ∧ good (checkList rdy ctx 0x10000) = false ∧ ctx.slot.isSome = true ∧
    (let s := { rdy with contexts := [{ ctx with slot := none }] }
     (activate s 0x1000 3).2 = false ∧ (s.waitQueue.any fun w => w.1 == 0x1000) = false) ∧
    (let s := { rdy with contexts := [{ ctx with slot := none }], tenants := [{ id := 1, quotas := [(0x0D, 0)] : Tenant }] }
     (activate s 0x1000 3).2 = true ∧ (activate { s with waitQueue := [(0x1000, 3, 0)] } 0x1000 3).2 = true) := by
  refine ⟨fun p => acts_cmd _ rfl rfl, by decide +kernel⟩

theorem witness_ListsAreAdmittedAndQueued_queue :
    (let s := { rdy with contexts := [ctx, parked], waitQueue := [(0x2000, 3, 5)] }
     findCtx s 0x2000 = some parked ∧ freeSlot s = some 1 ∧ ((tenantContexts s 2).filter fun d => d.slot.isSome).length < quotaLimit s 2 0x0D) ∧
    (let s := { rdy with contexts := [ctx, parked], waitQueue := [(0x2000, 3, 5)], tenants := [{ id := 2, quotas := [(0x0D, 0)] : Tenant }] }
     findCtx s 0x2000 = some parked ∧ (tryResident s parked).isNone = true) ∧
    (∀ p, ActsOn (cmd (sub 0x22 p)) 0 7 (out (sub 0x22 p))) ∧
    (let s := { cmd (sub 0x22 9) with lists := [lst] }
     (s.lists.find? fun l => l.fn == 0 && l.tag == BitVec.ofNat 16 9 && l.sess == 0x1000) = some lst ∧ lst.ended = none ∧ listFinished s lst = false) ∧
    (let l := { lst with ended := some (okEnd 0) }
     l.ended.isSome = true) ∧
    (let l := { lst with times := [0, 10 ^ 6 + 1, 0, 0, 0, 0, 0] }
     l.admitted = true ∧ l.started = false ∧ l.ended = none ∧ 10 ^ 6 < sumNat (l.times.drop 1)) := by
  refine ⟨by decide +kernel, by decide +kernel, fun p => ⟨rfl, rfl, rfl, rfl⟩, by decide +kernel⟩

theorem witness_ListEndReportsList :
    (let l := { lst with ended := some (okEnd 5), status := 0x20000 }
     let s := { rdy with lists := [l] }
     (s.lists.find? fun l => l.fn == 0 && l.tag == 9) = some l ∧ (s.progress.any fun p => p.ref.list == l.uid) = false ∧ l.status ≠ 0 ∧
     findCtx s l.sess = some ctx ∧ good (writeVa s ctx .wr 0x20000 (statusRecord l (okEnd 5))) = true ∧
     good (writeVa s { ctx with allocs := [] } .wr 0x20000 (statusRecord l (okEnd 5))) = false ∧
     (({ s with progress := [prog 0] } : State).progress.any fun p => p.ref.list == l.uid) = true ∧ l.times.length = 7 ∧ l.times[6]? = some 0) ∧
    (let l := { lst with tasks := [] }
     l.ended = none ∧ listFinished { rdy with lists := [l] } l = true ∧ l.status = 0) := by
  decide +kernel

/-- A save area with the tag that its body calls for: what restores depends on no key that Lean can see. -/
theorem witness_ContextIsSavedAndRestored :
    (∀ n, ActsFor (cmd (sub 0x41 0x20000 n)) 0 7 0x41 (out (sub 0x41 0x20000 n)) ctx ∧ ActsFor (cmd (sub 0x42 0x20000 n)) 0 7 0x42 (out (sub 0x42 0x20000 n)) ctx ∧
      earlierListsEnded (cmd (sub 0x41 0x20000 n)) (out (sub 0x41 0x20000 n)) = true ∧
      earlierListsEnded (cmd (sub 0x42 0x20000 n)) (out (sub 0x42 0x20000 n)) = true) ∧
    4096 ≤ P1 (out (sub 0x41 0x20000 4096)) ∧ P1 (out (sub 0x41 0x20000 4095)) < 4096 ∧ ctx.slot.isSome = true ∧ ctx.sems.length = 48 ∧
    ctx.bases.length = 32 :=
  ⟨fun n => ⟨acts_cmd _ rfl rfl, acts_cmd _ rfl rfl, rfl, rfl⟩, by decide +kernel⟩

theorem witness_TasksAreChosen :
    (let w := word 0x40 [(0x20, 0x0E04), (0x28, 0x20000)]
     let s := { withMem rdy (listBytes w) with lists := [lst] }
     let inst := EngineInst.rim .west
     (s.engines.any fun e => e.inst == inst) = true ∧ engineBusy (findEngine s inst) = false ∧ chooseTask s inst = some (lst, 0) ∧
     ((suspendedOf (findEngine s inst) lst.uid).filter fun r => r.ref.task == 0) = [] ∧ lst.tasks[0]? = some task ∧ findCtx s lst.sess = some ctx ∧
     ((nextOf s ctx lst task inst).map fun p => (p.1, gives p.2 w)) = some (0, true) ∧ opcodeOk inst w = true ∧ headerOk task w = true ∧
     chainBroken s inst lst.uid 0 w = false ∧ gives (fetchDescs s ctx inst w (descFields w)) [] = true ∧ outPipe w = 0 ∧ inPipe w = 0 ∧
     headerOk task (w - 3 * 65536) = false) ∧
    (let l := { lst with uid := 2, prio := 6, tasks := [task] }
     let w := word 0x40 [(0x20, 0x0E04), (0x28, 0x20000)]
     let inst := EngineInst.rim .west
     let s := { withMem (onInst rdy inst (going w [])) (listBytes w) with lists := [lst, l] }
     runningLevel s (findEngine s inst) = some 3 ∧ chooseTask s inst = some (l, 0) ∧ 6 ≤ l.prio ∧ 3 < l.prio ∧
     ((findEngine s inst).running.any fun r => keepsRunning r.word) = false ∧ lst.prio < 6) := by
  decide +kernel

theorem shaRound_length (p : ShaParams) (v : List Nat) (kw : Nat × Nat) : (shaRound p v kw).length = v.length := by
  unfold shaRound
  split <;> rfl

theorem shaRounds_length (p : ShaParams) : ∀ (l : List (Nat × Nat)) (v : List Nat), (l.foldl (shaRound p) v).length = v.length
  | [], _ => rfl
  | k :: t, v => by rw [List.foldl_cons, shaRounds_length p t, shaRound_length]

theorem shaBlocks_length (p : ShaParams) : ∀ (l : List (List Byte)) (h : List Nat), (l.foldl (shaBlock p) h).length = h.length
  | [], _ => rfl
  | b :: t, h => by rw [List.foldl_cons, shaBlocks_length p t]; simp [shaBlock, shaRounds_length]

theorem leBytes_length : ∀ n v, (leBytes n v).length = n
  | 0, _ => rfl
  | n + 1, v => by simp [leBytes, leBytes_length n]

theorem hash_length : ∀ v : List Nat, v.length = 8 → ((v.map (beBytes 4)).flatten).length = 32
  | [_, _, _, _, _, _, _, _], _ => by simp [beBytes, leBytes_length]

theorem saveTag_length (b : List Byte) : (saveTag b).length = 32 := hash_length _ (by rw [shaBlocks_length]; rfl)

/-- The save area of the context. -/
def area : List Byte := saveBody (cmd (sub 0x41 0x20000 4096)) ctx 0 ++ saveTag (saveBody (cmd (sub 0x41 0x20000 4096)) ctx 0)

theorem area_length : area.length = 4096 := by
  rw [area, List.length_append, saveTag_length]
  decide +kernel

/-- A module that holds the area at 0x10000. -/
def saved : State := withMem (cmd (sub 0x42 0x10000 4096)) area

theorem read_placed {s : State} (m : List Byte) (hm : s.mem = writeCells [] (2 * spaceSize) m) (hq : s.hbm.poisoned = []) :
    ∀ (n va : Nat), 0x10000 ≤ va → va + n ≤ 0x10000 + m.length → va + n ≤ 0x110000 →
      readVa s ctx .rd va n = .ok ((m.drop (va - 0x10000)).take n)
  | 0, _, _, _, _ => by simp [readVa]
  | n + 1, va, h1, h2, h3 => by
    have ih := read_placed m hm hq n (va + 1) (by omega) (by omega) (by omega)
    have hf : (ctx.allocs.find? fun a => a.has va) = ctx.allocs.head? := by
      simp only [ctx, List.find?, Alloc.has, List.head?]
      rw [show (decide (0x10000 ≤ va) && decide (va < 0x10000 + 0x100000)) = true by simp; omega]
    have hl : locate ctx .rd va = some (.mem (2 * spaceSize + (va - 0x10000))) := by
      unfold locate plainLoc findAlloc
      rw [hf]
      simp [ctx, findRegion, Backing.space]
    have hx : va - 0x10000 < m.length := by omega
    have hb : readByte s ctx .rd va = .ok m[va - 0x10000] := by
      unfold readByte
      rw [hl]
      simp only [poisonIn, hq, hm]
      rw [readCell_writeCells m _ _ rfl]
      simp [hx]
    simp only [readVa, hb, ih]
    rw [List.drop_eq_getElem_cons hx, List.take_succ_cons, show va - 0x10000 + 1 = va + 1 - 0x10000 by omega]

theorem span_plain (s : State) : ∀ (n va : Nat), 0x10000 ≤ va → va + n ≤ 0x110000 → spanOk s ctx .wr va n = none
  | 0, _, _, _ => rfl
  | n + 1, va, h1, h2 => by
    have hf : (ctx.allocs.find? fun a => a.has va) = ctx.allocs.head? := by
      simp only [ctx, List.find?, Alloc.has, List.head?]
      rw [show (decide (0x10000 ≤ va) && decide (va < 0x10000 + 0x100000)) = true by simp; omega]
    have hl : locate ctx .wr va = some (.mem (2 * spaceSize + (va - 0x10000))) := by
      unfold locate plainLoc findAlloc
      rw [hf]
      simp [ctx, findRegion, Backing.space]
    simp only [spanOk, hl]
    exact span_plain s n (va + 1) (by omega) (by omega)

theorem write_plain {s : State} {c : Context} {va : Nat} (bs : List Byte) (n : Nat) (hn : bs.length = n) (h : spanOk s c .wr va n = none)
    (hp : s.hbm.poisoned = []) : ∃ s1, writeVa s c .wr va bs = .ok s1 := by
  subst hn
  simp [writeVa, h, partialPoison, hp]

/-- A save that can be written, an area that restores, and one that does not: what the tags are depends on no key that Lean can see. -/
theorem witness_ContextIsSavedAndRestored_areas :
    (∃ s1, writeVa (cmd (sub 0x41 0x20000 4096)) ctx .wr 0x20000 area = .ok s1) ∧
    readVa (setCtx saved ctx.sess fun c => { c with activeAt := saved.now }) ctx .rd 0x10000 4096 = .ok area ∧ areaOk ctx area = true ∧
    ActsFor saved 0 7 0x42 (out (sub 0x42 0x10000 4096)) ctx ∧
    (let s := cmd (sub 0x42 0x10000 4096)
     readVa s ctx .rd 0x10000 4096 = .ok (List.replicate 4096 0) ∧ areaOk ctx (List.replicate 4096 0) = false) := by
  refine ⟨?_, ?_, ?_, ⟨⟨rfl, rfl, rfl, rfl⟩, rfl, rfl⟩, zeros_read rfl rfl rfl rfl _ _ (by decide) (by decide), ?_⟩
  · exact write_plain area 4096 area_length (span_plain _ 4096 0x20000 (by omega) (by omega)) rfl
  · have h := read_placed (s := setCtx saved ctx.sess fun c => { c with activeAt := saved.now }) area (by simp only [setCtx, saved, withMem])
      (by simp only [setCtx, saved, withMem, cmd, wait, rdy]) 4096 0x10000 (by omega) (by have := area_length; omega) (by omega)
    rw [h, Nat.sub_self, List.drop_zero, List.take_of_length_le (by have := area_length; omega)]
  · have hb : (saveBody (cmd (sub 0x41 0x20000 4096)) ctx 0).length = 0xFE0 := by decide +kernel
    have hd : area.drop 0xFE0 = saveTag (saveBody (cmd (sub 0x41 0x20000 4096)) ctx 0) := by rw [area, List.drop_left' hb]
    have ht : area.take 0xFE0 = saveBody (cmd (sub 0x41 0x20000 4096)) ctx 0 := by rw [area, List.take_left' hb]
    unfold areaOk
    rw [hd, ht]
    simp only [beq_self_eq_true, Bool.true_and]
    rfl
  · unfold areaOk
    simp only [Bool.and_eq_false_iff]
    exact .inl (.inl (.inr (by decide +kernel)))

/-! ### Synchronisation and sampling -/

theorem witness_SynchronisationActs :
    Runs (onInst rdy (.rim .east) (going (word 1 []) [])) (.rim .east) (fun w => cmdOpcode w == 1) (going (word 1 []) []) ctx ∧
    Runs (onInst rdy (.rim .west) (going (word 2 [(0x10, 47), (0x14, 3)]) [])) (.rim .west) (fun w => cmdOpcode w == 2) (going (word 2 [(0x10, 47), (0x14, 3)]) []) ctx ∧
    (let w := word 3 [(0x10, 1), (0x18, 10 ^ 9)]
     Runs (onInst rdy (.rim .west) (going w [])) (.rim .west) (fun w => cmdOpcode w == 3) (going w []) ctx ∧
     fld w 0x10 0 0 = 1 ∧ fld w 0x18 63 0 * 1000 ≤ rdy.now ∧ rdy.now < fld (word 3 [(0x10, 1), (0x18, 10 ^ 9 + 1)]) 0x18 63 0 * 1000 ∧
     fld (word 3 [(0x18, 5)]) 0x10 0 0 = 0) ∧
    Runs (onInst rdy (.rim .west) (going (word 0x10 []) [])) (.rim .west) (fun w => !opcodeOk (.rim .west) w) (going (word 0x10 []) []) ctx :=
  ⟨runs_on _ _ _ rfl rfl rfl (by decide +kernel) rfl, runs_on _ _ _ rfl rfl rfl (by decide +kernel) rfl,
    ⟨runs_on _ _ _ rfl rfl rfl (by decide +kernel) rfl, by decide +kernel⟩, runs_on _ _ _ rfl rfl rfl (by decide +kernel) rfl⟩

def delayed (t : Nat) (k : DelayKind) : DelayEntry := { half := .west, deadline := t, kind := k }

theorem witness_SynchronisationActs_delays :
    delayUsed rdy .west < 960 ∧ delayUsed { rdy with delays := List.replicate 960 (delayed 5 (.delay ⟨1, 0, 0⟩)) } .west = 960 ∧
    ([delayed 4 (.delay ⟨1, 0, 0⟩), delayed 5 (.delay ⟨1, 0, 1⟩)].Pairwise (fun a b => a.deadline ≤ b.deadline)) ∧
    (let s := { onInst rdy (.rim .west) (going (word 3 []) []) with delays := [delayed 5 (.delay ⟨1, 0, 0⟩)] }
     (s.delays.find? fun d => d.half == .west) = some (delayed 5 (.delay ⟨1, 0, 0⟩)) ∧ alignUp 5 s.power.config.tickNs ≤ s.now ∧
     delayInst { s with delays := [] } .west ⟨1, 0, 0⟩ = some (.rim .west) ∧ s.now < alignUp (10 ^ 12 + 1) s.power.config.tickNs) ∧
    (delayed 5 (.timeout ⟨1, 0, 0⟩)).kind = .timeout ⟨1, 0, 0⟩ ∧
    (let d : DelayWait := { half := .west, ref := ⟨1, 0, 0⟩, deadline := 3, isTimeout := false }
     (({ rdy with delayWaits := [d] } : State).delayWaits.find? fun d => d.half == .west) = some d) ∧
    (let w := word 1 [(4, 0x80), (8, 5)]
     let t := { task with timedOut := true }
     let l := { lst with tasks := [t] }
     let s := { withMem rdy (listBytes w) with lists := [l] }
     ((readyTasks s (.rim .west)).find? fun p => match p.1.tasks[p.2]? with | some t => t.timedOut | none => false) = some (l, 0) ∧
     l.tasks[0]? = some t ∧ findCtx s l.sess = some ctx ∧ ((nextOf s ctx l t (.rim .west)).map fun p => (p.1, gives p.2 w)) = some (0, true) ∧
     cmdOpcode w = 1 ∧ waitsHold ctx w = false ∧ waitsHold ctx (word 1 []) = true) := by
  decide +kernel

/-- A fan-out record at 0x10000: fan-outs of 3 in the first hop, room for 64 nodes, a block of 64 KiB. -/
def fanOut (k : Nat) : List Byte :=
  leBytes 2 k ++ List.replicate 0x22 0 ++ leBytes 4 64 ++ List.replicate 8 0 ++ leBytes 8 0x10000 ++ List.replicate 8 0

/-- A graph whose offsets are all zero, so that no node has a neighbour. -/
def leaf : Graph := { graph with offsets := 0x40000, neighbours := 0x50000 }

def seeds (n : Nat) : BitVec 512 := mat 0x60000 0 2 n 4 8 0 0

def sample (fs : List (Nat × Nat)) (n : Nat) : Running := { going (word 0x30 fs) [(0x18, seeds n)] with }

def sampleFields : List (Nat × Nat) := [(0x10, 3), (0x20, 0x10000 + 1 <<< 48), (0x28, 0x80000), (0x18, 0x70000)]

def sampling (g : Graph) (k : Nat) (r : Running) : State :=
  onInst (withMem { rdy with contexts := [{ full with graphs := [g] }] } (fanOut k)) (.sampler .west) r

theorem sampling_runs (g : Graph) (k n : Nat) (fs : List (Nat × Nat)) (h : cmdOpcode (word 0x30 fs) = 0x30) :
    Runs (sampling g k (sample fs n)) (.sampler .west) (fun w => cmdOpcode w == 0x30) (sample fs n) { full with graphs := [g] } :=
  runs_on (.sampler .west) _ (sample fs n) rfl rfl rfl (by simp [sample, going, h]) rfl

theorem witness_SampleCommandsRun :
    (∀ g k n, Runs (sampling g k (sample sampleFields n)) (.sampler .west) (fun w => cmdOpcode w == 0x30) (sample sampleFields n) { full with graphs := [g] }) ∧
    Runs (sampling leaf 3 (sample [] 1)) (.sampler .west) (fun w => cmdOpcode w == 0x30) (sample [] 1) { full with graphs := [leaf] } ∧
    ¬ (1 ≤ mHops (word 0x30 [])) ∧
    (let w := word 0x30 sampleFields
     1 ≤ mHops w ∧ mHops w ≤ 8 ∧ mMode w ≤ 2 ∧ fld w 0x20 47 0 ≠ 0 ∧ fld w 0x20 47 0 % 64 = 0 ∧ fld w 0x28 47 0 ≠ 0 ∧ fld w 0x28 47 0 % 64 = 0 ∧
     fld w 0x10 23 0 = 3) ∧
    (indexDesc (sample sampleFields 2) 0x18).isSome = true ∧ ((indexDesc (sample sampleFields 0) 0x18).map fun d => d.count 1) = some 0 ∧
    gives (readVa (sampling leaf 3 (sample sampleFields 2)) { full with graphs := [leaf] } .rd 0x10000 64) (fanOut 3) = true ∧
    fanOutOk { full with graphs := [leaf] } (word 0x30 sampleFields) leaf (decodeFanOut 1 (fanOut 3)) = true ∧
    fanOutOk { full with graphs := [leaf] } (word 0x30 sampleFields) leaf (decodeFanOut 1 (fanOut 0)) = false :=
  ⟨fun g k n => sampling_runs g k n _ (by decide +kernel), sampling_runs _ _ _ _ (by decide +kernel), by decide +kernel⟩

/-- Sampling at the leaf graph ends with a block; with a graph whose nodes lie at another module it asks their owner. -/
theorem witness_SampleCommandsRun_hops :
    (let c := { full with graphs := [leaf] }
     let s := sampling leaf 3 (sample sampleFields 2)
     let f := decodeFanOut 1 (fanOut 3)
     let x : Expander := { st := s, c := c, g := leaf, gen := { key := 0, bases := List.replicate 32 0 }, mode := 0, salt := f.salt, step := 0,
                           aliases := f.aliases, coil := none, withWeights := f.ew }
     let b0 := numberSeeds s .west f leaf (myNumber s) [0, 0] { used := 0x240 + 8 * f.limit }
     (match indexDesc (sample sampleFields 2) 0x18 with | some d => gives (readSeeds s c d) [0, 0] | none => false) = true ∧
     (findProgress s ⟨1, 0, 0⟩).isSome = true ∧
     (match sampleHops x .west f ⟨1, 0, 0⟩ (myNumber s) f.ks 1 { b0 with ends := [b0.nodes.length] } with
      | .ok (.inl b) => good (writeBlock s c (sample sampleFields 2) (.sampler .west) 0x4000 2 f b)
      | _ => false) = true) ∧
    (let away := { leaf with ownership := some [{ first := 0, owner := 1, replicated := false, unowned := false, localBase := 0 }] }
     let c := { full with graphs := [away] }
     let s := { sampling away 3 (sample sampleFields 2) with fabric := { dims := [2, 1, 1], ports := [{ num := 0, state := .up, credits := fullCredits }], links := [(1, 1)] } }
     let f := { decodeFanOut 1 (fanOut 3) with group := 0x800001 }
     let x : Expander := { st := s, c := c, g := away, gen := { key := 0, bases := List.replicate 32 0 }, mode := 0, salt := f.salt, step := 0,
                           aliases := f.aliases, coil := none, withWeights := f.ew }
     let b0 := numberSeeds s .west f away (myNumber s) [0, 0] { used := 0x240 + 8 * f.limit }
     (match sampleHops x .west f ⟨1, 0, 0⟩ (myNumber s) f.ks 1 { b0 with ends := [b0.nodes.length] } with
      | .ok (.inr (hop, ms)) => good (askOwners (markStarted s (.sampler .west) ⟨1, 0, 0⟩) c (sample sampleFields 2) .west grp f hop (nthD 0 f.ks (hop - 1)) ms)
      | _ => false) = true) := by
  decide +kernel

/-! ### Packets, coils and Splints -/

/-- A packet of the group from module 1, for this module. -/
def pkt (type : Byte) (data : List Byte) : Packet :=
  { type := type, last := true, sig := false, srcMod := 1, dstMod := 0, incarn := 0, jobTag := 6, groupId := 2, stream := 0, msg := 3, index := 0, packets := 1,
    step := 0, a := 0, b := 0, data := data }

/-- A group of two modules, this one and module 1. -/
def pair : Group := { grp with extent := 1, members := [0, 1], joined := [0, 1] }

/-- A member of an installation of two along the first dimension, its port towards module 1 UP. -/
def net (c : Context) : State :=
  { rdy with
    contexts := [c]
    fabric := { dims := [2, 1, 1], links := [(1, 0x111)], peers := [(1, 0)],
                ports := (List.range 12).map fun n => { num := n, state := .up, peer := 1, lanes := 0xF, credits := fullCredits } } }

def member : Context := { full with groups := [pair] }

theorem arrives_net {c : Context} {g : Group} (p : Packet) (ty : Nat) (ht : p.type.toNat = ty) (hd : p.dstMod = 0) (hi : p.incarn = 0)
    (hg : (c.groups.find? fun g => g.gid == p.groupId.toNat && g.jobTag == p.jobTag) = some g) : Arrives (net c) p ty c g := by
  refine ⟨ht, by rw [hd]; rfl, ?_, by rw [hi]; rfl⟩
  simp [groupOfPacket, takePacket, net, hg]

/-- A context that is resident takes its packet at once. -/
theorem wakes_net (c : Context) (p : Packet) (hs : c.slot.isSome = true) (hc : c.sess = 0x1000) :
    ∃ t c', Wakes (net c) p c t c' ∧ t.fabric.received = (net c).fabric.received.erase p := by
  refine ⟨setCtx (takePacket (net c) p) c.sess fun d => { d with activeAt := (net c).now }, { c with activeAt := (net c).now }, ⟨?_, ?_⟩, rfl⟩
  · simp [activateByPacket, activate, takePacket, net, findCtx, hc, hs]
  · simp [takePacket, net, findCtx, hc, setCtx, mapIf]

theorem witness_SampleCommandsRun_packets :
    (let g := { leaf with ownership := some [], mapOrder := 0 }
     let c := { member with graphs := [g] }
     let p := pkt 0x08 (leBytes 8 0)
     Arrives (net c) p 0x08 c pair ∧ ∃ t c1, Wakes (net c) p c t c1 ∧ samplerFenced t = false ∧ servedGraph c1 pair = some g) ∧
    (let p := pkt 0x09 (List.replicate 64 0)
     let q : RemoteReq := { msg := 3, ref := ⟨1, 0, 0⟩, sess := 0x1000, group := 0x800001, type := 0x08, hop := 1, items := [0], peer := 1, targetIncarn := 0,
                            sentAt := 0, stopped := false }
     let s := { net member with remoteReqs := [q] }
     Arrives s p 0x09 member pair ∧ wholeMessage (takePacket s p) p = some (List.replicate 64 0, takePacket s p) ∧
     ((takePacket s p).remoteReqs.find? fun q => q.sess == member.sess && q.type == 0x08 && q.msg == p.msg.toNat && q.peer == p.srcMod.toNat) = some q ∧
     q.stopped = false ∧ ({ q with stopped := true }).stopped = true) :=
  ⟨⟨arrives_net _ _ rfl rfl rfl rfl, _, _, ⟨rfl, rfl⟩, rfl, rfl⟩, ⟨rfl, rfl, rfl, rfl⟩, rfl, rfl, rfl, rfl⟩

def leafExpander : Expander :=
  { st := rdy, c := ctx, g := leaf, gen := { key := 0, bases := List.replicate 32 0 }, mode := 1, salt := 0, step := 0, aliases := 0, coil := none, withWeights := false }

theorem witness_SampledBlockIsWellFormed :
    (fp32 (0x3F800000 : U32)).isFin = true ∧ (fp32 (0x3F800000 : U32)).isNeg = false ∧ (3 : Nat) ≠ 0xFFFF ∧
    gives (drawAlias leafExpander 0x10000 1 1 (fun _ => 0) 3 0 [] 0) ([0], 0) = true := by
  decide +kernel

/-! A core that runs one instruction of a coil. -/

def job : SpJob :=
  { ref := ⟨1, 0, 0⟩, sess := 0x1000, opcode := 0x22, step := 0, chunks := rangeChunks 4 256, westEnd := 4, outstanding := [], done := [], touched := [],
    parts := [], sums := [], contribsDue := 0, lastClaim := 0, words := [], bags := [] }

def chunk0 : Chunk := { newChunk 0 0 4 with state := .claimed { half := .west, idx := 3 } }

def core0 (regs : List U64) : Core :=
  { id := { half := .west, idx := 3 }, job := ⟨1, 0, 0⟩, chunk := 0, coil := 9, regs := regs, pc := 0, executed := 0, tile := none, closed := none, rowBytes := 0, tileSeq := 0 }

def coilCtx (w : U32) : Context := { member with coils := [{ handle := 9, cls := 0, code := [w] }], pipes := [] }

def running0 (pipe : Nat) : Running := { going (word 0x22 [(0x10, 9), (0x20, 0x20000 + pipe <<< 48)]) [] with started := true }

def coreState (w : U32) (regs : List U64) (pipe : Nat) : State :=
  { onInst { rdy with contexts := [coilCtx w] } (.splints .west) (running0 pipe) with
    jobs := [{ job with chunks := [chunk0] }], cores := [core0 regs] }

theorem core_at (w : U32) (i : CoilInstr) (regs : List U64) (pipe : Nat) (h : decodeCoil w = some i) :
    CoreAt (coreState w regs pipe) { half := .west, idx := 3 } i (core0 regs) { job with chunks := [chunk0] } (running0 pipe) chunk0 (coilCtx w) := by
  refine ⟨rfl, rfl, rfl, rfl, rfl, ⟨_, rfl, ?_⟩, Nat.zero_lt_succ _⟩
  simp [Coil.at, h, core0]

def regs0 : List U64 := (List.range 32).map fun i => BitVec.ofNat 64 (0x10000 + 8 * i)

/-- Every row of the coil's ALU, immediate operations, loads and branches has an instruction; the addresses that the loads use are aligned and mapped, and
an odd one is not aligned. -/
theorem witness_CoilInstructionsRun :
    (∀ (w : U32) (i : CoilInstr), decodeCoil w = some i → CoreAt (coreState w regs0 0) { half := .west, idx := 3 } i (core0 regs0) { job with chunks := [chunk0] }
      (running0 0) chunk0 (coilCtx w)) ∧
    (findProgress (coreState 0 regs0 0) (running0 0).ref).isSome = true ∧
    (∀ q ∈ aluRows, decodeCoil (BitVec.ofNat 32 (0x01 <<< 26 + 1 <<< 21 + 2 <<< 16 + 3 <<< 11 + q.1)) = some (.alu q.1 1 2 3)) ∧
    (∀ q ∈ immRows, decodeCoil (BitVec.ofNat 32 (q.1 <<< 26 + 1 <<< 21 + 2 <<< 16 + 0xFFFE)) = some (.imm q.1 1 2 0xFFFE)) ∧
    (∀ q ∈ loadRows, decodeCoil (BitVec.ofNat 32 (q.1 <<< 26 + 1 <<< 21 + 2 <<< 16 + 8)) = some (.ld q.1 1 2 8) ∧
      (getReg regs0 2 + (8 : U16).signExtend 64).toNat % 2 ^ (q.1 - 0x10) = 0 ∧ (getReg regs0 2 + (8 : U16).signExtend 64).toNat < 2 ^ 48 ∧
      good (readVa (coreState 0 regs0 0) (coilCtx 0) .rd (getReg regs0 2 + (8 : U16).signExtend 64).toNat (2 ^ (q.1 - 0x10))) = true) ∧
    (getReg regs0 2 + (3 : U16).signExtend 64).toNat % 2 ^ (0x11 - 0x10) ≠ 0 ∧ 2 ^ 48 ≤ (getReg (regs0.set 2 (2 ^ 48)) 2 + (0 : U16).signExtend 64).toNat ∧
    (∀ q ∈ branchRows, decodeCoil (BitVec.ofNat 32 (q.1 <<< 26 + 1 <<< 21 + 2 <<< 16)) = some (.branch q.1 1 2 0)) ∧
    decodeCoil (0x1E <<< 26) = some (.branch 0x1E 0 0 0) ∧ decodeCoil (BitVec.ofNat 32 (0x20 <<< 26 + 1 <<< 21 + 2 <<< 16 + 3 <<< 11 + 16)) = some (.rnd 1 2 3 16) ∧
    regs0.length = 32 := by
  refine ⟨fun w i h => core_at w i regs0 0 h, by decide +kernel⟩

def etileWord : U32 := BitVec.ofNat 32 (0x28 <<< 26 + 1 <<< 21 + 4 <<< 16 + 3 <<< 11 + 62)
def growWord (f : Nat) : U32 := BitVec.ofNat 32 (0x29 <<< 26 + 2 <<< 16 + 3 <<< 11 + f)

theorem witness_CoilEmissionsRun :
    decodeCoil etileWord = some (.etile 1 4 3 62) ∧ decodeCoil (growWord 62) = some (.grow 2 3 62) ∧ decodeCoil (0x2A <<< 26) = some .eclose ∧
    decodeCoil (0x3F <<< 26) = some .fin ∧
    outPipe (running0 3).word = 3 ∧ outPipe (running0 0).word = 0 ∧
    (let c := { coilCtx etileWord with pipes := [{ n := 3, producer := some ⟨1, 0, 0⟩, consumer := some ⟨1, 0, 1⟩, producerDone := false, consumerDone := false, tiles := [] }] }
     let s := { coreState etileWord regs0 3 with contexts := [c] }
     pipeReady c 3 = true ∧ slotsHeld s { half := .west, idx := 3 } + ceilDiv (emitBytes 62) 512 ≤ 1024 ∧
     good (coilEtile s c (running0 3) (core0 regs0) chunk0 (getReg regs0 1) (getReg regs0 4) (getReg regs0 3) 62) = true) ∧
    (let s := coreState (growWord 62) regs0 0
     let c := coilCtx (growWord 62)
     let i : Issue := { ref := ⟨1, 0, 0⟩, sess := 0x1000, splint := { half := .west, idx := 3 }, step := 0, position := 0, dest := .memory 0x10018 }
     emitByPool 62 = false ∧ good (issueAddress s c i 0x10000 (emitBytes 62)) = true ∧ emitByPool 63 = true ∧
     good (issuePool s c i (4 * 2 ^ 40 + 1) (emitBytes 63)) = true) ∧
    (core0 regs0).tile = none := by
  decide +kernel

theorem witness_ChunksCoverEveryEdgeOnce :
    ([0, 300, 300, 301] : List Nat) ≠ [] ∧ [0, 300, 300, 301].Pairwise (· ≤ ·) ∧ (0 : Nat) < 256 ∧
    ((cutChunks [0, 300, 300, 301]).map fun k => (k.split, k.first, k.count)) = [(true, 0, 256), (true, 256, 44), (false, 300, 1)] := by
  decide +kernel

/-! ### Splint commands and the requests of the Splints -/

def gatherWord : BitVec 512 := word 0x20 [(0x20, 128)]
def gatherDescs : List (Nat × BitVec 512) := [(0x10, seeds 3), (0x18, mat 0x90000 0 32 3 4 128 0 0)]
def pooledWord : BitVec 512 := word 0x20 [(0x10, 2 ^ 48), (0x20, 128 + 2 ^ 16)]
def pooledDescs : List (Nat × BitVec 512) := [(0x10, seeds 3), (0x18, mat 0x90000 0 32 1 4 128 0 0), (0x28, vec 0xA0000 0 2 4)]
def scatterWord : BitVec 512 := word 0x21 [(0x20, 0xB0000), (0x28, 0xC0000)]
def scatterDescs : List (Nat × BitVec 512) := [(0x10, mat 0x90000 0 32 3 4 128 0 0), (0x18, seeds 3)]
def runWord : BitVec 512 := word 0x22 [(0x10, 0x800002), (0x20, 0x10000)]

def splintRun (w : BitVec 512) (ds : List (Nat × BitVec 512)) : State := onInst { rdy with contexts := [full] } (.splints .west) (going w ds)

theorem splint_runs (w : BitVec 512) (ds : List (Nat × BitVec 512)) (op : Nat) (h : cmdOpcode w = op) :
    Runs (splintRun w ds) (.splints .west) (fun w => cmdOpcode w == op) (going w ds) full :=
  runs_on (.splints .west) _ (going w ds) rfl rfl rfl (by simp [going, h]) rfl

theorem splint_joins (w : BitVec 512) (ds : List (Nat × BitVec 512)) (op : Nat) (h : cmdOpcode w = op) :
    Runs { splintRun w ds with jobs := [job] } (.splints .west) (fun w => cmdOpcode w == op) (going w ds) full :=
  splint_runs w ds op h

theorem witness_SplintCommandsRun :
    (∀ ds, Runs (splintRun gatherWord ds) (.splints .west) (fun w => cmdOpcode w == 0x20) (going gatherWord ds) full) ∧
    (∀ ds, Runs { splintRun gatherWord ds with jobs := [job] } (.splints .west) (fun w => cmdOpcode w == 0x20) (going gatherWord ds) full) ∧
    (∀ ds, Runs (splintRun pooledWord ds) (.splints .west) (fun w => cmdOpcode w == 0x20) (going pooledWord ds) full) ∧
    (∀ ds, Runs (splintRun scatterWord ds) (.splints .west) (fun w => cmdOpcode w == 0x21) (going scatterWord ds) full) ∧
    Runs (splintRun runWord []) (.splints .west) (fun w => cmdOpcode w == 0x22) (going runWord []) full ∧
    Runs { splintRun runWord [] with jobs := [job] } (.splints .west) (fun w => cmdOpcode w == 0x22) (going runWord []) full :=
  ⟨fun ds => splint_runs _ ds _ (by decide +kernel), fun ds => splint_joins _ ds _ (by decide +kernel), fun ds => splint_runs _ ds _ (by decide +kernel),
    fun ds => splint_runs _ ds _ (by decide +kernel), splint_runs _ [] _ (by decide +kernel), splint_joins _ [] _ (by decide +kernel)⟩

theorem witness_SplintCommandsRun_fields :
    (gatherOk (going gatherWord []) = false ∧ gatherOk (going gatherWord gatherDescs) = true ∧ gPooled gatherWord = false ∧
      (findJob { splintRun gatherWord gatherDescs with jobs := [job] } ⟨1, 0, 0⟩).isSome = true ∧ findJob (splintRun gatherWord gatherDescs) ⟨1, 0, 0⟩ = none ∧
      (indexDesc (going gatherWord gatherDescs) 0x10).isSome = true) ∧
    (gatherOk (going pooledWord pooledDescs) = true ∧ gPooled pooledWord = true ∧
      (match indexDesc (going pooledWord pooledDescs) 0x10, (going pooledWord pooledDescs).desc 0x28, (going pooledWord pooledDescs).desc 0x18 with
       | some ix, some b, some d =>
         (match planBags (splintRun pooledWord pooledDescs) full (going pooledWord pooledDescs) (.splints .west) ix b d with
          | .ok (s1, j) => good (writeEmptyBags (finishJob (markStarted { s1 with jobs := s1.jobs ++ [j] } (.splints .west) ⟨1, 0, 0⟩) ⟨1, 0, 0⟩) full
              (going pooledWord pooledDescs) (.splints .west) d)
          | .error _ => false)
       | _, _, _ => false) = true) ∧
    (scatterOk (going scatterWord []) = false ∧ scatterOk (going scatterWord scatterDescs) = true ∧ inPipe scatterWord = 0 ∧
      findJob (splintRun scatterWord scatterDescs) ⟨1, 0, 0⟩ = none) ∧
    good (planRun (withMem (splintRun runWord []) (leBytes 8 0 ++ leBytes 4 300 ++ leBytes 4 1)) full (going runWord []) (.splints .west)) = true ∧
    good (planRun (splintRun (word 0x22 []) []) full (going (word 0x22 []) []) (.splints .west)) = false := by
  decide +kernel

def claiming (op : Nat) (w : BitVec 512) (ds : List (Nat × BitVec 512)) (k : Chunk) : State :=
  { onInst { rdy with contexts := [full] } (.splints .west) { going w ds with started := true } with jobs := [{ job with opcode := op, chunks := [k] }] }

theorem witness_SplintCommandsRun_chunks :
    (let go := fun (op : Nat) (w : BitVec 512) (ds : List (Nat × BitVec 512)) =>
       let s := claiming op w ds (newChunk 0 0 3)
       runningOfRef s ⟨1, 0, 0⟩ = some { going w ds with started := true } ∧ findCtx s 0x1000 = some full ∧ splintWorks s { half := .west, idx := 3 } = true ∧
       claimable s { half := .west, idx := 3 } = some ({ job with opcode := op, chunks := [newChunk 0 0 3] }, newChunk 0 0 3)
     go 0x22 runWord [] ∧ go 0x20 gatherWord gatherDescs ∧ go 0x21 scatterWord scatterDescs) ∧
    inPipe scatterWord = 0 ∧
    good (formChunk (claiming 0x21 scatterWord scatterDescs (newChunk 0 0 3)) full { going scatterWord scatterDescs with started := true }
      { half := .west, idx := 3 } (newChunk 0 0 3)) = true ∧
    (let k := { newChunk 0 0 3 with state := .finished { half := .west, idx := 3 } }
     let s := claiming 0x21 scatterWord scatterDescs k
     (s.jobs.findSome? fun j => if j.opcode = 0x21 then (applicable j .west).map fun p => (j, p) else none) =
       some ({ job with opcode := 0x21, chunks := [k] }, k, { half := .west, idx := 3 })) := by
  decide +kernel

def read0 : Request :=
  { id := 1, ref := ⟨1, 0, 0⟩, sess := 0x1000, splint := { half := .west, idx := 3 }, state := .queued, merging := false, table := 0, row := 0, offset := 0,
    bytes := 32, phys := 2 * spaceSize, step := 0, half := .west, pc := stripedChannel rdy.hbm 0, issuedAt := 0, owner := 0, group := 0, targetIncarn := 0,
    stopped := false, overwritten := false, position := 0, dest := .memory 0x10000, data := List.replicate 32 0, poisoned := false }

theorem witness_RequestsAreServed :
    (let n := stripedChannel rdy.hbm 0
     let s := { rdy with requests := [read0, { read0 with id := 2 }] }
     n < 512 ∧ pcServes s n = true ∧ (windowNext (fillWindow s n) n).isSome = true ∧ windowNext (fillWindow rdy n) n = none ∧
     (let old := { rdy with requests := [{ read0 with state := .sorting }] }
      (inWindow old n).any (fun q => hbmTokensFor old q && decide (q.issuedAt + 1000 ≤ old.now)) = true)) ∧
    (let s := { onInst rdy (.splints .west) (running0 0) with requests := [{ read0 with state := .memory }] }
     (s.requests.find? fun r => r.id == 1 && r.state == .memory) = some { read0 with state := .memory } ∧ (sectorOf s.hbm read0.phys).isSome = true ∧
     poisonIn s.hbm read0.phys read0.bytes = none ∧
     (match sectorOf s.hbm read0.phys with
      | some (pc, sec) => (poisonIn (poisonSector s pc sec).hbm read0.phys read0.bytes).isSome
      | none => false) = true) ∧
    (let s := { rdy with requests := [{ read0 with state := .returned }] }
     (s.requests.find? fun r => r.id == 1 && (r.state == .returned || r.state == .basket)) = some { read0 with state := .returned }) := by
  decide +kernel

/-! ### The Weave -/

/-- One weight tile of 32 by 32 BF16 elements. -/
def weights : BitVec 512 :=
  BitVec.ofNat 512 (0x30000 + 1 <<< 48 + 4 <<< 52 + 32 <<< 64 + 32 <<< 88 + 1 <<< 112 + 1 <<< 136 + 64 <<< 232 + 31 <<< 392 + 31 <<< 400)

def rowA : BitVec 512 := mat 0x90000 1 32 1 0 64 31 31
def outC : BitVec 512 := mat 0xA0000 0 32 1 0 128 31 31

def matmulWord (pipe : Nat) (aux : Nat) : BitVec 512 :=
  word 0x10 [(0x10, if pipe = 0 then 0x90000 else pipe <<< 48), (0x18, 0xB0000), (0x20, 0xC0000), (0x30, aux)]

def matmulDescs : List (Nat × BitVec 512) := [(0x10, rowA), (0x18, weights), (0x20, outC)]

def weaveRun (w : BitVec 512) (ds : List (Nat × BitVec 512)) : State := onInst rdy .weave (going w ds)

theorem weave_runs (s : State) (w : BitVec 512) (ds : List (Nat × BitVec 512)) (op : Nat) (h : cmdOpcode w = op) (he : s.engines = Engine.all)
    (hf : s.faults = {}) (hc : s.contexts = [ctx]) : Runs (onInst s .weave (going w ds)) .weave (fun w => cmdOpcode w == op) (going w ds) ctx :=
  runs_on .weave _ (going w ds) he hf (by simp [findCtx, hc, going, ctx]) (by simp [going, h]) rfl

/-- Plan, scales and extension of a matrix product are good, and its operands fit. -/
def matmulGood (s : State) (r : Running) : Bool :=
  match weavePlan s ctx r 0 0 (fld r.word 0x20 50 48), readScales s ctx 0, readExt s ctx (fld r.word 0x18 47 0) with
  | .ok p, .ok _, .ok ext => (wstream weights ext false).ok && p.fits (wstream weights ext false).nt && !p.exit.zmap && decide (p.n 1 ≤ 1024)
  | _, _, _ => false

/-- A piece operand of two pieces along the rows of A, whose semaphore has not yet come so far. -/
def pieceRecord : List Byte := leBytes 16 0 ++ leBytes 2 1 ++ leBytes 2 2 ++ leBytes 4 5 ++ leBytes 4 7

theorem witness_WeaveCommandsStart :
    (∀ p aux, cmdOpcode (matmulWord p aux) = 0x10 → Runs (weaveRun (matmulWord p aux) matmulDescs) .weave (fun w => cmdOpcode w == 0x10)
      (going (matmulWord p aux) matmulDescs) ctx) ∧
    cmdOpcode (matmulWord 3 0) = 0x10 ∧ cmdOpcode (matmulWord 0 0) = 0x10 ∧
    good (startMatmul .clean (weaveRun (matmulWord 3 0) []) ctx (going (matmulWord 3 0) [])) = false ∧
    matmulGood (weaveRun (matmulWord 3 0) matmulDescs) (going (matmulWord 3 0) matmulDescs) = true ∧
    fld (matmulWord 3 0) 0x10 50 48 ≠ 0 ∧ fld (matmulWord 3 0) 0x10 47 0 = 0 ∧ cmdChain (matmulWord 3 0) = false ∧
    chainOf (weaveRun (matmulWord 3 0) matmulDescs) ⟨1, 0, 0⟩ = none ∧
    matmulGood (weaveRun (matmulWord 0 0) matmulDescs) (going (matmulWord 0 0) matmulDescs) = true ∧ fld (matmulWord 0 0) 0x10 50 48 = 0 :=
  ⟨fun p aux h => weave_runs _ _ _ _ h rfl rfl rfl, by decide +kernel⟩

/-- A product of zeros from memory is computed at once, chained or not; a piece operand that is not there is waited for. -/
theorem witness_WeaveCommandsStart_memory :
    good (startMatmul .clean (weaveRun (matmulWord 0 0) matmulDescs) ctx (going (matmulWord 0 0) matmulDescs)) = true ∧
    (match startMatmul .clean (weaveRun (matmulWord 0 0 ||| 1 <<< 9) matmulDescs) ctx (going (matmulWord 0 0 ||| 1 <<< 9) matmulDescs) with
     | .ok t => !t.weave.chains.isEmpty | .error _ => false) = true ∧ cmdChain (matmulWord 0 0 ||| 1 <<< 9) = true := by
  decide +kernel

/-- The same state with bytes at a place of striped memory. -/
def bytesAt (s : State) (va : Nat) (bs : List Byte) : State := { s with mem := writeCells s.mem (2 * spaceSize + (va - 0x10000)) bs }

theorem witness_WeaveCommandsStart_pieces :
    (let s := bytesAt (weaveRun (matmulWord 0 0x70000) matmulDescs) 0x70000 pieceRecord
     let r := going (matmulWord 0 0x70000) matmulDescs
     match weavePlan s ctx r 0 0 0 with
     | .ok p => !piecesHere ctx p.aux && good (startMatmul .clean { s with contexts := [ctx] } ctx { r with descs := [(0x10, mat 0x90000 1 32 64 0 64 31 31), (0x18, weights), (0x20, mat 0xA0000 0 32 64 0 128 31 31)] })
     | .error _ => false) = true := by
  decide +kernel

def edgeWord (out : Nat) : BitVec 512 := word 0x11 [(0x10, 1 + 16 * out), (0x18, 0xB0000), (0x20, if out = 0 then 0xC0000 else 1 <<< 52)]

/-- A weight table whose relation 0 has one tile of BF16 weights, its A in BF16. -/
def edgeMem (s : State) : State :=
  bytesAt (bytesAt s 0xB0000 (leBytes 8 0xD0000)) 0xD0000 (leBytes 64 weights.toNat ++ leBytes 0x14 0 ++ [1])

def edgeRow (dest : U32) : TileRow := { dest := dest, edge := 0, data := some (List.replicate 64 0) }

def edgeTile0 (fmt : Nat) : Tile :=
  { uid := 3, chunk := 0, seq := 0, last := true, split := false, relation := 0, attempt := 0, colBase := 0, rowElems := 32, splitSeq := 0, destFirst := 0,
    destCount := 1, splitCount := 1, fmt := fmt, raw := false, rows := [edgeRow 0] }

def edgePipes (tiles : List Tile) : List Pipe :=
  [{ n := 1, producer := some ⟨1, 0, 7⟩, consumer := some ⟨1, 0, 0⟩, producerDone := true, consumerDone := false, tiles := tiles }]

def edgeRels : List (Nat × BitVec 512 × BitVec 512) := [(0, weights, BitVec.ofNat 512 (1 <<< 160))]

theorem witness_WeaveCommandsStart_edge :
    (∀ n, cmdOpcode (edgeWord n) = 0x11 → Runs (onInst (edgeMem rdy) .weave (going (edgeWord n) [(0x20, outC)])) .weave (fun w => cmdOpcode w == 0x11)
      (going (edgeWord n) [(0x20, outC)]) ctx) ∧
    cmdOpcode (edgeWord 0) = 0x11 :=
  ⟨fun n h => weave_runs (edgeMem rdy) (edgeWord n) [(0x20, outC)] 0x11 h rfl rfl rfl, by decide +kernel⟩

theorem witness_WeaveCommandsStart_edgeFields :
    cmdChain (edgeWord 0) = false ∧ 1 ≤ fld (edgeWord 0) 0x10 2 0 ∧ fld (edgeWord 0) 0x18 47 0 % 64 = 0 ∧
    (let s := onInst (edgeMem rdy) .weave (going (edgeWord 0) [(0x20, outC)])
     let r := going (edgeWord 0) [(0x20, outC)]
     (match weavePlan s ctx r 0 0 (fld r.word 0x10 6 4) with
      | .ok p => !p.exit.zmap && p.fits 1 && decide (p.n 1 ≤ 1024)
      | _ => false) = true ∧
     good (readScales s ctx (fld r.word 0x28 47 0)) = true ∧ good (startEdge s ctx { r with descs := [] }) = false) := by
  decide +kernel

theorem leNat_zeros (n : Nat) : leNat (List.replicate n 0#8) = 0 := by
  induction n with
  | zero => rfl
  | succ n ih => simp [List.replicate_succ, leNat, ih]

theorem field_zeros (xs : List Byte) (n off w : Nat) (h : xs.length ≤ off) : fieldAt (xs ++ List.replicate n 0) off w = 0 := by
  simp [fieldAt, List.drop_append, List.drop_eq_nil_of_le h, leNat_zeros]

theorem relations_none (s : State) (c : Context) (tr : Bool) (tab : List Byte) (l : List Nat) (h : ∀ j ∈ l, fieldAt tab (8 * j) 6 = 0) :
    readRelations s c tr tab l = .ok [] := by
  induction l with
  | nil => rfl
  | cons j l ih => simp [readRelations, h j (by simp), ih fun k hk => h k (List.mem_cons_of_mem j hk)]

theorem relations_one (s : State) (c : Context) (tr : Bool) (tab : List Byte) (j : Nat) (l : List Nat) (h : ∀ j ∈ l, fieldAt tab (8 * j) 6 = 0) :
    readRelations s c tr tab (j :: l) = readRelations s c tr tab [j] := by
  simp only [readRelations, relations_none s c tr tab l h]

def edgeTable : List Byte := leBytes 8 0xD0000 ++ List.replicate 2040 0

theorem witness_WeaveCommandsStart_edgeTable :
    readVa (edgeMem rdy) ctx .rd 0xB0000 2048 = .ok edgeTable ∧ readRelations (edgeMem rdy) ctx false edgeTable (List.range 256) = .ok edgeRels := by
  refine ⟨gives_eq (by decide +kernel), ?_⟩
  rw [List.range_succ_eq_map, relations_one]
  · exact gives_eq (by decide +kernel)
  · intro j hj
    obtain ⟨k, -, rfl⟩ := List.mem_map.mp hj
    exact field_zeros _ _ _ _ (by rw [show (leBytes 8 0xD0000).length = 8 by decide]; omega)

theorem witness_WeaveCommandsStart_edgeTiles :
    (let r := { going (edgeWord 0) [(0x20, outC)] with started := true }
     let run := newRun r (0x3F800000, 0x3F800000, 0x3F800000) edgeRels
     let go := fun (tiles : List Tile) =>
       let c := { ctx with pipes := edgePipes tiles }
       let s := { onInst { rdy with contexts := [c] } .weave r with weave := { runs := [run] } }
       edgeRunning s = some r ∧ findCtx s r.sess = some c ∧ (s.weave.runs.find? fun x => x.ref == r.ref) = some run ∧ outPipe r.word = 0 ∧ run.testing = false
     go [] ∧ go [edgeTile0 1] ∧ go [edgeTile0 2] ∧
     (let c := { ctx with pipes := edgePipes [] }
      takeTile rdy c (inPipe r.word) = none) ∧
     (let c := { ctx with pipes := edgePipes [edgeTile0 1] }
      let s := { onInst { rdy with contexts := [c] } .weave r with weave := { runs := [run] } }
      match takeTile s c (inPipe r.word) with
      | some (t, s1) => (findCtx s1 r.sess).isSome && good (edgeTile s1 { ctx with pipes := edgePipes [] } r run t .clean)
      | none => false) = true ∧
     (let c := { ctx with pipes := edgePipes [edgeTile0 2] }
      let s := { onInst { rdy with contexts := [c] } .weave r with weave := { runs := [run] } }
      match takeTile s c (inPipe r.word) with
      | some (t, s1) => (findCtx s1 r.sess).isSome && !good (edgeTile s1 { ctx with pipes := edgePipes [] } r run t .clean)
      | none => false) = true) := by
  decide +kernel

theorem witness_WeaveCommandsEnd :
    (let go := fun (w : BitVec 512) (other : Bool) =>
       let r := { going w matmulDescs with started := true }
       let run := newRun r (0x3F800000, 0x3F800000, 0x3F800000) []
       let s := { onInst rdy .weave r with weave := { runs := [run], east := { doneSent := other } } }
       ((findEngine s .weave).running.find? fun r => r.started && (cmdOpcode r.word == 0x10 || cmdOpcode r.word == 0x11)) = some r ∧
       findCtx s r.sess = some ctx ∧ (s.weave.runs.find? fun x => x.ref == r.ref) = some run ∧ run.testing = false ∧ inPipe r.word = 0 ∧
       (columnsOf s Half.west.other).doneSent = other ∧ (findProgress s r.ref).isSome = true
     go (matmulWord 0 0) false ∧ go (matmulWord 0 0) true ∧ go (matmulWord 0 0 ||| (0xE0000 + 1 <<< 52) <<< 320) true) ∧
    (let w := matmulWord 0 0 ||| (0xE0000 + 1 <<< 52) <<< 320
     (exitOf w).conv = true ∧ fld w 0x28 47 0 = 0xE0000 ∧ cmdChain w = false ∧ good (mergeScale rdy ctx 0xE0000 0x3F800000 3) = true ∧
     (exitOf (matmulWord 0 0)).conv = false) := by
  decide +kernel

theorem witness_WeaveCommandsEnd_failures :
    (let busy := onInst rdy .weave { going (matmulWord 0 0) [] with started := true }
     weaveAtBoundary busy = false) ∧
    (let s := { rdy with weave := { pendingDisable := [(.west, 5)] } }
     weaveAtBoundary s = true ∧ s.weave.pendingDisable = (.west, 5) :: [] ∧ (columnsOf s .west).spare ≠ 5) ∧
    (let s := { rdy with weave := { west := { disabled := 0xF }, east := { disabled := 3 } } }
     disabledColumns s = 4 ∧ (columnsOf s .west).disabled.getLsbD 31 = false ∧ (columnsOf s .east).disabled.getLsbD 31 = false) ∧
    (let s := { rdy with weave := { pendingTest := [(.east, some ⟨1, 0, 0⟩)] } }
     (s.weave.pendingTest.find? fun t => t.1 == Half.east) = some (.east, some ⟨1, 0, 0⟩)) := by
  decide +kernel

/-! ### Rim, the optimiser and the step -/

def rimWord (op : Nat) (fs : List (Nat × Nat)) : BitVec 512 := word 0x40 ((0x20, op) :: fs)
def flat (base fmt n : Nat) : BitVec 512 := mat base fmt n 1 0 256 31 31
def flatDescs : List (Nat × BitVec 512) := [(0x10, flat 0x90000 0 4), (0x18, flat 0xA0000 0 4)]
def memory : List (Nat × Nat) := [(0x10, 0x80000), (0x18, 0x80040)]
def fromPipe : List (Nat × Nat) := [(0x10, 1 <<< 48), (0x18, 0x80040)]

theorem rim_runs (s : State) (c : Context) (w : BitVec 512) (ds : List (Nat × BitVec 512)) (sel : BitVec 512 → Bool) (h : sel w = true)
    (he : s.engines = Engine.all) (hf : s.faults = {}) (hc : s.contexts = [c]) (hs : c.sess = 0x1000) :
    Runs (onInst s (.rim .west) (going w ds)) (.rim .west) sel (going w ds) c :=
  runs_on (.rim .west) _ (going w ds) he hf (by simp [findCtx, hc, going, hs]) h rfl

theorem witness_RimOperationsRun :
    (∀ q ∈ rimRows, ∀ ds, Runs (onInst rdy (.rim .west) (going (rimWord q.1 memory) ds)) (.rim .west) (rimSel q.1) (going (rimWord q.1 memory) ds) ctx) ∧
    (∀ q ∈ rimRows, ∀ ds, Runs (onInst rdy (.rim .west) (going (rimWord q.1 fromPipe) ds)) (.rim .west) (rimSel q.1) (going (rimWord q.1 fromPipe) ds) ctx) := by
  have h : (rimRows.all fun q => rimSel q.1 (rimWord q.1 memory) && rimSel q.1 (rimWord q.1 fromPipe)) = true := by decide +kernel
  rw [List.all_eq_true] at h
  refine ⟨fun q hq ds => ?_, fun q hq ds => ?_⟩ <;> have := h q hq <;> rw [Bool.and_eq_true] at this
  · exact rim_runs rdy ctx _ ds _ this.1 rfl rfl rfl rfl
  · exact rim_runs rdy ctx _ ds _ this.2 rfl rfl rfl rfl

/-- An addition of zeros over memory, from a pipe, into a pipe with a consumer and without; a TEST; an addition without operands. -/
theorem witness_RimOperationsRun_fields :
    good (rimPlan (going (rimWord 0x10 []) []) (.rim .west)) = false ∧
    good (rimPlan (going (rimWord 0x10 fromPipe) [(0x18, flat 0xA0000 0 4)]) (.rim .west)) = true ∧ inPipe (rimWord 0x10 fromPipe) = 1 ∧
    (let w := rimWord 0x10 memory
     let r := going w flatDescs
     let s := onInst rdy (.rim .west) r
     inPipe w = 0 ∧ outPipe w = 0 ∧
     (match rimPlan r (.rim .west) with
      | .ok p => (match p.dout with
        | some d =>
          let es := halfElems d (bothHalves w) .west (blockUnit d)
          (match es.mapM fun e => rimValue s ctx r p e.1 e.2 (d.linear e.1 e.2) with
           | .ok vs => !es.isEmpty && good (storeElems s ctx .wr d false (Machine.Num.ofNat 1) ((es.zip vs).map fun x => (x.1, (fp32 x.2.1, Round.nearest))))
           | .error _ => false)
        | none => false)
      | .error _ => false) = true) ∧
    (let w := rimWord 0x10 [(0x10, 0x80000), (0x18, 3 <<< 48)]
     let r := going w [(0x10, flat 0x90000 0 4)]
     let c := { ctx with pipes := [{ n := 3, producer := some ⟨1, 0, 0⟩, consumer := some ⟨1, 0, 1⟩, producerDone := false, consumerDone := false, tiles := [] }] }
     let s := onInst { rdy with contexts := [c] } (.rim .west) r
     inPipe w = 0 ∧ outPipe w = 3 ∧ pipeReady ctx 3 = false ∧ pipeReady c 3 = true ∧
     (match rimPlan r (.rim .west) with
      | .ok p => (match p.din with | some d => good (rimToPipe s c r p .west d) | none => false)
      | .error _ => false) = true) ∧
    (let w := rimWord 0x300 [(0x10, 0x80000)]
     let r := going w [(0x10, flat 0x90000 0 4)]
     let s := onInst rdy (.rim .west) r
     inPipe w = 0 ∧ outPipe w = 0 ∧
     (match rimPlan r (.rim .west) with
      | .ok p => p.dout.isNone && (match p.din with
        | some d => good ((halfElems d (bothHalves w) .west (blockUnit d)).mapM fun e => rimValue s ctx r p e.1 e.2 0)
        | none => false)
      | .error _ => false) = true) := by
  decide +kernel

theorem witness_RimOperationsRun_values :
    (fp32 (0x3F800000 : U32)).lt Machine.Num.zero = false ∧ (fp32 (0xBF800000 : U32)).lt Machine.Num.zero = true ∧ fp32 (0x7FC00000 : U32) = .nan ∧
    (fp32 (0x3F800000 : U32)).isZero = false ∧ Machine.Num.zero.lt (fp32 (0x3F800000 : U32)) = true := by
  decide +kernel

def tileRun (w : BitVec 512) (ds : List (Nat × BitVec 512)) : Running := { going w ds with started := true }

def pipeOf (tiles : List Tile) (done : Bool) : Context :=
  { ctx with pipes := [{ n := 1, producer := some ⟨1, 0, 7⟩, consumer := some ⟨1, 0, 0⟩, producerDone := done, consumerDone := false, tiles := tiles }] }

def rowsTile (fmt : Nat) (raw : Bool) (n : Nat) : Tile := { edgeTile0 fmt with raw := raw, rows := [{ edgeRow 0 with data := some (List.replicate n 0) }] }

theorem witness_RimCommandsRun_tiles :
    (let r := tileRun (rimWord 0 fromPipe) [(0x18, flat 0xA0000 0 4)]
     let go := fun (tiles : List Tile) (done ok : Bool) =>
       let c := pipeOf tiles done
       let s := onInst { rdy with contexts := [c] } (.rim .west) r
       findCtx s r.sess = some c ∧
       ((findEngine s (.rim .west)).running.find? fun r => cmdOpcode r.word == 0x40 && inPipe r.word != 0 && r.started) = some r ∧ outPipe r.word = 0 ∧
       pipeEnded c (inPipe r.word) = (tiles.isEmpty && done) ∧
       (match takeTile s c (inPipe r.word) with
        | some (t, s1) => (match findCtx s1 r.sess with | some c1 => good (rimTileWork s1 c1 r .west t) == ok | none => false)
        | none => tiles.isEmpty) = true
     go [] true true ∧ go [rowsTile 0 false 16] false true ∧ go [rowsTile 0 true 16] false false ∧ go [rowsTile 0 false 64] false false ∧
     good (rimPlan r (.rim .west)) = true ∧ tileFits (decodeDesc (flat 0xA0000 0 4)) (rowsTile 0 false 64) = false) ∧
    (let r := tileRun (word 0x21 [(0x10, 1 <<< 48), (0x20, 0xB0000)]) []
     let go := fun (tiles : List Tile) (bad : Bool) =>
       let c := pipeOf tiles true
       let s := { onInst { rdy with contexts := [c] } (.splints .west) r with jobs := [job] }
       findCtx s r.sess = some c ∧
       ((findEngine s (.splints .west)).running.find? fun r => cmdOpcode r.word == 0x21 && inPipe r.word != 0 && r.started) = some r ∧
       (match takeTile s c (inPipe r.word) with
        | some (t, s1) => tileBad r.word t == bad && (findJob s1 r.ref).isSome
        | none => tiles.isEmpty) = true
     go [] true ∧ go [rowsTile 0 true 16] true ∧ go [rowsTile 0 false 16] false) := by
  decide +kernel

def record0 : List Byte := leBytes 4 0 ++ leBytes 4 5 ++ leBytes 2 0 ++ leBytes 2 1 ++ leBytes 2 4 ++ [16, 0]
def reduceWord (mode : Nat) : BitVec 512 := word 0x41 [(0x10, 0x20000), (0x18, 1), (0x28, mode)]
def weights2 : BitVec 512 := weights ||| (0x8000 : BitVec 512)
def optWord : BitVec 512 := word 0x43 [(0x28, 1), (0x30, 7), (0x38, 0x40000)]
def optDescs : List (Nat × BitVec 512) := [(0x10, mat 0x90000 0 32 1 4 128 31 31), (0x18, mat 0xA0000 0 32 1 4 128 31 31)]
def aliasRecord : List Byte := leBytes 4 3 ++ leBytes 4 0 ++ leBytes 4 2 ++ leBytes 4 1 ++ leBytes 8 0x50000 ++ leBytes 8 0x60000 ++ leBytes 8 0x1000
def aliasCtx : Context := { ctx with graphs := [{ graph with weights := 0x70000 }] }

theorem witness_RimCommandsRun :
    (∀ ds, Runs (onInst rdy (.rim .west) (going (reduceWord 0) ds)) (.rim .west) (fun w => cmdOpcode w == 0x41 && fld w 0x28 1 0 == 0) (going (reduceWord 0) ds) ctx) ∧
    (∀ ds, Runs (onInst rdy (.rim .west) (going (reduceWord 1) ds)) (.rim .west) (fun w => cmdOpcode w == 0x41 && fld w 0x28 1 0 == 1) (going (reduceWord 1) ds) ctx) ∧
    (∀ ds, Runs (onInst rdy (.rim .west) (going (word 0x42 []) ds)) (.rim .west) (fun w => cmdOpcode w == 0x42) (going (word 0x42 []) ds) ctx) ∧
    (∀ ds, Runs (onInst rdy (.rim .west) (going (word 0x44 [(0x18, 0xC0000)]) ds)) (.rim .west) (fun w => cmdOpcode w == 0x44) (going (word 0x44 [(0x18, 0xC0000)]) ds) ctx) ∧
    (∀ ds, Runs (onInst rdy (.rim .west) (going optWord ds)) (.rim .west) (fun w => cmdOpcode w == 0x43 && fld w 0x28 3 0 != 15) (going optWord ds) ctx) ∧
    (∀ s : State, s.contexts = [aliasCtx] → s.engines = Engine.all → s.faults = {} →
      Runs (onInst s (.rim .west) (going (rimWord 0x500 [(0x28, 0xB0000)]) [])) (.rim .west) (rimSel 0x500) (going (rimWord 0x500 [(0x28, 0xB0000)]) []) aliasCtx) :=
  ⟨fun ds => rim_runs rdy ctx _ ds _ (by decide +kernel) rfl rfl rfl rfl, fun ds => rim_runs rdy ctx _ ds _ (by decide +kernel) rfl rfl rfl rfl,
    fun ds => rim_runs rdy ctx _ ds _ (by decide +kernel) rfl rfl rfl rfl, fun ds => rim_runs rdy ctx _ ds _ (by decide +kernel) rfl rfl rfl rfl,
    fun ds => rim_runs rdy ctx _ ds _ (by decide +kernel) rfl rfl rfl rfl, fun s hc he hf => rim_runs s aliasCtx _ _ _ (by decide +kernel) he hf hc rfl⟩

/-- Each command runs with good operands and ends with an error without them. -/
theorem witness_RimCommandsRun_operands :
    (let s := bytesAt (onInst rdy (.rim .west) (going (reduceWord 0) [])) 0x20000 record0
     good (reduceRecords .west s ctx (going (reduceWord 0) [(0x20, mat 0xA0000 0 4 1 0 16 0 0)])) = true ∧ good (reduceRecords .west s ctx (going (reduceWord 0) [])) = false) ∧
    good (reduceDense .west rdy ctx (going (reduceWord 1) [(0x20, flat 0xA0000 0 4)])) = true ∧ good (reduceDense .west rdy ctx (going (reduceWord 1) [])) = false ∧
    good (convertStream .west rdy ctx (going (word 0x42 []) [(0x10, flat 0x90000 0 4), (0x18, flat 0xA0000 1 4)])) = true ∧
    good (convertStream .west rdy ctx (going (word 0x42 []) [])) = false ∧
    good (pruneStream .west rdy ctx (going (word 0x44 []) [])) = false ∧
    good (rmOpt .west (onInst rdy (.rim .west) (going optWord optDescs)) ctx (going optWord optDescs)) = true ∧
    (match (going optWord optDescs).desc 0x10, (going optWord optDescs).desc 0x18 with | some p, some g => denseOk 1 p g none | _, _ => false) = true ∧
    good (rmOpt .west rdy ctx (going optWord [])) = false ∧ fld optWord 0x20 47 0 = 0 ∧
    optGate { ctx with decided := [7] } 7 = .bad ∧ optGate { ctx with rim := { ctx.rim with pending := 6 } } 7 = .wait ∧
    (let r := going (rimWord 0x500 [(0x28, 0xB0000)]) []
     let s := onInst (bytesAt { rdy with contexts := [aliasCtx] } 0xB0000 aliasRecord) (.rim .west) r
     otherDone s .west r.ref = false ∧ otherDone { s with progress := [{ prog r.word with eastDone := true }] } .west r.ref = true ∧
     good (aliasBuild .west s aliasCtx r) = true ∧ good (aliasBuild .west s ctx r) = false) := by
  decide +kernel

/-- A tile of zeros is pruned to nothing. -/
theorem witness_RimCommandsRun_prune :
    good (pruneStream .west rdy ctx (going (word 0x44 [(0x18, 0xC0000)]) [(0x10, weights), (0x28, weights2)])) = true := by
  decide +kernel

def tableWord : BitVec 512 := word 0x43 [(0x28, 15), (0x30, 7), (0x38, 0x40000)]

theorem witness_TableModeUpdatesRows :
    (∀ c : Context, c.sess = 0x1000 → Runs (onInst { rdy with contexts := [c] } (.rim .west) (going tableWord [])) (.rim .west)
      (fun w => cmdOpcode w == 0x43 && fld w 0x28 3 0 == 15) (going tableWord []) c) ∧
    (∀ c : Context, c.sess = 0x1000 → Runs (onInst { rdy with contexts := [c] } (.rim .west) (going (word 0x43 [(0x28, 15)]) [])) (.rim .west)
      (fun w => cmdOpcode w == 0x43 && fld w 0x28 3 0 == 15) (going (word 0x43 [(0x28, 15)]) []) c) :=
  ⟨fun _ hs => rim_runs _ _ _ _ _ (by decide +kernel) rfl rfl rfl hs, fun _ hs => rim_runs _ _ _ _ _ (by decide +kernel) rfl rfl rfl hs⟩

/-- The context with an optimiser table, one contribution of step 7 to its row 3. -/
def optCtx : Context :=
  { ctx with
    tables := [{ table with optimiser := 1 }]
    regions := [{ table := 4, base := 0x20000, bytes := 2048, shadow := 0x21000, inShadow := [], provisional := [], unsettled := [] }]
    contributions := [{ table := 4, row := 3, step := 7, sender := 0, seq := 0, grad := List.replicate 32 0x3F800000 }] }

theorem witness_TableModeUpdatesRows_rows :
    (let r := going tableWord []
     let s := onInst { rdy with contexts := [optCtx] } (.rim .west) r
     otherDone { s with progress := [{ prog r.word with eastDone := true }] } .west r.ref = true ∧ otherDone s .west r.ref = false ∧
     fld r.word 0x10 47 0 = 0 ∧ fld r.word 0x18 47 0 = 0 ∧ fld r.word 0x20 47 0 = 0 ∧
     stepDecided { ctx with decided := [7] } 7 = true ∧ stepDecided optCtx 7 = false ∧ ({ ctx with rim := { ctx.rim with pending := 6 } }).rim.pending ≠ 7 ∧
     optGate optCtx 7 = .run ∧ (passed s r.ref).contains 0 = false ∧
     (match readHyper s optCtx r.word with
      | .ok hy => (startTable s optCtx r hy 7).2 && good (goTable .west (startTable s optCtx r hy 7).1 r 7)
      | .error _ => false) = true) ∧
    (let r := going tableWord []
     let c := { optCtx with ringProvisional := some ((Hyper.ofBytes (List.replicate 64 0) 0x3F800000).ring 7 0) }
     let s := { onInst { rdy with contexts := [c] } (.rim .west) r with progress := [{ prog r.word with units := [0] }] }
     (passed s r.ref).contains 0 = true ∧ gradRows s c r.ref 7 = [(4, 3)] ∧
     (match passRows .west r.ref r.sess ((Hyper.ofBytes (List.replicate 64 0) 0x3F800000)) 7 (gradRows s c r.ref 7)
         (setCtx s r.sess fun c => { c with logWait := none }) with
      | .ok (s1, done) => done && (match findCtx s1 r.sess with
        | some c1 => !(passed s1 r.ref).contains 1 && marksHeld (pass (sendMarks s1 c1 .west 7 (replicasSent s1 c1 r.ref)) r.ref 1) c1 7
        | none => false)
      | .error _ => false) = true) ∧
    (let t := { table with optimiser := 1, poolGroup := some 0x800001,
                           ownership := some [{ first := 0, owner := 1, replicated := true, unowned := false, localBase := 0 }] }
     marksHeld rdy { member with tables := [t] } 7 = false) := by
  decide +kernel

def stepWord (op : Nat) : BitVec 512 := rimWord op [(0x28, 0x50000), (0x30, 2 ^ 32 + 1)]

theorem step_runs (s : State) (c : Context) (op : Nat) (h : rimSel op (stepWord op) = true) (he : s.engines = Engine.all) (hf : s.faults = {})
    (hc : s.contexts = [c]) (hs : c.sess = 0x1000) :
    Runs (onInst s (.rim .west) (going (stepWord op) [])) (.rim .west) (rimSel op) (going (stepWord op) []) c :=
  rim_runs s c (stepWord op) [] (rimSel op) h he hf hc hs

/-- A region of 64 KiB in an allocation of its own, and a plain allocation that may shadow it. -/
def twoAllocs (use : AllocUse) : Context :=
  { ctx with allocs := ctx.allocs ++
      [{ base := 0x200000, size := 0x10000, page := 0x10000, backing := .striped, rd := true, wr := true, phys := 0x300000, use := .plain },
       { base := 0x300000, size := 0x20000, page := 0x10000, backing := .striped, rd := true, wr := true, phys := 0x400000, use := use }] }

def bindBytes (region : Nat) : List Byte := leBytes 8 region ++ leBytes 8 0x10000 ++ leBytes 8 0x300000
def voteBytes (group step : Nat) : List Byte := leBytes 4 group ++ leBytes 4 step ++ leBytes 4 0xFF

theorem witness_StepOperationsRun :
    (∀ (s : State) (c : Context), s.engines = Engine.all → s.faults = {} → s.contexts = [c] → c.sess = 0x1000 →
      ∀ op ∈ [0x0E00, 0x0E01, 0x0E02, 0x0F00, 0x0E04],
        Runs (onInst s (.rim .west) (going (stepWord op) [])) (.rim .west) (rimSel op) (going (stepWord op) []) c) ∧
    (∀ op ∈ [0x0E00, 0x0E01, 0x0E02, 0x0F00, 0x0E04], gives (noStreams (.rim .west) (stepWord op)) () = true ∧ auxOf (stepWord op) = 0x50000) ∧
    otherDone (onInst rdy (.rim .west) (going (stepWord 0x0E00) [])) .west ⟨1, 0, 0⟩ = false := by
  have h : ([0x0E00, 0x0E01, 0x0E02, 0x0F00, 0x0E04].all fun op => rimSel op (stepWord op)) = true := by decide +kernel
  refine ⟨fun s c he hf hc hs op ho => step_runs s c op ?_ he hf hc hs, by decide +kernel⟩
  exact List.all_eq_true.mp h op ho

theorem witness_StepOperationsRun_records :
    gives (readBind (bytesAt rdy 0x50000 (bindBytes 0x200000)) ctx 0x50000) (0x200000, 0x10000, 0x300000) = true ∧
    bindOk (twoAllocs .plain) 0x200000 0x10000 0x300000 = true ∧ bindOk (twoAllocs .plain) 0x208000 0x10000 0x300000 = false ∧
    (let c := { twoAllocs .shadow with regions := [{ table := 0, base := 0x200000, bytes := 0x10000, shadow := 0x300000, inShadow := [1], provisional := [], unsettled := [] }] }
     c.rim.pending = 0 ∧ c.settles = [] ∧ (c.regions.find? fun x => x.table == 0 && x.base == 0x200000 && x.bytes == 0x10000 && x.shadow == 0x300000).isSome = true ∧
     (c.allocs.find? fun a => a.base == 0x300000).isSome = true ∧ ({ c with rim := { c.rim with pending := 6 } }).rim.pending ≠ 0) ∧
    (match readStep (bytesAt rdy 0x50000 (voteBytes 0 7)) ctx 0x50000 with
     | .ok q => q.step == 7 && q.group == 0 && !votedAlready ctx q && !stepDecided ctx 7 && (findGroup ctx 0).isNone && votedAlready { ctx with decided := [7] } q
     | .error _ => false) = true ∧
    (match readStep (bytesAt rdy 0x50000 (voteBytes 0x800001 7)) member 0x50000 with
     | .ok q => q.group == 0x800001 && !votedAlready member q && (match findGroup member q.group with | some g => g.complete | none => false) &&
         (abortBefore member q).isNone && !stepDecided member 7
     | .error _ => false) = true ∧
    (match readStep rdy ctx 0x50000 with | .ok q => q.step == 0 | .error _ => false) = true ∧
    good (readVa rdy ctx .rd 0x50000 272) = true := by
  decide +kernel

def voted (d : Decision) : VoteState :=
  { step := 7, group := 0, myVote := false, castAt := 0, phase := 3, set := false, lowest := noModule, decision := d, decidedAt := 5, origin := 0xFFFFFFFF, error := 0 }

theorem witness_StepOperationsRun_apply :
    (let r := going (stepWord 0x0E03) []
     let go := fun (v : Option VoteState) =>
       let c := { optCtx with vote := v, rim := { ctx.rim with pending := 7 } }
       let s := onInst (bytesAt { rdy with contexts := [c] } 0x50000 (voteBytes 0 7)) (.rim .west) r
       ((findEngine s (.rim .west)).running.find? fun r => rimSel 0x0E03 r.word && !r.started) = some r ∧ findCtx s r.sess = some c ∧
       otherDone s .west r.ref = false ∧ gives (noStreams (.rim .west) r.word) () = true ∧
       (match readStep s c (auxOf r.word) with
        | .ok q => q.step == 7 && (match v with
          | some v => v.step == 7 && (spanOk s c .wr (auxOf r.word + 0x10) 0x18).isNone && (findCtx (applyDecision s c v (auxOf r.word) r.ref) c.sess).isSome
          | none => true)
        | .error _ => false) = true
     go none ∧ go (some (voted .commit)) ∧ go (some (voted .skip)) ∧ go (some (voted .aborted))) ∧ (voted .commit).step ≠ 8 := by
  decide +kernel

def flipRegion : Region := { table := 0, base := 0x10000, bytes := 0x1000, shadow := 0x80000, inShadow := [2, 5], provisional := [1, 2], unsettled := [(9, 3)] }

theorem witness_VersionsFlipAndRevert :
    flipRegion.provisional.Nodup ∧ flipRegion.inShadow.Nodup ∧ (∀ u ∈ flipRegion.unsettled, u.2 ≠ 7) ∧ (0x10100 - flipRegion.base) / 256 ∈ flipRegion.provisional ∧
    (0x10000 - flipRegion.base) / 256 ∉ flipRegion.provisional ∧ flipRegion.base ≤ 0x10000 ∧
    (∃ i, i < 300 ∧ (0x10000 + i - flipRegion.base) / 256 ∈ flipRegion.provisional) :=
  ⟨by decide, by decide, by decide, by decide, by decide, by decide, 256, by decide, by decide⟩

theorem witness_LossScalePolicyHolds :
    Runs (onInst rdy (.rim .west) (going (stepWord 0x0E04) [])) (.rim .west) (rimSel 0x0E04) (going (stepWord 0x0E04) []) ctx ∧
    gives (noStreams (.rim .west) (stepWord 0x0E04)) () = true ∧ good (readVa rdy ctx .rd (auxOf (stepWord 0x0E04)) 32) = true ∧
    otherDone (onInst rdy (.rim .west) (going (stepWord 0x0E04) [])) .west ⟨1, 0, 0⟩ = false ∧ (List.replicate 32 (0 : Byte)).length = 32 ∧
    (let q : RimState := { ctx.rim with lsMode := true, lsInterval := 2 }
     ctx.rim.lsMode = false ∧ q.lsMode = true ∧ (q.lsClean + 1).toNat < q.lsInterval.toNat ∧
     q.lsInterval.toNat ≤ (({ q with lsClean := 1 } : RimState).lsClean + 1).toNat) :=
  ⟨step_runs rdy ctx 0x0E04 (by decide +kernel) rfl rfl rfl rfl, by decide +kernel⟩

theorem witness_OptimiserUpdateIsTheTable :
    2 ≤ [Machine.Num.ofNat 3, .nan, Machine.Num.ofNat 1].length ∧
    (match voseTable [0x3F800000, 0x40400000] with | (some bs, _) => bs.length == 16 | _ => false) = true ∧
    keptOf 2 [Machine.Num.ofNat 3, .nan, Machine.Num.ofNat 1] = [0, 1] := by
  decide +kernel

/-- A code of each format and the sides of its roundings. -/
theorem witness_CodesRoundTrip :
    (∀ r, Round.stochastic 7 = .stochastic r → r < 65536) ∧ (∀ fmt ∈ [0, 1, 2, 3, 4, 5, 6, 7, 0xD], (floatFmt fmt).isSome = true ∧ decodeElem fmt 5 ≠ .nan) ∧
    (floatFmt 7).map (fun f => decide (5 < 2 * f.signBit)) = some true :=
  ⟨fun r h => by cases h; decide, by decide +kernel⟩

theorem witness_RoundingGivesTheNearest :
    (floatFmt 3).map (fun f => (f.decode 5).isFin && decide (5 < 2 * f.signBit) && !(f.encode .nearest false (Machine.Num.ofNat 17)).sat &&
      !(f.encode .zero false (Machine.Num.ofNat 17)).sat) = some true ∧
    (Machine.Num.ofNat 17).isFin = true := by
  decide +kernel

theorem witness_RoundingGivesTheNearest_quotients :
    (fp32 (0x3F800000 : U32)).isFin = true ∧ (fp32 (0x40400000 : U32)).isFin = true ∧ (fp32 (0x40400000 : U32)).isZero = false ∧
    (fp32 (fdiv 0x3F800000 0x40400000).1).isFin = true ∧ (fp32 (0x40400000 : U32)).lt Machine.Num.zero = false ∧ (fp32 (0x3F800000 : U32)).isNeg = false := by
  decide +kernel

/-! ### HBM, the pool and the flash tier -/

theorem witness_InterleaveIsFair :
    UnitLower rdy.hbm.keyA ∧ 0 * 2 ^ 3 * 256 + 2 ^ 3 * 256 ≤ 2 ^ 40 ∧ 0 * 2 ^ 3 * 512 + 2 ^ 3 * 512 ≤ 2 ^ 40 ∧ 255 < 256 ∧ 511 < 512 ∧
    nearChannel rdy.hbm 0 0 = 256 * 0 + 0 ∧ stripedChannel rdy.hbm 0 = 0 := by
  refine ⟨⟨rfl, fun i j hi hj => ?_⟩, by decide +kernel⟩
  have h : ∀ i < 9, ∀ j < 9, (i = j → (nthD 0 rdy.hbm.keyA i).getLsbD j = true) ∧ (i < j → (nthD 0 rdy.hbm.keyA i).getLsbD j = false) := by decide +kernel
  exact h i hi j hj

def held0 : Request := { read0 with state := .queued, pc := 70 }

theorem witness_HbmCareIsTaken :
    (findPc rdy 5).isSome = true ∧ ((findPc rdy 5).map fun p => (p.retired, decide (p.lastTrain + 600 * 10 ^ 9 ≤ rdy.now))) = some (false, true) ∧
    (∀ q ∈ rdy.hbm.pcs, q.num / 64 = 5 / 64 → q.heldUntil ≤ rdy.now) ∧
    ((findPc (setPc rdy 5 fun p => { p with retired := true, lastTrain := rdy.now }) 5).map fun p => (p.retired, decide (rdy.now < p.lastTrain + 600 * 10 ^ 9))) = some (true, true) ∧
    ((setPc rdy 6 fun p => { p with heldUntil := rdy.now + 1 }).hbm.pcs.any fun q => decide (q.num / 64 = 5 / 64) && decide (rdy.now < q.heldUntil)) = true ∧
    (inWindow rdy 5).length < 8 ∧
    (let s := { rdy with requests := [held0] }
     (s.requests.find? fun r => r.id == 1 && (r.state == .queued || r.state == .sorting) && !r.stopped) = some held0 ∧
     ((findStack s (held0.pc / 64)).map fun x => x.thermal) = some 0 ∧
     (let h := { s with hbm := { s.hbm with stackList := [{ num := 1, thermal := 3 }] } }
      ((findStack h (held0.pc / 64)).map fun x => (x.thermal, decide (Nat.max held0.issuedAt x.stoppedAt + 10 ^ 8 ≤ h.now))) = some (3, true))) ∧
    (let u := subOp 0x86
     let s := wait rdy (out u)
     findOut s 0 7 = some (out u) ∧ (out u).sub.opcode = 0x86 ∧ s.hbm.rekeying = none ∧ serving s = true ∧ inOrder s 0 (out u) = true ∧
     (∀ p ∈ s.progress, keepsRunning p.word = false) ∧ keepsRunning (prog (word 0x51 [])).word = true ∧
     inOrder { s with progress := [prog (word 0x51 [])] } 0 (out u) = true) := by
  decide +kernel

/-- The table at this module, optimised, and held by its owner in pieces. -/
def optTable (o : Nat) : Table := { table with optimiser := o }

def owner (t : Table) : Context := { member with tables := [t] }

theorem witness_RowsAndBagsAreServed :
    (let p := { pkt 0x04 [] with a := 4 * 2 ^ 40 + 3, b := 128 }
     let c := owner (optTable 0)
     Arrives (net c) p 0x04 c pair ∧ (∃ t c1, Wakes (net c) p c t c1) ∧ ownerOf 0 (optTable 0).ownership 16 (poolRow (4 * 2 ^ 40 + 3)) = .here 3 ∧
     plainPoison (net c) c (optTable 0) 3 = none ∧
     (plainPoison (poisonSector (net c) (stripedChannel rdy.hbm 0x101) (2 ^ 25 + 4)) c (optTable 0) 3).isSome = true ∧
     findTable { c with tables := [] } (poolTable (4 * 2 ^ 40 + 3)) = none) ∧
    (let c := owner (optTable 1)
     (findTable c (poolTable (4 * 2 ^ 40 + 3))).isSome = true ∧ stepOpenBelow { c with rim := { c.rim with pending := 6 } } 7 = true ∧ stepOpenBelow c 7 = false ∧
     (match serveRow (net c) c (4 * 2 ^ 40 + 3) 7 128 with | (_, .bytes _) => true | _ => false) = true ∧
     (match serveRow (net c) c (5 * 2 ^ 40 + 3) 7 128 with | (_, .refuse _) => true | _ => false) = true ∧
     (match serveRow (net c) { c with rim := { c.rim with pending := 6 } } (4 * 2 ^ 40 + 3) 7 128 with | (_, .wait true) => true | _ => false) = true) ∧
    (let p := pkt 0x05 (List.replicate 128 0)
     let q := { read0 with id := 3, state := .remote, owner := 1 }
     let s := { net member with requests := [q] }
     Arrives s p 0x05 member pair ∧ requestOf (takePacket s p) 0x1000 p = some q ∧ staleReply (takePacket s p) q.targetIncarn q.owner = false ∧
     staleReply (takePacket s p) 1 q.owner = true ∧ requestOf (takePacket (net member) p) 0x1000 p = none) ∧
    (let c := owner (optTable 0)
     let p := { pkt 0x06 (leBytes 8 3) with a := 4 }
     Arrives (net c) p 0x06 c pair ∧ (∃ t c1, Wakes (net c) p c t c1) ∧ wholeMessage (net c) p = some (leBytes 8 3, net c) ∧
     wholeMessage (net c) { p with packets := 2 } = none ∧
     (match serveRows 0 128 (bagWords p) (net c) c.sess with | (_, .bytes _, rows) => rows.length == 1 | _ => false) = true) ∧
    (let p := pkt 0x07 (List.replicate 128 0)
     let q := { read0 with id := 3, state := .remote, owner := 1, dest := .bag 0 0 0 0 }
     let s := { net member with requests := [q] }
     Arrives s p 0x07 member pair ∧ wholeMessage (takePacket s p) p = some (List.replicate 128 0, takePacket s p) ∧
     requestOf (takePacket s p) 0x1000 p = some q ∧ staleReply (takePacket s p) q.targetIncarn q.owner = false) :=
  ⟨⟨arrives_net _ _ rfl rfl rfl rfl, (wakes_net _ _ rfl rfl).imp fun _ h => h.imp fun _ h => h.1, by decide +kernel⟩, by decide +kernel,
    ⟨⟨rfl, rfl, rfl, rfl⟩, by decide +kernel⟩,
    ⟨arrives_net _ _ rfl rfl rfl rfl, (wakes_net _ _ rfl rfl).imp fun _ h => h.imp fun _ h => h.1, by decide +kernel⟩,
    ⟨⟨rfl, rfl, rfl, rfl⟩, by decide +kernel⟩⟩

def contribution : Contribution := { table := 4, row := 3, step := 7, sender := 1, seq := 3, grad := List.replicate 32 0 }

def store (c : Context) : Context := { c with storeBytes := 4096 }

theorem witness_ContributionsAreStored :
    (let p := { pkt 0x0A (List.replicate 128 0) with a := 4 * 2 ^ 40 + 3, step := 7 }
     (∀ c : Context, c.slot.isSome = true → c.sess = 0x1000 → (c.groups.find? fun g => g.gid == p.groupId.toNat && g.jobTag == p.jobTag) = some pair →
       Arrives (net c) p 0x0A c pair ∧ ∃ t c1, Wakes (net c) p c t c1) ∧
     (owner (optTable 1)).slot.isSome = true ∧ ((owner (optTable 1)).groups.find? fun g => g.gid == p.groupId.toNat && g.jobTag == p.jobTag) = some pair ∧
     ownerOf 0 none 16 (poolRow p.a.toNat) = .here 3 ∧ stepDecided (owner (optTable 1)) 7 = false ∧ stepDecided { owner (optTable 1) with decided := [7] } 7 = true ∧
     storeRoom (store (owner (optTable 1))) contribution = true ∧ storeRoom (owner (optTable 1)) contribution = false ∧ (owner (optTable 1)).waiting = []) ∧
    (let w : WaitingContribution := { item := contribution, since := 0, jobTag := 6, gid := 2, ref := none }
     let c := { store (owner (optTable 1)) with waiting := [w] }
     findCtx (net c) 0x1000 = some c ∧ storeRoom c w.item = true ∧ storeRoom { c with storeBytes := 0 } w.item = false ∧
     (c.groups.find? fun g => g.gid == w.gid && g.jobTag == w.jobTag) = some pair ∧ ({ w with ref := some ⟨1, 0, 0⟩ }).ref = some ⟨1, 0, 0⟩) ∧
    (let p := { pkt 0x10 [] with step := 7 }
     let q : RemoteReq := { msg := 3, ref := ⟨1, 0, 0⟩, sess := 0x1000, group := 0x800001, type := 0x0A, hop := 7, items := [], peer := 1, targetIncarn := 0, sentAt := 0, stopped := false }
     let s := { net member with remoteReqs := [q] }
     Arrives s p 0x10 member pair ∧ (takePacket s p).remoteReqs.find? (isContribFor 0x1000 p) = some q ∧
     staleReply (takePacket s p) q.targetIncarn q.peer = false ∧ staleReply (takePacket s p) 1 q.peer = true ∧ q.stopped = false) :=
  ⟨⟨fun c h1 h2 h3 => ⟨arrives_net _ _ rfl rfl rfl h3, (wakes_net c _ h1 h2).imp fun _ h => h.imp fun _ h => h.1⟩, by decide +kernel⟩, by decide +kernel,
    ⟨rfl, rfl, rfl, rfl⟩, by decide +kernel⟩

theorem witness_ContributionsAreStored_replicas :
    (let p := { pkt 0x0B (List.replicate 128 0) with a := 4 * 2 ^ 40 + 3, step := 7 }
     (∀ c : Context, c.slot.isSome = true → c.sess = 0x1000 → (c.groups.find? fun g => g.gid == p.groupId.toNat && g.jobTag == p.jobTag) = some pair →
       Arrives (net c) p 0x0B c pair ∧ ∃ t c1, Wakes (net c) p c t c1) ∧
     (let c := { owner (optTable 1) with regions := optCtx.regions }
      let r : Region := { table := 4, base := 0x20000, bytes := 2048, shadow := 0x21000, inShadow := [], provisional := [], unsettled := [(1, 6)] }
      c.slot.isSome = true ∧ stepDecided c 7 = false ∧ c.rim.pending = 0 ∧ (optTable 1).tier = none ∧ (tableRegion c 4).isSome = true ∧
      ((tableRegion c 4).map fun r => r.unsettledIn ((optTable 1).recordVa 3) 128) = some false ∧
      r.unsettledIn ((optTable 1).recordVa 3) 128 = true ∧ tableRegion { c with regions := [r] } 4 = some r)) ∧
    (let p := { pkt 0x0C [] with step := 7, a := 5 }
     Arrives (net member) p 0x0C member pair ∧ ∃ t c1, Wakes (net member) p member t c1) :=
  ⟨⟨fun c h1 h2 h3 => ⟨arrives_net _ _ rfl rfl rfl h3, (wakes_net c _ h1 h2).imp fun _ h => h.imp fun _ h => h.1⟩, by decide +kernel⟩,
    arrives_net _ _ rfl rfl rfl rfl, (wakes_net _ _ rfl rfl).imp fun _ h => h.imp fun _ h => h.1⟩

/-! A tiered table of one set. -/

def tiered (ways : List CacheWay) (promoting : List (Nat × Bool)) (units : List FlashUnit) : Table :=
  { optTable 1 with tier := some { sets := 1, setKey := 0, channelKey := 0, ways := ways, promoting := promoting, units := units, everSynced := false, isProtected := true } }

def way (slot : Nat) (dirty : Bool) : CacheWay :=
  { row := 100 + slot, set := 0, slot := slot, committed := List.replicate 128 0, provisional := none, previous := none, dirty := dirty, pending := false, lru := slot }

def ways (dirty : Bool) : List CacheWay := (List.range 16).map fun i => way i dirty

theorem setOf_tiered (w : List CacheWay) (p : List (Nat × Bool)) (u : List FlashUnit) (row : Nat) : setOf (tiered w p u) row = 0 :=
  Nat.mod_one _

theorem choose_tiered (d : Bool) (p : List (Nat × Bool)) (u : List FlashUnit) (row : Nat) : chooseWay (tiered (ways d) p u) row = some (15, some (way 15 d)) := by
  unfold chooseWay
  rw [setOf_tiered]
  cases d <;> rfl

theorem room_empty (h : Half) : stagingRoom rdy h 128 = true := by cases h <;> decide +kernel

/-- A half's staging buffer that holds n bytes of one record. -/
def fullStaging (n : Nat) : State :=
  { rdy with tier := { rdy.tier with staging := [Half.west, Half.east].map fun h => { half := h, sess := 0, table := 0, row := 0, record := List.replicate n 0 } } }

theorem room_full (n : Nat) (h : Half) (hn : 4 * gib ≤ n) : stagingRoom (fullStaging n) h 128 = false := by
  cases h <;> simp [stagingRoom, stagedBytes, fullStaging, sumNat] <;> omega

def unit0 : FlashUnit := { unit := 0, channel := 2, location := 77, written := true, poison := false, data := [], synced := none }

theorem witness_RowsArePromotedAndFolded :
    (let t := tiered [] [(3, true)] []
     let c := { ctx with tables := [t] }
     let s := { rdy with contexts := [c] }
     findCtx s 0x1000 = some c ∧ findTable c 4 = some t ∧ chooseWay t 3 = some (0, none) ∧ (tierOf t).promoting.contains (3, true) = true ∧
     ((logOf s 0x1000 4 3).filter fun e => !stepFinal c e.step).length < 2 ∧ (tierOf t).promoting.contains (4, true) = false) ∧
    (∀ d, chooseWay (tiered (ways d) [(3, true)] []) 3 = some (15, some (way 15 d))) ∧
    (way 15 false).dirty = false ∧ (way 15 true).dirty = true ∧
    (∀ h, stagingRoom (fullStaging (4 * gib)) h (way 15 true).committed.length = false) ∧ (∀ h, stagingRoom rdy h (way 15 true).committed.length = true) ∧
    ((tierOf (tiered [] [(3, false)] [unit0])).promoting.contains (3, false) = true ∧
      findUnit (tiered [] [(3, false)] [unit0]) (firstUnit (tiered [] [(3, false)] [unit0]) 3) = some unit0) ∧
    (let t := tiered (ways true) [(3, true)] []
     (((tierOf t).promoting.filterMap fun p => (chooseWay t p.1).bind fun k => k.2).find? fun w => w.row == 115) = some (way 15 true)) := by
  refine ⟨by decide +kernel, fun d => choose_tiered d _ _ _, rfl, rfl, fun h => room_full _ h (Nat.le_refl _), room_empty, by decide +kernel, ?_⟩
  show (([(3, true)] : List (Nat × Bool)).filterMap fun p => (chooseWay (tiered (ways true) [(3, true)] []) p.1).bind fun k => k.2).find? _ = _
  simp only [List.filterMap_cons, List.filterMap_nil, choose_tiered]
  rfl

def logged (step : Nat) : LogEntry := { sess := 0x1000, table := 4, row := 3, step := step, grad := List.replicate 32 0 }
def ring (step : Nat) : RingEntry := (Hyper.ofBytes (List.replicate 64 0) 0x3F800000).ring step 0
def waits (age : Option Nat) : LogWait := { ref := ⟨1, 0, 0⟩, age := age, bytes := 64 }

theorem witness_RowsArePromotedAndFolded_log :
    (let t := tiered [] [] []
     let c := { ctx with tables := [t], ring := [ring 5, ring 90] }
     let s := { rdy with contexts := [c], tier := { rdy.tier with log := [logged 5] } }
     ringFor c 5 = some (ring 5) ∧ findCtx s 0x1000 = some c ∧ (foldRow s 0x1000 4 9 none false).tier.log = [logged 5] ∧ (logged 5) ∈ s.tier.log ∧
     stepFinal c 5 = true ∧ s.tier.throttle = false ∧ loggedRows s c.sess = [(4, 3)] ∧ findTable c 4 = some t ∧
     (logOf s c.sess 4 3).head? = some (logged 5) ∧ finalEntries s c 4 3 ≠ [] ∧ 32 ≤ (c.ring.foldl (fun m r => Nat.max m r.step) 0) - (logged 5).step ∧
     ({ s with tier := { s.tier with throttle := true } }).tier.throttle = true ∧ ctx.ring = []) ∧
    (let c := { ctx with logWait := some (waits (some 5)) }
     let s := { rdy with contexts := [c], lists := [lst] }
     findCtx s c.sess = some c ∧ (waits (some 5)).age = some 5 ∧ (waits none).age = none ∧
     (∀ e ∈ s.tier.log, e.sess = c.sess → 5 < e.step) ∧
     (∃ e ∈ ({ s with tier := { s.tier with log := [logged 5] } }).tier.log, e.sess = c.sess ∧ e.step ≤ 5) ∧
     (findList s (waits none).ref.list).isSome = true ∧
     (let f := fun (st : State) => shareFits st c 64 && logFits st 64
      f { s with power := { s.power with config := { s.power.config with logGib := 1 } } } = true ∧
      f { s with power := { s.power with config := { s.power.config with logGib := 0 } } } = false ∧
      fullRows { s with power := { s.power with config := { s.power.config with logGib := 0 } } } c 64 = [])) ∧
    coveredTables ctx 0 = some [] ∧ coveredTables ctx 9 = none := by
  decide +kernel

theorem tier_runs (s : State) (c : Context) (w : BitVec 512) (op : Nat) (h : cmdOpcode w = op) (he : s.engines = Engine.all) (hf : s.faults = {})
    (hc : s.contexts = [c]) (hs : c.sess = 0x1000) : Runs (onInst s .tier (going w [])) .tier (fun w => cmdOpcode w == op) (going w []) c :=
  runs_on .tier _ (going w []) he hf (by simp [findCtx, hc, going, hs]) (by simp [going, h]) rfl

theorem witness_RowsArePromotedAndFolded_commands :
    (∀ (c : Context), c.sess = 0x1000 → Runs (onInst { rdy with contexts := [c] } .tier (going (word 0x60 []) [])) .tier (fun w => cmdOpcode w == 0x60) (going (word 0x60 []) []) c) ∧
    Runs (onInst rdy .tier (going (word 0x60 [(0x10, 9)]) [])) .tier (fun w => cmdOpcode w == 0x60) (going (word 0x60 [(0x10, 9)]) []) ctx ∧
    good (trFold (onInst rdy .tier (going (word 0x60 []) [])) ctx (going (word 0x60 []) [])) = true ∧
    good (trFold rdy ctx (going (word 0x60 [(0x10, 9)]) [])) = false ∧ (∀ e ∈ rdy.tier.log, e.sess ≠ ctx.sess) ∧
    coveredTables ctx (fld (word 0x60 [(0x10, 9)]) 0x10 23 0) = none ∧ coveredTables ctx (fld (word 0x60 []) 0x10 23 0) = some [] :=
  ⟨fun _ hs => tier_runs _ _ _ _ (by decide +kernel) rfl rfl rfl hs, tier_runs _ _ _ _ (by decide +kernel) rfl rfl rfl rfl, by decide +kernel⟩

theorem channel_small (t : Table) (u : Nat) : channelOf t u < 32 := by
  simp only [channelOf]
  split <;> omega

theorem writable_rdy : ∀ ch < 32, channelWritable rdy ch = true := by decide +kernel

def staged : Staged := { half := .west, sess := 0x1000, table := 4, row := 3, record := List.replicate 128 0 }

theorem witness_RowsAreProgrammedAndBlocksCaredFor :
    (let c := { ctx with tables := [tiered [] [] []] }
     let s := { rdy with contexts := [c], tier := { rdy.tier with staging := [staged] } }
     tableOfStaged s staged = some (tiered [] [] []) ∧
     (s.tier.staging.find? fun (x : Staged) => x.half == .west && (match tableOfStaged s x with
       | some t => (unitsOf t x.row).all fun u => channelWritable s (channelOf t u)
       | none => false)) = some staged ∧
     s.tier.throttle = false ∧ wearNow s + (tiered [] [] []).stride * 1 ≤ wearCapacity ∧
     (let f := { s with tier := { s.tier with throttle := true, wearBytes := wearCapacity, wearAt := s.now } }
      f.tier.throttle = true ∧ wearCapacity < wearNow f + (tiered [] [] []).stride * 1 ∧ wearCapacity * 9 ≤ wearNow f * 10) ∧
     wearNow s * 10 < wearCapacity * 9) ∧
    (rdy.tier.staging.find? fun (x : Staged) => x.half == .west) = none := by
  refine ⟨⟨rfl, ?_, rfl, by decide +kernel, by decide +kernel, by decide +kernel⟩, rfl⟩
  have h := writable_rdy _ (channel_small (tiered [] [] []) (firstUnit (tiered [] [] []) 3))
  exact List.find?_cons_of_pos (show (true && ([firstUnit (tiered [] [] []) 3].all fun u => channelWritable rdy (channelOf (tiered [] [] []) u))) = true by simp [h])

/-- Every channel in a state covers the table. -/
def channelsIn (st : Nat) : State := { rdy with tier := { rdy.tier with channels := (List.range 32).map fun n => { num := n, diesLive := 12, state := st, eraseMean := 0, eraseSpread := 0 } } }

theorem covers_all (st : Nat) : (coversState (channelsIn st) (tiered [] [] []) st).isSome = true := by
  simp only [coversState, Option.isSome_map, List.find?_isSome]
  refine ⟨{ num := channelOf (tiered [] [] []) 0, diesLive := 12, state := st, eraseMean := 0, eraseSpread := 0 },
    List.mem_map.mpr ⟨channelOf (tiered [] [] []) 0, List.mem_range.mpr (channel_small _ _), rfl⟩, ?_⟩
  simp only [beq_self_eq_true, Bool.true_and, List.any_eq_true]
  exact ⟨0, List.mem_range.mpr (by decide), by simp⟩

theorem covers_none (st k : Nat) (h : st ≠ k) (t : Table) : coversState (channelsIn st) t k = none := by
  simp only [coversState, Option.map_eq_none_iff, List.find?_eq_none]
  intro c hc
  obtain ⟨n, -, rfl⟩ := List.mem_map.mp hc
  simp [h]

theorem witness_RowsAreProgrammedAndBlocksCaredFor_syncs :
    (∀ c : Context, c.sess = 0x1000 → Runs (onInst { rdy with contexts := [c] } .tier (going (word 0x61 []) [])) .tier (fun w => cmdOpcode w == 0x61) (going (word 0x61 []) []) c) ∧
    coveredTables ctx (fld (word 0x61 []) 0x10 23 0) = some [] ∧ (∃ n s1, syncTables rdy ctx [] = .done n s1) ∧
    syncTables rdy { ctx with settles := [{ step := 7, group := 0, record := 0, startedAt := 0, phase := 0, aborted := false, ref := ⟨1, 0, 0⟩ }] } [] = .wait ∧
    syncTables (channelsIn 1) ctx [tiered [] [] []] = .media ∧ (∃ u, syncTables (channelsIn 2) ctx [tiered [] [] []] = .hw u) ∧
    (∃ ch, coversState (channelsIn 1) (tiered [] [] []) 1 = some ch) ∧
    (∀ k ∈ [1, 2], coversState (channelsIn 0) (tiered [] [] []) k = none) ∧ (tierOf (tiered [] [(3, true)] [])).promoting ≠ [] ∧
    (∀ h : BitVec 24, ActsFor (cmd (sub 0x40 (h.setWidth 64))) 0 7 0x40 (out (sub 0x40 (h.setWidth 64))) ctx) ∧ coveredTables ctx 9 = none := by
  refine ⟨fun _ hs => tier_runs _ _ _ _ (by decide +kernel) rfl rfl rfl hs, by decide +kernel, ⟨_, _, rfl⟩, rfl, ?_, ?_, Option.isSome_iff_exists.mp (covers_all 1),
    by intro k hk; exact covers_none 0 k (by rintro rfl; simp at hk) _, by decide, fun h => acts_cmd _ rfl rfl, by decide +kernel⟩
  · simp [syncTables, covers_all]
  · obtain ⟨ch, hc⟩ := Option.isSome_iff_exists.mp (covers_all 2)
    exact ⟨0x9000 + ch, by simp [syncTables, covers_none 2 1 (by decide), hc]⟩

theorem witness_RowsAreProgrammedAndBlocksCaredFor_blocks :
    (let b : Block := { channel := 3, die := 2, block := 9, reads := 50000, erases := 1, retired := false }
     let s := { rdy with tier := { rdy.tier with blocks := [b] } }
     findBlock s 3 2 9 = some b ∧ 50000 ≤ b.reads ∧ ({ b with reads := 49999 }).reads < 50000 ∧ channelWritable s 3 = true ∧
     ceilDiv (unitsInBlock s 3 2 9).length 4 = 0) ∧
    channelWritable (channelsIn 1) 3 = false ∧
    (let s := { rdy with contexts := [{ ctx with tables := [tiered [] [] [{ unit0 with channel := 3, location := (9 * 12 + 2) * 6144 }]] }] }
     ceilDiv (unitsInBlock s 3 2 9).length 4 = 1) := by
  decide +kernel

/-! ### The fabric -/

theorem witness_RingsAndPiecesCoverTheGroup :
    (∀ a, a < 3 → nthD 0 [0, 0, 0] a < nthD 1 [2, 1, 1] a ∧ nthD 1 [2, 1, 1] a ≤ 16 ∧ pair.extentOn a ≤ nthD 1 [2, 1, 1] a) ∧ 1 < pair.size ∧
    1 ∈ groupMembers [2, 1, 1] [0, 0, 0] pair ∧ pair.position [2, 1, 1] 1 = pair.position [2, 1, 1] 0 + 1 :=
  ⟨by decide, by decide, List.mem_filter.mpr ⟨by simp, by decide +kernel⟩, by decide +kernel⟩

theorem witness_PacketsSurviveTheirFlits :
    (pkt 1 (List.replicate 4096 5)).data.length ≤ 4096 ∧ (∀ i : Nat, i % 4096 < 4096) ∧ 4095 < 4096 ∧ 7 < 8 ∧ 255 < 256 ∧
    (bodiesFrom 17 true (packetBytes (pkt 1 (List.replicate 300 5)))).length = 2 :=
  ⟨Nat.le_of_eq (List.length_replicate ..), fun i => Nat.mod_lt _ (by decide), by decide, by decide, by decide, by decide +kernel⟩

theorem witness_RingsAndPiecesCoverTheGroup_pieces : 0 < 3 ∧ 6 < 7 ∧ (halfPiece 3 7 0).1 ≤ 0 ∧ 0 < (halfPiece 3 7 0).1 + (halfPiece 3 7 0).2 ∧ orderPlace 3 1 1 = 0 := by
  decide

theorem acts_like (s : State) (u : Submission) (c : Context) (h : s.boxes = (cmd u).boxes ∧ s.mstate = .ready ∧ s.hbm.rekeying = none ∧ s.lead.dispatching = true)
    (ht : u.tag = 7) (hs : u.session = 0x1000) (hc : s.contexts = [c]) (hk : c.sess = 0x1000) : ActsFor s 0 7 u.opcode (out u) c := by
  obtain ⟨⟨a, b, d, e⟩, f, -⟩ := acts_cmd u ht hs
  refine ⟨⟨?_, b, ?_, ?_⟩, f, ?_⟩
  · simpa [findOut, findBox, h.1] using a
  · simp [serving, h.2.1, h.2.2.1, h.2.2.2]
  · simpa [inOrder, findBox, h.1] using e
  · simp [findCtx, hc, out, hs, hk]

/-- A record of the group of modules 0 and 1, without a window. -/
def groupBytes : List Byte := leBytes 2 2 ++ leBytes 2 1 ++ leBytes 2 0 ++ leBytes 2 1 ++ leBytes 8 0 ++ leBytes 8 0

def joining (u : Submission) (c : Context) : State := bytesAt { net c with boxes := (cmd u).boxes } 0x50000 groupBytes

theorem member_zero : 0 ∈ (groupOfRecord (joining (sub 0x30) ctx) (groupBytes ++ List.replicate 40 0) 6 50).members := by
  unfold groupOfRecord groupMembers
  dsimp only
  exact List.mem_filter.mpr ⟨List.mem_range.mpr (by decide), by decide +kernel⟩

theorem member_one : 1 ∈ (groupOfRecord (joining (sub 0x30) ctx) (groupBytes ++ List.replicate 40 0) 6 50).members := by
  unfold groupOfRecord groupMembers
  dsimp only
  exact List.mem_filter.mpr ⟨List.mem_range.mpr (by decide), by decide +kernel⟩

theorem witness_GroupsAndStreamsOpen :
    (∀ p0 p1 p2 : U64, ∀ c : Context, c.sess = 0x1000 → ActsFor (joining (sub 0x30 p0 p1 p2) c) 0 7 0x30 (out (sub 0x30 p0 p1 p2)) c) ∧
    good (readVa (joining (sub 0x30 0x10 6 50) ctx) ctx .rd 0x10 64) = false ∧
    ([((6 : U64), (50 : U64)), (0, 50), (6, 19)].all fun p =>
      gives (readVa (joining (sub 0x30 0x50000 p.1 p.2) ctx) ctx .rd 0x50000 64) (groupBytes ++ List.replicate 40 0)) = true ∧
    (let u := sub 0x30 0x50000 6 50
     let s := joining u ctx
     let g0 := groupOfRecord s (groupBytes ++ List.replicate 40 0) 6 50
     (P0 (out u) % 64 = 0 ∧ P1 (out u) = 6 ∧ P2 (out u) % 65536 = 50 ∧ 20 ≤ 50 ∧ g0.gid ≠ 0 ∧ g0.axes ≠ 0 ∧ extentsOk s g0 = true ∧ windowOk s ctx g0 = true ∧
      quotaBreach s ctx.tenant [(0x08, quotaUse s ctx.tenant 0x08 none + 1)] = none ∧ sumNat (s.contexts.map fun d => d.groups.length) < 256 ∧
      (¬ ∃ d ∈ s.contexts, d.tenant ≠ ctx.tenant ∧ ∃ x ∈ d.groups, x.jobTag = 6) ∧ ¬ ∃ x ∈ ctx.groups, x.gid = g0.gid) ∧
     ((∃ x ∈ member.groups, x.gid = g0.gid) ∧ P1 (out (sub 0x30 0x50000 0 50)) = 0 ∧ P2 (out (sub 0x30 0x50000 6 19)) % 65536 = 19 ∧
      (groupOfRecord s (List.replicate 64 0) 6 50).gid = 0)) :=
  ⟨fun p0 p1 p2 c hk => acts_like _ _ c ⟨rfl, rfl, rfl, rfl⟩ rfl rfl rfl hk, by decide +kernel, by decide +kernel, by decide +kernel⟩

def joinPkt (g : Group) : Packet := { pkt 0x13 [] with a := groupDigest g 1 }

def half : Group := { pair with joined := [0] }

def stream0 : PeerStream := { number := 5, handle := 0x800003, group := 0x800001, peer := 1, rxBytes := some 0x1000, nextTransfer := 0, openedAt := 0, openTag := none }

theorem witness_GroupsAndStreamsOpen_packets :
    (∀ g : Group, ∀ p, p.type.toNat = 0x13 → p.dstMod = 0 → p.incarn = 0 → p.jobTag = 6 → p.groupId = 2 → g.gid = 2 → g.jobTag = 6 →
      Arrives (net { ctx with groups := [g] }) p 0x13 { ctx with groups := [g] } g) ∧
    (let p := joinPkt half
     p.a = groupDigest half 1 ∧ p.srcMod.toNat ∈ half.members ∧ p.srcMod.toNat ∉ half.joined ∧ p.srcMod.toNat ∈ pair.joined) ∧
    (let g := { half with joinTag := some 7 }
     let c := { ctx with groups := [g] }
     waitingJoin (net c) 0 7 = some (c, g) ∧ g.joinedAt + 10 * 10 ^ 9 ≤ (net c).now) ∧
    (∀ p0 p1 : U64, ActsFor (joining (sub 0x31 p0 p1) member) 0 7 0x31 (out (sub 0x31 p0 p1)) member) ∧
    (let u := sub 0x31 0x800001 1
     let s := joining u member
     findGroup member (P0 (out (sub 0x31 9)) % 2 ^ 24) = none ∧ findGroup member (P0 (out u) % 2 ^ 24) = some pair ∧ pair.complete = true ∧ P1 (out u) % 4096 ∈ pair.members ∧
     3 ∉ pair.members ∧ quotaBreach s member.tenant [(0x09, quotaUse s member.tenant 0x09 none + 1)] = none ∧ (allStreams s).length < 8192) ∧
    (let x := { stream0 with openTag := some 7, rxBytes := none }
     let c := { member with streams := [x] }
     (∀ d' ∈ (net c).contexts, d'.fn = 0 → ∀ y ∈ d'.streams, y.openTag = some 7 → d' = c ∧ y = x) ∧ c ∈ (net c).contexts ∧ x ∈ c.streams ∧
     findGroup c x.group = some pair ∧
     (let p := { pkt 0x12 [] with msg := 5 }
      Arrives (net c) p 0x12 c pair ∧ (c.streams.find? fun x => x.number == p.msg.toNat && x.peer == p.srcMod.toNat && x.group == pair.handle && x.rxBytes.isNone) = some x)) ∧
    Arrives (net member) (pkt 0x11 []) 0x11 member pair := by
  refine ⟨fun g p ht hd hi h1 h2 h3 h4 => arrives_net p 0x13 ht hd hi (by simp [h1, h2, h3, h4]), by decide +kernel, by decide +kernel, fun p0 p1 =>
    acts_like _ _ member ⟨rfl, rfl, rfl, rfl⟩ rfl rfl rfl rfl, by decide +kernel, ⟨?_, List.mem_cons_self .., List.mem_cons_self .., by decide +kernel,
      ⟨rfl, rfl, rfl, rfl⟩, by decide +kernel⟩, arrives_net _ _ rfl rfl rfl rfl⟩
  intro d' hd hf y hy ht
  have hd' : d' = _ := List.mem_singleton.mp hd
  subst hd'
  exact ⟨rfl, List.mem_singleton.mp hy⟩

theorem witness_PacketsAndTransfersRun :
    (∀ x ∈ packetRows, (pkt (BitVec.ofNat 8 x.1) []).type.toNat = x.1) ∧
    (∀ t : Byte, (pkt t []).dstMod.toNat = myNumber (net ctx) ∧ groupOfPacket (takePacket (net ctx) (pkt t [])) (pkt t []) = none ∧
      groupOfPacket (takePacket (net member) (pkt t [])) (pkt t []) = some (member, pair) ∧ ({ pkt t [] with incarn := 1 }).incarn ≠ (net member).faults.moduleIncarnation) ∧
    classOf (pkt 0x00 []).type.toNat = none :=
  ⟨by decide, fun t => ⟨rfl, rfl, rfl, by show (1 : Byte) ≠ 0; decide⟩, by decide⟩

def sendWord (off sem : Nat) : BitVec 512 := word 0x50 [(0x10, 5), (0x18, 0x80000), (0x20, off), (0x28, 0x80 + sem)]

theorem fabric_runs (c : Context) (w : BitVec 512) (ds : List (Nat × BitVec 512)) (sel : BitVec 512 → Bool) (h : sel w = true) (hs : c.sess = 0x1000) :
    Runs (onInst (net c) .fabric (going w ds)) .fabric sel (going w ds) c :=
  runs_on .fabric sel (going w ds) rfl rfl (by simp [findCtx, net, going, hs]) h rfl

theorem witness_PacketsAndTransfersRun_transfers :
    (∀ off sem, cmdOpcode (sendWord off sem) = 0x50 → ∀ c : Context, c.sess = 0x1000 → Runs (onInst (net c) .fabric (going (sendWord off sem) [(0x18, flat 0x90000 0 4)])) .fabric
      (fun w => cmdOpcode w == 0x50) (going (sendWord off sem) [(0x18, flat 0x90000 0 4)]) c) ∧
    (let c := { member with streams := [stream0] }
     cmdOpcode (sendWord 0 3) = 0x50 ∧ cmdOpcode (sendWord 0 48) = 0x50 ∧ fld (sendWord 0 48) 0x28 7 7 = 1 ∧ 47 < fld (sendWord 0 48) 0x28 5 0 ∧
     fld (sendWord 0 3) 0x28 5 0 = 3 ∧ (c.streams.find? fun x => x.number == fld (sendWord 0 3) 0x10 12 0) = some stream0 ∧ stream0.rxBytes = some 0x1000 ∧
     findGroup c stream0.group = some pair ∧
     (decodeDesc (flat 0x90000 0 4)).footprint.length ≤ 0x1000 ∧ 0x1000 < 0x1000 + (decodeDesc (flat 0x90000 0 4)).footprint.length ∧
     good (readBytesAt (net c) c .rd (decodeDesc (flat 0x90000 0 4)).footprint) = true ∧ good (readBytesAt (net c) c .rd (decodeDesc (flat 0x900000 0 4)).footprint) = false) ∧
    (let p := { pkt 0x01 (List.replicate 16 1) with a := 0x10 }
     Arrives (net member) p 0x01 member pair ∧ (∃ t c1, Wakes (net member) p member t c1) ∧ good (writeVa (net member) member .wr (pair.rxBase + 0x10) p.data) = true ∧
     good (writeVa (net member) { member with allocs := [] } .wr (pair.rxBase + 0x10) p.data) = false) ∧
    (let x : RxStream := { src := 1, stream := 5, nextTransfer := 0, arrived := [(0, 3, 1, none), (1, 1, 1, none)], refused := [] }
     ∀ a ∈ x.arrived, a.2.2.1 < a.2.1 ∨ a.1 ≠ x.nextTransfer ∨ a.1 ∈ x.refused) ∧
    Arrives (net member) (pkt 0x0F []) 0x0F member pair := by
  refine ⟨fun off sem h c hs => fabric_runs c _ _ _ (by simp [h]) hs, by decide +kernel, ⟨arrives_net _ _ rfl rfl rfl rfl,
    (wakes_net _ _ rfl rfl).imp fun _ h => h.imp fun _ h => h.1, by decide +kernel⟩, by decide, arrives_net _ _ rfl rfl rfl rfl⟩

def collWord (k : Nat) : BitVec 512 := word 0x51 [(0x10, 0x800001), (0x18, 0x80000), (0x20, 0x80040), (0x28, k)]
def collDescs (k : Nat) : List (Nat × BitVec 512) :=
  if k = 5 then [] else [(0x18, flat 0x90000 0 4), (0x20, flat 0xA0000 0 (if k = 2 then 8 else 4))]

theorem witness_CollectivesRun :
    (∀ k ∈ collRows, ∀ c : Context, c.sess = 0x1000 → ∀ ds, Runs (onInst (net c) .fabric (going (collWord k.1) ds)) .fabric
      (fun w => cmdOpcode w == 0x51 && fld w 0x28 3 0 == k.1) (going (collWord k.1) ds) c) ∧
    (∀ k ∈ [0, 1, 2, 3, 4, 5],
      let r := going (collWord k) (collDescs k)
      let s := onInst (net member) .fabric r
      findGroup ctx (fld r.word 0x10 23 0) = none ∧ findGroup member (fld r.word 0x10 23 0) = some pair ∧ pair.complete = true ∧ pair.current = none ∧
      ({ pair with complete := false }).complete = false ∧
      collOk k pair.size (r.desc 0x18) (r.desc 0x20) = true ∧ collSpans s member (r.desc 0x18) (r.desc 0x20) = none ∧
      (k = 5 ∨ (collSpans s { member with allocs := [] } (r.desc 0x18) (r.desc 0x20)).isSome = true) ∧
      (let y : Collective := { ref := r.ref, seq := pair.nextSeq, kind := k, op := fld r.word 0x28 7 4, wire := (collShape k (r.desc 0x18) (r.desc 0x20)).1, count := (collShape k (r.desc 0x18) (r.desc 0x20)).2, step := 0, startedAt := s.now, readyPos := false, readyNeg := false, phase := 0, heard := [], outbox := [], got := [], abort := none }
       good (collBegin (markStarted s .fabric r.ref) member pair y (r.desc 0x18) (r.desc 0x20)) = true) ∧
      (({ pair with aborts := [(0, 1, 3, 9)] }).aborts.find? fun a => a.1 == 0 && a.2.1 == pair.nextSeq) = some (0, 1, 3, 9)) := by
  have h : (collRows.all fun k => cmdOpcode (collWord k.1) == 0x51 && fld (collWord k.1) 0x28 3 0 == k.1) = true := by decide +kernel
  exact ⟨fun k hk c hs ds => fabric_runs c _ ds _ (List.all_eq_true.mp h k hk) hs, by decide +kernel⟩

def collRunning (k : Nat) : Running := { going (collWord k) (collDescs k) with started := true }

def collective (k : Nat) : Collective :=
  { ref := ⟨1, 0, 0⟩, seq := 1, kind := k, op := 0, wire := 0, count := 4, step := 0, startedAt := 0, readyPos := true, readyNeg := true, phase := 0, heard := [],
    outbox := [], got := [], abort := none }

def busy (x : Collective) : Group := { pair with current := some x, nextSeq := 2 }
def busyState (k : Nat) (x : Collective) : State := onInst (net { ctx with groups := [busy x] }) .fabric (collRunning k)

theorem arrives_in {s : State} {c : Context} {g : Group} (p : Packet) (ty : Nat) (ht : p.type.toNat = ty) (hd : p.dstMod.toNat = myNumber s) (hi : p.incarn = s.faults.moduleIncarnation)
    (hc : s.contexts = [c]) (hg : (c.groups.find? fun g => g.gid == p.groupId.toNat && g.jobTag == p.jobTag) = some g) : Arrives s p ty c g :=
  ⟨ht, hd, by simp [groupOfPacket, takePacket, hc, hg], hi⟩

def collPkt (k kind count : Nat) : Packet := { pkt 0x02 (List.replicate 4 0) with msg := 1, a := BitVec.ofNat 64 (kind + k * 65536 + count * 2 ^ 32) }

theorem witness_CollectivesRun_packets :
    (Arrives (net member) (pkt 0x03 []) 0x03 member pair ∧ (pkt 0x03 []).a.toNat % 16 ≠ 3) ∧
    (∀ p : Packet, p ∈ [{ pkt 0x03 [] with a := 3 }, { pkt 0x14 [] with a := 1 }] → Floods (net member) p p.type.toNat (forwardFlood (takePacket (net member) p) p) member pair 0) ∧
    (∀ k ∈ [0, 2], ∀ n, Arrives (busyState k (collective k)) (collPkt n k 4) 0x02 { ctx with groups := [busy (collective k)] } (busy (collective k))) ∧
    (∀ k ∈ [0, 2], collOf (takePacket (busyState k (collective k)) (collPkt 0 k 4)) 0x1000 0x800001 =
      some ({ ctx with groups := [busy (collective k)] }, busy (collective k), collective k, collRunning k)) ∧
    (collPkt 0 0 4).msg.toNat = (collective 0).seq ∧ (collective 0).abort = none ∧
    dataDiffers (collective 0) true (collPkt 0 0 4).a.toNat = false ∧ dataDiffers (collective 0) true (collPkt 0 0 5).a.toNat = true ∧
    dataDiffers (collective 2) true (collPkt 0 2 4).a.toNat = false ∧
    (let c := { ctx with groups := [busy (collective 0)] }
     (match (collRunning 0).desc 0x18, (collRunning 0).desc 0x20 with
      | some a, some b => good (collReduce (busyState 0 (collective 0)) c (busy (collective 0)) (collective 0) a b (collPkt 0 0 4))
      | _, _ => false) = true) ∧
    (let c := { ctx with groups := [busy (collective 2)] }
     good (collCarry (busyState 2 (collective 2)) c (busy (collective 2)) (collective 2) ((collRunning 2).desc 0x20) (collPkt 1 2 4)) = true) ∧
    collOf (busyState 5 { collective 5 with abort := some (3, 9, 0) }) 0x1000 0x800001 =
      some ({ ctx with groups := [busy { collective 5 with abort := some (3, 9, 0) }] }, busy { collective 5 with abort := some (3, 9, 0) },
        { collective 5 with abort := some (3, 9, 0) }, collRunning 5) := by
  refine ⟨⟨arrives_net _ _ rfl rfl rfl rfl, by decide⟩, ?_, fun k _ n => arrives_in _ _ rfl rfl rfl rfl rfl, by decide +kernel⟩
  intro p hp
  rcases List.mem_cons.mp hp with rfl | hp
  · exact ⟨rfl, rfl, rfl, rfl, by decide +kernel, by decide, false, 1, by decide +kernel⟩
  · rcases List.mem_singleton.mp hp with rfl
    exact ⟨rfl, rfl, rfl, rfl, by decide +kernel, by decide, false, 1, by decide +kernel⟩

theorem witness_VotesAndAbortsAreTakenUp :
    (∀ p : Packet, p ∈ [{ pkt 0x0D [] with step := 7 }, { pkt 0x0E [] with a := 65536 }] →
      Floods (net member) p p.type.toNat (forwardFlood (takePacket (net member) p) p) member pair 0 ∧
      (activateByPacket (forwardFlood (takePacket (net member) p) p) 0x1000).2 = true ∧
      (findCtx (activateByPacket (forwardFlood (takePacket (net member) p) p) 0x1000).1 0x1000).isSome = true) ∧
    ((pair.aborts.find? fun y => y.1 == 1 && y.2.1 == 3) = none ∧
      (({ pair with aborts := [(1, 3, 0, 9)] }).aborts.find? fun y => y.1 == 1 && y.2.1 == 3) = some (1, 3, 0, 9) ∧
      (2 < (busy (collective 0)).nextSeq + 1 ∧ ({ busy (collective 0) with current := none }).current = none)) ∧
    (let v := { voted .none with group := 0x800001 }
     let c := { member with vote := some v, rim := { ctx.rim with pending := 7 } }
     findCtx (net c) 0x1000 = some c ∧ findGroup c v.group = some pair ∧ v.decision = .none ∧ v.castAt + pair.timeoutNs ≤ (net c).now ∧
     (net c).now < ({ v with castAt := 10 ^ 12 }).castAt + pair.timeoutNs) ∧
    (let x : Settle := { step := 7, group := 0x800001, record := 0, startedAt := 0, phase := 0, aborted := false, ref := ⟨1, 0, 0⟩ }
     let c := { member with settles := [x] }
     findCtx (net c) 0x1000 = some c ∧ findGroup c x.group = some pair ∧ x.startedAt + pair.timeoutNs ≤ (net c).now) ∧
    (let q := { read0 with state := .remote, group := 0x800001 }
     let s := { net member with requests := [q] }
     (s.requests.find? fun q => q.id == 1 && !q.stopped && (q.state == ReqState.remote || q.state == ReqState.held)) = some q ∧ findCtx s q.sess = some member ∧
     findGroup member q.group = some pair) ∧
    (let q : RemoteReq := { msg := 3, ref := ⟨1, 0, 0⟩, sess := 0x1000, group := 0x800001, type := 0x0A, hop := 7, items := [], peer := 1, targetIncarn := 0, sentAt := 0, stopped := false }
     let s := { onInst (net member) (.splints .west) (going (word 0x21 []) []) with remoteReqs := [q] }
     groupOfReq s q.sess q.group = some pair ∧ q.sentAt + pair.timeoutNs ≤ s.now ∧ (∃ r ∈ (findEngine s (.splints .west)).running, r.ref = q.ref)) := by
  refine ⟨?_, by decide +kernel, by decide +kernel, by decide +kernel, by decide +kernel, by decide +kernel⟩
  intro p hp
  rcases List.mem_cons.mp hp with rfl | hp
  · exact ⟨⟨rfl, rfl, rfl, rfl, by decide +kernel, by decide, false, 1, by decide +kernel⟩, by decide +kernel⟩
  · rcases List.mem_singleton.mp hp with rfl
    exact ⟨⟨rfl, rfl, rfl, rfl, by decide +kernel, by decide, false, 1, by decide +kernel⟩, by decide +kernel⟩

def dataFlit (seq : Nat) (fin : Bool) (dst : Nat) : List Byte :=
  flitBytes seq 0 1 1 true fin 1 1 (packetBytes { pkt 0x13 [] with dstMod := BitVec.ofNat 12 dst })

theorem witness_LinksCarryFlits :
    (findPort rdy 3 = none ∧ ((findPort (setPort (net ctx) 3 fun p => { p with state := .down }) 3).map fun p => p.state) = some .down ∧
      ((findPort (net ctx) 3).map fun p => (p.state, p.expected)) = some (.up, 0)) ∧
    Machine.flitOk (List.replicate 256 1) = false ∧
    (Machine.flitOk (dataFlit 0 true 0) = true ∧ flitKind (dataFlit 0 true 0) = 1 ∧ BitVec.ofNat 12 (fieldAt (dataFlit 0 true 0) 0 8) = 0 ∧
      (flitParts (dataFlit 0 true 0)).2.2.2 = true ∧ (decodePacket (flitParts (dataFlit 0 true 0)).2.1).dstMod.toNat = 0) ∧
    (BitVec.ofNat 12 (fieldAt (dataFlit 1 true 0) 0 8) = 1 ∧ (flitParts (dataFlit 0 false 0)).2.2.2 = false ∧
      (decodePacket (flitParts (dataFlit 0 true 1)).2.1).dstMod.toNat = 1) ∧
    (Machine.flitOk (flitBytes 0 0 0 0 false false 1 1 []) = true ∧ flitKind (flitBytes 0 0 0 0 false false 1 1 []) = 0) := by
  decide +kernel

theorem witness_LinksCarryFlits_credits :
    (let p : Port := { num := 0, state := .up, credits := fullCredits, waiting := [(1, [], true, true), (3, [], true, true)] }
     p.credits.length = 8 ∧ (∀ w ∈ p.waiting, w.1 < 8) ∧ p.retry.length ≤ 4095 ∧ ({ p with state := .held }).state ≠ .up) := by
  decide

theorem witness_LinksCarryFlits_states :
    ((∀ n < 12, (findPort (net ctx) n).isSome = true) ∧
      (let s := setPort (net ctx) 0 fun p => { p with state := .down }
       (1 : Nat) = expectedPeer s 0 ∧ s.fabric.dims ≠ [1, 1, 1] ∧ ((findPort s 0).map fun p => (p.state, decide (p.lanes = 0))) = some (.down, false) ∧
       (3 : Nat) ≠ expectedPeer s 0)) ∧
    ((findPort (setPort (net ctx) 0 fun p => { p with state := .retired }) 0).map fun p => p.state) = some .retired ∧
    ((findPort (setPort (net ctx) 0 fun p => { p with state := .wiring }) 0).map fun p => (p.state, decide (p.lastTry + 1000000000 ≤ (net ctx).now))) = some (.wiring, true) ∧
    ((findPort (setPort (net ctx) 0 fun p => { p with state := .held }) 0).map fun p => (p.state, decide (p.heldSince + 5000000 ≤ (net ctx).now))) = some (.held, true) ∧
    ((findPort (net ctx) 0).map fun p => (p.state, p.lanes)) = some (.up, 0xF) ∧
    (liveMask (net ctx) ≠ 0 ∧ (net ctx).fabric.grandmaster = false ∧ liveMask rdy = 0 ∧ (net ctx).fabric.locked = false ∧ ({ net ctx with mstate := .upsett }).mstate = .upsett ∧
      (net ctx).mstate ≠ .upsett ∧ -100 ≤ (65536 * 100 : Int).tdiv 65536 ∧ (65536 * 100 : Int).tdiv 65536 ≤ 100 ∧ (1 : BitVec 12).toNat ≠ myNumber (net ctx)) := by
  decide +kernel

/-! ### Faults, resets, leadership and firmware -/

/-- An image without a body: its magic, format, key, version and security version as given, and a signature of zeros. -/
def fwImage (magic version security : Nat) : List Byte :=
  leBytes 4 magic ++ [3, 0, 0, 0] ++ leBytes 4 version ++ leBytes 2 security ++ [3, 0] ++ List.replicate 144 0

def good64 : List Byte := fwImage 0x53565950 0x030000 5

def fwCmd (p n : U64) (bs : List Byte) : State := { cmd (subOp 0x83 0x5000 n p) with hostMem := writeCells [] 0x5000 bs }

theorem takes_all (s : State) (a n : Nat) (h : s.hostRefuse = []) (hn : a + n ≤ 2 ^ 64) : HostTakes s a n := by
  intro i hi
  have : a + i < 18446744073709551616 := by omega
  simp [refused, h, this]

theorem fw_acts (p n : U64) (bs : List Byte) : ActsOn (fwCmd p n bs) 0 7 (out (subOp 0x83 0x5000 n p)) := by
  refine ⟨rfl, rfl, rfl, ?_⟩
  simp [fwCmd, cmd, wait, out, inOrder, findBox, box, rdy, Mailbox.fresh]

theorem verify_passes (f : Firmware) (n : Nat) (bs : List Byte) (k : Nat) (h1 : ¬ (n ≠ 64 + imgBody bs + 96 ∨ 16 * mib < n ∨ imgBody bs % 4096 ≠ 0))
    (h2 : headerGood bs = true) (h3 : imgKey bs = k) (hk : keyUsable k = true)
    (hv : ecdsaVerify (Config.fwKey k) (bs.take (bs.length - 96)) (bs.drop (bs.length - 96)) = true) (h4 : ¬ imgSecurity bs < f.fusedMinimum)
    (h5 : ¬ fieldAt bs 0xE 1 ≠ 3) : verifyFirmware f n bs = none := by
  subst h3
  simp only [verifyFirmware, if_neg h1, h2, hk, hv, if_neg h4, if_neg h5]
  rfl

/-- What an image passes by depends on the keys of the installation, which Lean cannot see; given them, all other rules are met. -/
theorem witness_FirmwareIsUpdated :
    (∀ p n bs, ActsOn (fwCmd p n bs) 0 7 (out (subOp 0x83 0x5000 n p)) ∧ HostTakes (fwCmd p n bs) 0x5000 160) ∧
    (([0, 1] : List U64).all fun p => !(out (subOp 0x83 0x5000 160 p)).sub.p2.getLsbD 1 &&
      !fwOvertaken (fwCmd p 160 good64) 0 (out (subOp 0x83 0x5000 160 p))) = true ∧
    fwOvertaken (wait rdy (out (subOp 0x83)) |> fun s => { s with boxes := [{ box with outstanding := [out (subOp 0x83), { out (subOp 0x83) with order := 9 }] }] })
      0 (out (subOp 0x83)) = true ∧
    readCells (fwCmd 0 160 good64).hostMem 0x5000 160 = good64 ∧ verifyFirmware {} 159 (good64.take 159) = some 0x40 ∧
    verifyFirmware {} 160 (fwImage 0 1 5) = some 0x41 ∧
    (keyUsable 0 = true → ecdsaVerify (Config.fwKey 0) (good64.take (good64.length - 96)) (good64.drop (good64.length - 96)) = true →
      verifyFirmware {} 160 good64 = none) := by
  refine ⟨fun p n bs => ⟨fw_acts p n bs, takes_all _ _ _ rfl (by decide)⟩, by decide +kernel, by decide +kernel, by decide +kernel, by decide +kernel, by decide +kernel, ?_⟩
  intro hk hv
  exact verify_passes {} 160 good64 0 (by decide +kernel) (by decide +kernel) (by decide +kernel) hk hv (by decide +kernel) (by decide +kernel)

def update (phase failures : Nat) : Update := { fn := 0, tag := 7, phase := phase, startedAt := 0, failures := failures, oldSlot := 0, oldVersion := 1 }
def updating (phase failures : Nat) : State := { rdy with fw := { rdy.fw with update := some (update phase failures) } }

theorem witness_FirmwareIsUpdated_live :
    rdy.fw.update = none ∧ ({ slotA := ⟨1, 4, true⟩, slotB := ⟨2, 6, true⟩ } : Firmware).slotA.verified = true ∧
    (∀ p ∈ [1, 4], followerSound (updating p 0) = true ∧ (updating p 0).fw.update = some (update p 0) ∧ (update p 0).phase = p ∧
      (update p 0).startedAt + 2000000000 ≤ (updating p 0).now ∧ (update p 1).failures ≠ 0) ∧
    readCells (fwCmd 2 160 (fwImage 0 1 5)).hostMem 0x5000 160 = fwImage 0 1 5 ∧ ({ updating 1 0 with now := 5 }).now < (update 1 0).startedAt + 300000000 ∧
    (∀ m ∈ [ModState.ready, .recovery], let s := { fwCmd 2 160 (fwImage 0 1 5) with mstate := m }
      findOut s 0 7 = some (out (subOp 0x83 0x5000 160 2)) ∧ (subOp 0x83 0x5000 160 2).isRecover 0 = true ∧ (out (subOp 0x83 0x5000 160 2)).started = false ∧
      HostTakes s 0x5000 160 ∧ verifyFirmware s.fw 160 (fwImage 0 1 5) = some 0x41) := by
  refine ⟨by decide +kernel, by decide +kernel, by decide +kernel, by decide +kernel, by decide +kernel, ?_⟩
  have h : verifyFirmware (fwCmd 2 160 (fwImage 0 1 5)).fw 160 (fwImage 0 1 5) = some 0x41 ∧
    (subOp 0x83 0x5000 160 2).isRecover 0 = true := by decide +kernel
  exact fun m _ => ⟨rfl, h.2, rfl, takes_all _ _ _ rfl (by decide), h.1⟩

def lost (s : State) (us : List U16) : State := { s with faults := { s.faults with retired := us } }

def resetCmd (u : U64) : State := cmd (subOp 0x84 u)

theorem witness_UnitsAreResetAndRetired :
    (∀ op u, ActsOn (cmd (subOp op u)) 0 7 (out (subOp op u))) ∧
    (∀ c ∈ ([0, 1, 3, 4, 5, 0xB, 0xC] : List Nat), unitKnown (BitVec.ofNat 16 (c * 4096)) = true ∧ isRetired rdy (BitVec.ofNat 16 (c * 4096)) = false ∧
      unitResetting rdy (c * 4096) = false) ∧ unitKnown 0x2000 = true ∧
    (let s := { lost (resetCmd 0x3000) [0x3000] with lists := [] }
     ActsOn s 0 7 (out (subOp 0x84 0x3000)) ∧ isRetired s 0x3000 = true) ∧
    (let s := { resetCmd 0x1000 with lead := { rdy.lead with followerUp := false } }
     leads s 0x1000 = true ∧ cpWorks { s with faults := { s.faults with retired := [0x1001] } } .east = false) ∧
    leads rdy 0x1000 = true ∧ cpWorks rdy .east = true ∧ leads rdy 0x1001 = false ∧ leads rdy 0x3000 = false ∧
    (let u : U16 := 0x3000
     let s := startReset rdy u 0 (some (0, 7))
     (s.faults.resetting.find? fun r => r.unit == u).isSome = true ∧ isRetired s u = false ∧ isRetired (actDeferred (unitBack s u)) u = false ∧
     (rdy.faults.resetting.find? fun r => r.unit == u) = none) ∧
    lastOfKind (lost rdy [0x4001]) 0x4000 = true ∧ lastOfKind rdy 0x3000 = false ∧
    unitClass (0x3000 : U16) ≠ 2 ∧ unitKnown 0xF000 = false ∧
    fifthColumn { rdy with weave := { west := { disabled := 0xF } } } (unitInst 0x2004) = true ∧
    (leads (bucketEvent rdy 18 0x1001 0 0) 0x1001 = false ∧ isRetired (bucketEvent rdy 18 0x1001 0 0) 0x1001 = false) ∧
    bucketRow 8 = some (4, some (24 * hourNs)) ∧ rdy.power.pcieUp = true ∧
    (let s := { rdy with lead := { rdy.lead with followerUp := false } }
     unitResetting s (cpUnit .east).toNat = false ∧ Half.east ≠ s.lead.leader ∧ s.lead.heldProcessor = none ∧ isRetired s (cpUnit .east) = false ∧
     unitResetting s Half.east.num = false ∧ s.fw.update = none) := by
  refine ⟨fun op u => acts_cmdOp _ rfl, by decide +kernel, by decide +kernel, ⟨⟨rfl, rfl, rfl, rfl⟩, by decide +kernel⟩, ?_⟩
  decide +kernel

theorem witness_ErrorLogIsRead :
    (∀ n k, ActsOn (cmd (subOp 0x87 0x5000 n k)) 0 7 (out (subOp 0x87 0x5000 n k)) ∧ HostTakes (cmd (subOp 0x87 0x5000 n k)) 0x5000 128) ∧
    LogInOrder rdy ∧ (let s := addLog (addLog (cmd (subOp 0x87 0x5000 128 1)) 5 0 {}) 6 0 {}
    s.faults.log.length = 2 ∧ LogInOrder s ∧ 0 < Nat.min (128 / 64) (s.faults.nextIndex - Nat.max 1 (s.faults.nextIndex - s.faults.log.length))) := by
  refine ⟨fun n k => ⟨acts_cmdOp _ rfl, takes_all _ _ _ rfl (by decide)⟩, ?_⟩
  refine ⟨⟨by decide +kernel, fun i r h => by simp [rdy, State.reset] at h⟩, by decide +kernel, ⟨by decide +kernel, ?_⟩, by decide +kernel⟩
  intro i r h
  rcases i with - | - | i
  · cases h
    decide +kernel
  · cases h
    decide +kernel
  · cases h

theorem witness_LeaseIsKept :
    (cpWorks rdy .west = true ∧ cpWorks rdy .east = true ∧ rdy.lead.handleUntil ≤ rdy.now ∧ rdy.lead.leader = .west ∧
      rdy.lead.lastBeatWest + 1000000 ≤ rdy.now ∧ rdy.lead.lastBeatEast + 1000000 ≤ rdy.now) ∧
    ({ rdy with now := 1000 }).now < rdy.lead.lastBeatWest + 1000000 ∧
    ({ rdy with lead := { rdy.lead with granting := true } }).lead.granting = true ∧
    ({ rdy with lead := { rdy.lead with handleUntil := 2 * 10 ^ 12 } }).now < 2 * 10 ^ 12 ∧
    (7 : U32) ≠ rdy.lead.epoch ∧ (rdy.lead.epoch + 1 ≠ 0) ∧
    (∀ p ∈ [((3 : U32), (4 : U32)), (4, 3)], ∃ t, exec (.splitLeaseClaim p.1 p.2) rdy = .next t ∧
      isRetired t (cpUnit (if p.1 < p.2 then .west else .east)) = false) := by
  refine ⟨by decide +kernel, by decide +kernel, rfl, by decide +kernel, by decide +kernel, by decide +kernel, ?_⟩
  have h : ([((3 : U32), (4 : U32)), (4, 3)].all fun p => !isRetired (splitClaim rdy p.1 p.2) (cpUnit (if p.1 < p.2 then .west else .east))) = true := by
    decide +kernel
  intro p hp
  exact ⟨splitClaim rdy p.1 p.2, rfl, by simpa using List.all_eq_true.mp h p hp⟩

/-! ### Upsett, power, heat and the management interface -/

/-- What nature gives a clean start. -/
def nature : UpsettOutcome :=
  { handleOk := true, configOk := true, locksOk := true, handOffA := true, handOffB := true, failedUnits := [], spareLanes := List.replicate 8 0,
    portsUp := 0, lanes := List.replicate 12 0xF, timeLock := none }

/-- A module whose supplies are in range, with the auxiliary one as given. -/
def powered (aux : Bool) : State := { State.reset with power := { auxPresent := aux, inputMv := 48000, charged := true } }
def powerOf (f : Power → Power) : State := { rdy with power := f rdy.power }

theorem witness_UpsettReachesReady :
    (∀ aux, let s := powered aux
      s.power.holdOff = false ∧ s.fw.update = none ∧ s.power.auxPresent = aux ∧ inputOk s = true ∧ s.power.charged = true ∧ nature.handleOk = true ∧
      nature.failedUnits = [] ∧ nature.locksOk = true ∧ slotBoots s nature s.fw.bootSlot = true ∧ (s.fw.bootSlot = 0 ∨ s.fw.bootSlot = 1)) ∧
    ({ nature with handleOk := false }).handleOk = false ∧ ({ nature with locksOk := false }).locksOk = false ∧
    (let o := { nature with handOffA := false, handOffB := false }
     slotBoots (powered false) o 0 = false ∧ slotBoots (powered false) o 1 = false) ∧
    (∀ low, let s := powerOf fun p => { p with resetLow := low }
      s.power.auxPresent = true ∧ s.power.resetLow = low ∧ s.power.railsOn = true ∧ s.power.thermtrip = false ∧ s.power.holdOff = false ∧ s.fw.update = none ∧
      slotBoots s nature s.fw.bootSlot = true) ∧
    ({ rdy with power := { rdy.power with holdOff := true } }).power.holdOff = true :=
  ⟨fun aux => by cases aux <;> decide +kernel, by decide +kernel, by decide +kernel, by decide +kernel, fun low => by cases low <;> decide +kernel, rfl⟩

theorem witness_SuppliesComeAndGo :
    (rdy.power.railsOn = true ∧ inputOk rdy = true ∧ rdy.power.auxPresent = true ∧ rdy.power.referenceOk = true ∧ rdy.power.resetLow = false ∧
      rdy.power.thermtrip = false ∧ 37999 < 38000 ∧ 62000 < 62001) ∧
    inputOk (powerOf fun p => { p with inputMv := 39999 }) = false ∧
    (let s := powered true
     let t : State := { s with power := { s.power with upsettStep := 1 } }
     t.power.auxPresent = true ∧ 1 ≤ t.power.upsettStep ∧ t.power.railsOn = false ∧ t.power.resetLow = false ∧ t.mstate ≠ .down) ∧
    (powered false).power.auxPresent = false ∧ (powerOf fun p => { p with referenceOk := false }).power.referenceOk = false ∧
    (let s := { rdy with fabric := { rdy.fabric with ports := [{ num := 0, state := .up }] } }
     ∃ q, s.fabric.ports = [q] ∧ q.state ≠ .retired ∧ findPort s q.num = some q) := by
  refine ⟨by decide +kernel, by decide +kernel, by decide +kernel, by decide +kernel, by decide +kernel, ⟨_, rfl, by decide, rfl⟩⟩

theorem witness_GovernorAndHeatAct :
    (∃ t, exec (.governorInterval 1600) rdy = .next t) ∧ rdy.power.railsOn = true ∧ rdy.power.holdOff = false ∧ rdy.power.thermalBrake = false ∧
    (effectiveCap rdy : Int) - 30 = 1470 ∧ 1500 < 1600 ∧ (powerOf fun p => { p with holdOff := true, level := 5 }).power.holdOff = true ∧
    rdy.power.allowance ≤ 64 - rdy.power.level ∧ rdy.power.rampRefused = false ∧
    (∀ inst ∈ Engine.all.map (fun e => e.inst), let s := { rdy with engines := rdy.engines.map fun e => { e with idle := false } }
      (findEngine s inst).idle = false ∧ (findEngine s inst).lastIssue + 1000 ≤ s.now ∧ engineBusy (findEngine s inst) = false) ∧
    (findEngine rdy .tier).idle = true ∧ rdy.power.auxPresent = true ∧ (powerOf fun p => { p with holdOff := true, upsettPaused := true }).power.upsettPaused = true ∧
    (powerOf fun p => { p with thermalThrottle := true }).power.thermalThrottle = true ∧ rdy.power.thermalThrottle = false ∧
    (powerOf fun p => { p with recovering := true }).power.recovering = true ∧ rdy.power.config.capW ≤ 1500 ∧ rdy.power.recovering = false ∧
    (5 : Nat) ≠ unlimited ∧ 100 ≤ Nat.max 100 90 ∧ Nat.max 90 96 < 97 ∧ 105 ≤ Nat.max 105 0 ∧ 120 ≤ Nat.max 0 120 ∧
    (powered false).power.railsOn = false :=
  ⟨⟨_, rfl⟩, by decide +kernel⟩

/-- A root key and its signature of the message that revokes coil key 1, whose hash is both halves of the signature. -/
def rootKey : List Byte :=
  beBytes 48 0x7697249e123ab9891c92f2b750ca396e875fc52bb0b63806d248f3af213decdd1ddf6a5524e27f1f48dcd2a1c0825abe ++
    beBytes 48 0x545e13161aaf82cc7805390094f6aca48d85e7d8f4fd02c4903cbc493c4d91145be6334bf52acde6284edde796ddb3c7
def rootSig : List Byte :=
  beBytes 48 0x916fc5c98e5ad28fe8d24631f641ba3ffb23a751d9e408f48f0d94753e0616699fd1aa0d043751336c4daf1112f75475 ++
    beBytes 48 0x916fc5c98e5ad28fe8d24631f641ba3ffb23a751d9e408f48f0d94753e0616699fd1aa0d043751336c4daf1112f75475

theorem witness_ManagementMessagesAreAnswered :
    (powered false).power.auxPresent = false ∧ rdy.power.auxPresent = true ∧ rdy.mgmt.smbus = false ∧ rdy.mgmt.rootHash = none ∧
    (0x50 + Config.slotId.setWidth 7 : BitVec 7) ≠ 0x51 + Config.slotId.setWidth 7 ∧
    configValid rdy.power.stored = true ∧ configValid { rdy.power.stored with capW := 799 } = false ∧
    (∀ key, let s := { rdy with mgmt := { rdy.mgmt with rootHash := some (sha384 key) } }
      s.mgmt.rootHash ≠ none ∧ ∀ c payload sig, ecdsaVerify (publicKey key) (BitVec.ofNat 8 c :: payload) sig = true → signedMessage s c payload key sig = true) ∧
    signedMessage { rdy with mgmt := { rdy.mgmt with rootHash := some (sha384 rootKey) } } 0x07 [1, 0, 0, 0] rootKey rootSig = true ∧
    (∀ c payload root sig, signedMessage rdy c payload root sig = false) := by
  refine ⟨rfl, rfl, rfl, rfl, ?_, by decide +kernel, by decide +kernel, fun key => ⟨by simp, ?_⟩, by decide +kernel, ?_⟩
  · generalize Config.slotId.setWidth 7 = x
    intro h
    have := congrArg (· - x) h
    simp at this
  · intro c payload sig h
    simp [signedMessage, h]
  · intro c payload root sig
    rfl

/-! ### Ill-formed commands, one for each check -/

def badPacket : Packet := pkt 0x02 (List.replicate 4097 0)

theorem test_ill_formed_requests :
    Instr.wf (.enableSet 256) = false ∧ Instr.wf (.enableSet 255) = true ∧ Instr.wf (.vfEnable 256) = false ∧ Instr.wf (.vfDisable 256) = false ∧
    Instr.wf (.registerWrite 0 0 8 3 0) = false ∧ Instr.wf (.registerWrite 0 0 0xFFFC 8 0) = false ∧ Instr.wf (.registerWrite 2 1 8 4 0) = false ∧
    Instr.wf (.registerWrite 2 0 8 4 0) = true ∧ Instr.wf (.unitResetEnd 0x1002 true) = false ∧ Instr.wf (.unitWatchdog 0xF000) = false := by
  decide +kernel

theorem test_ill_formed_transport :
    Instr.wf (.sampleReq badPacket) = false ∧ Instr.wf (.barrierPacket badPacket) = false ∧ Instr.wf (.dataFlit 0 (List.replicate 255 0)) = false ∧
    Instr.wf (.idleFlit 0 (List.replicate 256 0)) = true ∧ Instr.wf (.weavePatternTest .west [33]) = false ∧ Instr.wf (.replyDelivery 1 [(4, 1)]) = false ∧
    Instr.wf (.flashPatrol 0 0 blocksPerDie false) = false ∧ Instr.wf (.readDisturbRelocate 0 0 blocksPerDie) = false ∧
    Instr.wf (.programEraseFail 0 0 blocksPerDie) = false := by
  decide +kernel

theorem test_ill_formed_module :
    Instr.wf (.telemetrySample [30] 40) = false ∧ Instr.wf (.bucketDrain 0 0x1000) = false ∧ Instr.wf (.bucketDrain 19 0x1000) = false ∧
    Instr.wf (.auxPowerGood { nature with failedUnits := [0xF000] }) = false ∧ Instr.wf (.modReset false { nature with spareLanes := [] }) = false ∧
    Instr.wf (.managementReset { nature with lanes := [] }) = false ∧ Instr.wf (.holdOffRelease nature) = true ∧ Instr.wf (.writeMap [1, 1] [0, 0, 0]) = false ∧
    Instr.wf (.installRoot []) = false ∧ Instr.wf (.installKek [] [] []) = false ∧ Instr.wf (.revokeCoilKey [1, 0, 0, 0] rootKey []) = false ∧
    Instr.wf (.installCoilKey [] rootKey rootSig) = true ∧ Instr.wf (.pcieCompletionTimeout 5 4) = false := by
  decide +kernel

/-! ### Values of the spec, and of the standards that it names -/

/-- 04 R201's example: a block with 300 has the scale byte 0x7F and 288 for 300; one with 500 has 448, and counts it. -/
theorem test_mx_block :
    (let r := mxEncode 3 [(.ofNat 300, .nearest)]
     r.1 = 0x7F ∧ (r.2.1.map fun c => (decodeElem 3 c).same (.ofNat 288)) = [true] ∧ r.2.2.2 = 0) ∧
    (let r := mxEncode 3 [(.ofNat 500, .nearest)]
     r.1 = 0x7F ∧ (r.2.1.map fun c => (decodeElem 3 c).same (.ofNat 448)) = [true] ∧ r.2.2.2 = 1) := by
  decide +kernel

/-- 05's example: the stream and position of element 13 of row 0x4_D2F1 at step 9,041. -/
theorem test_plait_stream :
    defaultBase 5 = 0x1715609F7C746C69 ∧
    ({ key := 0, bases := (List.range 32).map defaultBase } : PlaitState).stream 5 0x000012000004D2F1 = 0x1715729F7C70BE98 ∧
    plaitPosition 9041 (13 / 8) = 0x0000235100000001 := by
  decide +kernel

/-- 09's example: two striped granules under its key. -/
theorem test_interleave :
    (let h : Hbm := { keyA := [1, 2, 4, 9, 16, 32, 64, 128, 258], k0 := 0xA5 }
     stripedChannel h 0x12345 = 121 ∧ stripedChannel h 0x12346 = 378 ∧ 0x12345 / 512 = 0x91) := by
  decide +kernel

/-- 13's example of unit numbers: Splint E7, pseudo-channel 121 and lane 2 of YN1 are units. -/
theorem test_units : unitKnown 0x3027 = true ∧ unitKnown 0x7079 = true ∧ unitKnown 0xD01E = true ∧ unitKnown 0xD030 = false := by decide +kernel

/-- FIPS 180-4's message "abc". -/
theorem test_sha256 : sha256 [0x61, 0x62, 0x63] = beBytes 32 0xba7816bf8f01cfea414140de5dae2223b00361a396177a9cb410ff61f20015ad := by decide +kernel

/-- The check values of CRC-32 and CRC-8 over "123456789". -/
theorem test_crc :
    crc32 [0x31, 0x32, 0x33, 0x34, 0x35, 0x36, 0x37, 0x38, 0x39] = 0xCBF43926 ∧ crc8 [0x31, 0x32, 0x33, 0x34, 0x35, 0x36, 0x37, 0x38, 0x39] = 0xF4 := by
  decide +kernel

/-- FIPS 197's AES-256 example, deciphered. -/
theorem test_aes :
    aesInvCipher (aesRoundKeys (List.range 32)) [0x8e, 0xa2, 0xb7, 0xca, 0x51, 0x67, 0x45, 0xbf, 0xea, 0xfc, 0x49, 0x90, 0x4b, 0x49, 0x60, 0x89] =
      (List.range 16).map fun i => 17 * i := by
  decide +kernel

/-- Values of 04 Table 4.2: 1.5 in BF16, the greatest E4M3, a subnormal FP16; an overflow saturates, and 2.5 rounds to even as an integer. -/
theorem test_formats :
    (toFp32 (Num.ofNat 3)).1 = 0x40400000 ∧ (fmtBf16.decode 0x3FC0).same (.fin false 3 (-1)) = true ∧ (decodeElem 3 0x7E).same (.ofNat 448) = true ∧
    (fadd 0x3F800000 0x3F800000) = (0x40000000, 0) ∧ (fmul 0x7F7FFFFF 0x40000000).1 = 0x7F800000 ∧ (fdiv 0x3F800000 0x40400000) = (0x3EAAAAAB, flNX) ∧
    (fsqrt 0x40800000) = (0x40000000, 0) ∧ (intEncode 8 .nearest (.fin false 5 (-1))).code = 2 := by
  decide +kernel

end Sys2Proof.Tests
end

/-! SUPPORT. The two cases of a step, and what a tick of module time does to the queue and to the clock (00 R9, log
entry 1). -/

namespace Sys2Proof.Machine

theorem step_of_pending_cons {s : State} {c : Instr} {rest : List Instr} (h : s.pending = c :: rest) :
    step s = exec c { s with pending := rest } := by
  simp only [step, h]

theorem step_of_pending_nil {s : State} (h : s.pending = []) : step s = .next (tick s) := by
  simp only [step, h]

@[simp] theorem tick_pending (s : State) : (tick s).pending = s.pending := by
  dsimp only [tick]
  split <;> rfl

theorem tick_now (s : State) : (tick s).now = s.now + (tickStep s).1 := by
  dsimp only [tick]
  split <;> rfl

theorem tickStep_of_not_slewing {s : State} (h : s.fabric.slewNs = 0) : tickStep s = (1, 0) :=
  if_pos (.inl h)

/-- Slewing changes the advance by at most one nanosecond (11 R600). -/
theorem tickStep_advance_le_two (s : State) : (tickStep s).1 ≤ 2 := by
  dsimp only [tickStep]
  split
  · exact Nat.le_succ 1
  · split
    · exact Nat.le_refl 2
    · exact Nat.zero_le 2

/-- Settles O1: a step is exec of the front command, or a tick whose advance tickStep gives. -/
theorem stepRunsFrontCommand : Obligations.StepRunsFrontCommand := by
  unfold Obligations.StepRunsFrontCommand
  refine ⟨fun s c rest h => step_of_pending_cons h, fun s h => ⟨step_of_pending_nil h, ?_, fun hslew => ?_, ?_, ?_⟩⟩
  · rw [tick_pending, h]
  · rw [tick_now, tickStep_of_not_slewing hslew]
  · rw [tick_now]
    exact Nat.add_le_add_left (tickStep_advance_le_two s) s.now
  · rw [tick_now]
    exact Nat.le_add_right s.now _

end Sys2Proof.Machine

/-! SUPPORT. The engines and the lists after the dispatcher's updates: what a found engine or list is after a set, what
arming the waits leaves alone, and that a list which has ended stays as it ended (chapter 03). -/

namespace Sys2Proof.Machine

/-! ### Engines -/

/-- The module has the engine (03 Table 3.6). -/
def HasEngine (s : State) (inst : EngineInst) : Prop := ∃ e ∈ s.engines, e.inst = inst

theorem findEngine_congr {s t : State} (h : t.engines = s.engines) (inst : EngineInst) : findEngine t inst = findEngine s inst := by
  unfold findEngine
  rw [h]

theorem findEngine_setEngine {s : State} {inst : EngineInst} {f : Engine → Engine} (h : HasEngine s inst)
    (keeps : ∀ e, (f e).inst = e.inst) : findEngine (setEngine s inst f) inst = f (findEngine s inst) := by
  obtain ⟨e, he⟩ : ∃ e, (s.engines.find? fun e => e.inst == inst) = some e :=
    Option.isSome_iff_exists.mp (List.find?_isSome.mpr (by simpa [HasEngine] using h))
  simp only [findEngine, setEngine, mapIf_find (fun e : Engine => e.inst == inst) f (by simp [keeps]), he, Option.map_some]

theorem HasEngine.setEngine {s : State} {inst : EngineInst} {f : Engine → Engine} (h : HasEngine s inst)
    (keeps : ∀ e, (f e).inst = e.inst) : HasEngine (setEngine s inst f) inst := by
  obtain ⟨e, he, hi⟩ := h
  exact ⟨f e, List.mem_map.mpr ⟨e, he, by simp [hi]⟩, (keeps e).trans hi⟩

theorem HasEngine.congr {s t : State} {inst : EngineInst} (h : t.engines = s.engines) (hs : HasEngine s inst) : HasEngine t inst := by
  unfold HasEngine
  rwa [h]

/-! ### Lists and how they ended -/

theorem findList_setList {s : State} {uid : Nat} {f : CmdList → CmdList} (keeps : ∀ l, (f l).uid = l.uid) (u : Nat) :
    findList (setList s uid f) u = (findList s u).map fun l => if l.uid == uid then f l else l := by
  have hp : ((fun l : CmdList => l.uid == u) ∘ fun l => if l.uid == uid then f l else l) = fun l => l.uid == u := by
    funext l
    dsimp only [Function.comp]
    split <;> simp [keeps]
  simp only [findList, setList, mapIf, List.find?_map, hp]

theorem findList_uid {s : State} {u : Nat} {l : CmdList} (h : findList s u = some l) : l.uid = u := by
  simpa using List.find?_some h

/-- How the list of a number ended, if it is there and has ended. -/
def endOf (s : State) (u : Nat) : Option ListEnd := (findList s u).bind fun l => l.ended

theorem endOf_congr {s t : State} (h : t.lists = s.lists) (u : Nat) : endOf t u = endOf s u := by
  unfold endOf findList
  rw [h]

theorem endOf_setList {s : State} {uid : Nat} {f : CmdList → CmdList} (huid : ∀ l, (f l).uid = l.uid)
    (hend : ∀ l, (f l).ended = l.ended) (u : Nat) : endOf (setList s uid f) u = endOf s u := by
  rw [endOf, findList_setList huid, endOf]
  cases findList s u with
  | none => rfl
  | some l =>
    simp only [Option.map_some, Option.bind_some]
    split
    · exact hend l
    · rfl

theorem endOf_setTask (s : State) (uid ti : Nat) (f : Task → Task) (u : Nat) : endOf (setTask s uid ti f) u = endOf s u :=
  endOf_setList (by intro _; rfl) (by intro _; rfl) u

theorem foldl_setList_frame (f : Nat → CmdList → CmdList) : ∀ (us : List Nat) (s : State),
    ∃ ls, us.foldl (fun st u => setList st u (f u)) s = { s with lists := ls }
  | [], s => ⟨s.lists, rfl⟩
  | u :: us, s => by
    obtain ⟨ls, h⟩ := foldl_setList_frame f us (setList s u (f u))
    exact ⟨ls, by rw [List.foldl_cons, h]; rfl⟩

/-! ### Arming the waits -/

theorem addDelay_frame (s : State) (h : Half) (deadline : Nat) (ref : CmdRef) (b : Bool) :
    ∃ ds ws, addDelay s h deadline ref b = { s with delays := ds, delayWaits := ws } := by
  unfold addDelay
  dsimp only
  split
  · exact ⟨_, s.delayWaits, rfl⟩
  · exact ⟨s.delays, _, rfl⟩

/-- A task whose timeout is not due to start is left alone; one whose timeout starts takes a delay entry (03 R157). -/
theorem armTask_cases (s : State) (l : CmdList) (ti : Nat) (inst : EngineInst) :
    armTask s l ti inst = s ∨ ∃ f h deadline ref, armTask s l ti inst = addDelay (setTask s l.uid ti f) h deadline ref true := by
  unfold armTask
  split
  · split
    · exact .inl rfl
    · split
      · split
        · exact .inr ⟨_, _, _, _, rfl⟩
        · exact .inl rfl
      · exact .inl rfl
  · exact .inl rfl

theorem armWaits_induction {P : State → Prop} (arm : ∀ st l ti inst, P st → P (armTask st l ti inst)) {s : State} (h : P s) :
    P (armWaits s) := by
  unfold armWaits
  refine List.foldlRecOn _ _ h fun st hst l _ => ?_
  refine List.foldlRecOn _ _ hst fun st hst ti _ => ?_
  exact List.foldlRecOn _ _ hst fun st hst inst _ => arm st l ti inst hst

/-- Arming the waits changes the lists and the delay lists only. -/
theorem armWaits_frame (s : State) : ∃ ls ds ws, armWaits s = { s with lists := ls, delays := ds, delayWaits := ws } := by
  refine armWaits_induction (P := fun st => ∃ ls ds ws, st = { s with lists := ls, delays := ds, delayWaits := ws }) ?_ ⟨_, _, _, rfl⟩
  rintro st l ti inst ⟨ls, ds, ws, rfl⟩
  obtain h | ⟨f, half, deadline, ref, h⟩ := armTask_cases { s with lists := ls, delays := ds, delayWaits := ws } l ti inst
  · exact ⟨ls, ds, ws, h⟩
  · obtain ⟨ds', ws', ha⟩ := addDelay_frame (setTask { s with lists := ls, delays := ds, delayWaits := ws } l.uid ti f) half deadline ref true
    exact ⟨_, ds', ws', by rw [h, ha]; rfl⟩

@[simp] theorem armWaits_engines (s : State) : (armWaits s).engines = s.engines := by
  obtain ⟨ls, ds, ws, h⟩ := armWaits_frame s
  rw [h]

@[simp] theorem armWaits_progress (s : State) : (armWaits s).progress = s.progress := by
  obtain ⟨ls, ds, ws, h⟩ := armWaits_frame s
  rw [h]

theorem endOf_armWaits (s : State) (u : Nat) : endOf (armWaits s) u = endOf s u := by
  refine armWaits_induction (P := fun st => endOf st u = endOf s u) (fun st l ti inst hst => ?_) rfl
  obtain h | ⟨f, half, deadline, ref, h⟩ := armTask_cases st l ti inst
  · rw [h, hst]
  · obtain ⟨ds, ws, ha⟩ := addDelay_frame (setTask st l.uid ti f) half deadline ref true
    rw [h, ha]
    exact (endOf_setTask st l.uid ti f u).trans hst

/-! ### The end of a list -/

@[simp] theorem stopCommands_lists (s : State) (uid : Nat) : (stopCommands s uid).lists = s.lists := by
  unfold stopCommands
  exact List.foldlRecOn (motive := fun st : State => st.lists = s.lists) _ _ rfl fun st hst p _ => hst

theorem endOf_ended_list {s : State} {uid : Nat} {l : CmdList} (h : findList s uid = some l) (e : ListEnd) :
    endOf (stopCommands (setList s uid fun l => { l with ended := some e }) uid) uid = some e := by
  rw [endOf_congr (stopCommands_lists _ uid), endOf, findList_setList (by intro _; rfl), h]
  simp [findList_uid h]

/-- A list that has ended keeps its end whichever list ends after it (03 R182). -/
theorem endListFrom_keeps_end {u : Nat} {x : ListEnd} : ∀ (fuel : Nat) (s : State) (uid : Nat) (e : ListEnd), endOf s u = some x →
    endOf (endListFrom fuel s uid e) u = some x
  | 0, _, _, _, h => h
  | fuel + 1, s, uid, e, h => by
    unfold endListFrom
    split
    · exact h
    · rename_i l hl
      split
      · split
        · exact h
        · exact h
      · rename_i hend
        have hne : u ≠ uid := by
          rintro rfl
          simp [endOf, hl, hend] at h
        have h1 : endOf (stopCommands (setList s uid fun l => { l with ended := some e }) uid) u = some x := by
          rw [endOf_congr (stopCommands_lists _ uid), endOf, findList_setList (by intro _; rfl), ← h, endOf]
          cases hf : findList s u with
          | none => rfl
          | some m => simp [findList_uid hf, hne]
        exact List.foldlRecOn (motive := fun st : State => endOf st u = some x) _ _ h1
          fun st hst v _ => endListFrom_keeps_end fuel st v e hst

/-- A list that has not ended ends as it is told to (03 R179). -/
theorem endOf_endList {s : State} {uid : Nat} {l : CmdList} (h : findList s uid = some l) (hend : l.ended = none) (e : ListEnd) :
    endOf (endList s uid e) uid = some e := by
  simp only [endList, endListFrom, h, hend]
  exact List.foldlRecOn (motive := fun st : State => endOf st uid = some e) _ _ (endOf_ended_list h e)
    fun st hst v _ => endListFrom_keeps_end _ st v e hst

/-- A command that breaks a check at its fetch ends its list with BAD_COMMAND naming its engine (03 R135, R138). -/
theorem fault_of_bad_command {s : State} {ref : CmdRef} {l : CmdList} (inst : EngineInst) (h : findList s ref.list = some l)
    (hend : l.ended = none) :
    (endOf (faultCommand s ref (errBad inst)) ref.list).map (fun e => e.fault) = some (BitVec.ofNat 32 (0x000B + 65536 * inst.unit)) := by
  simp only [faultCommand, h, errBad, faultBadCommand]
  rw [endOf_endList h hend]
  rfl

end Sys2Proof.Machine

/-! SUPPORT. What firing a command does (03 R135, R142, R169), and O20. -/

namespace Sys2Proof.Machine

/-! ### Reads that a change elsewhere leaves alone -/

/-- Two states hold the same bytes and refuse the same accesses. -/
def SameMemory (s t : State) : Prop :=
  t.mem = s.mem ∧ t.hostMem = s.hostMem ∧ t.hostRefuse = s.hostRefuse ∧ t.hbm = s.hbm

theorem readVa_of_sameMemory {s t : State} (h : SameMemory s t) (c : Context) (acc : Access) :
    ∀ va n, readVa t c acc va n = readVa s c acc va n
  | _, 0 => rfl
  | va, n + 1 => by
    obtain ⟨hm, hh, hr, hb⟩ := h
    simp only [readVa, readByte, refused, hm, hh, hr, hb, readVa_of_sameMemory ⟨hm, hh, hr, hb⟩ c acc (va + 1) n]
    rfl

theorem fetchDescs_of_sameMemory {s t : State} (h : SameMemory s t) (c : Context) (inst : EngineInst) (w : BitVec 512) :
    ∀ offs, fetchDescs t c inst w offs = fetchDescs s c inst w offs
  | [] => rfl
  | off :: offs => by
    simp only [fetchDescs, readVa_of_sameMemory h, fetchDescs_of_sameMemory h c inst w offs]

/-! ### Firing -/

/-- The engine has taken command k of a task: the task has moved past it, its timeout is dropped and the engine is not idle. -/
def claimCommand (s : State) (inst : EngineInst) (l : CmdList) (ti k : Nat) : State :=
  let advance := fun (t : Task) => match inst.half with
    | some .east => { t with nextEast := k + 1, waitSince := none, timedOut := false }
    | _ => { t with nextWest := k + 1, waitSince := none, timedOut := false }
  setEngine (dropDelay (setTask (setList s l.uid fun l => { l with started := true }) l.uid ti advance) ⟨l.uid, ti, k⟩) inst
    fun e => { e with idle := false, lastIssue := s.now, rampStep := if e.idle then 0 else e.rampStep }

/-- The command r is in progress on the engine, in the module as p when its other half has not brought it in yet (03 R132). -/
def beginCommand (s : State) (inst : EngineInst) (r : Running) (p : Progress) : State :=
  let st := setEngine s inst fun e => { e with running := e.running ++ [r] }
  if (findProgress st r.ref).isSome then st else { st with progress := st.progress ++ [p] }

theorem beginCommand_engines (s : State) (inst : EngineInst) (r : Running) (p : Progress) :
    (beginCommand s inst r p).engines = (setEngine s inst fun e => { e with running := e.running ++ [r] }).engines := by
  unfold beginCommand
  dsimp only
  split <;> rfl

theorem findEngine_beginCommand {s : State} {inst : EngineInst} (h : HasEngine s inst) (r : Running) (p : Progress) :
    findEngine (beginCommand s inst r p) inst = { findEngine s inst with running := (findEngine s inst).running ++ [r] } :=
  (findEngine_congr (beginCommand_engines s inst r p) inst).trans (findEngine_setEngine h fun _ => rfl)

theorem findProgress_beginCommand (s : State) (inst : EngineInst) {r : Running} {p : Progress} (h : p.ref = r.ref) :
    (findProgress (beginCommand s inst r p) r.ref).isSome = true := by
  unfold beginCommand
  dsimp only
  split
  · assumption
  · simp [findProgress, h]

section
variable {s : State} {inst : EngineInst} {l : CmdList} {ti k : Nat} {t : Task} {c : Context} {w : BitVec 512}

theorem claimCommand_sameMemory : SameMemory s (claimCommand s inst l ti k) := ⟨rfl, rfl, rfl, rfl⟩

theorem HasEngine.claimCommand (h : HasEngine s inst) : HasEngine (claimCommand s inst l ti k) inst :=
  HasEngine.setEngine (s := dropDelay (setTask (setList s l.uid _) l.uid ti _) _) h fun _ => rfl

/-- Taking a command ends the engine's idleness and leaves what it runs (14 R683). -/
theorem findEngine_claimCommand (h : HasEngine s inst) :
    (findEngine (claimCommand s inst l ti k) inst).running = (findEngine s inst).running ∧
      (findEngine (claimCommand s inst l ti k) inst).idle = false := by
  unfold claimCommand
  dsimp only
  rw [findEngine_setEngine (s := dropDelay (setTask (setList s l.uid _) l.uid ti _) _) h (by intro _; rfl)]
  exact ⟨rfl, rfl⟩

theorem endOf_claimCommand (u : Nat) : endOf (claimCommand s inst l ti k) u = endOf s u :=
  (endOf_setTask (setList s l.uid fun l => { l with started := true }) l.uid ti _ u).trans (endOf_setList (by intro _; rfl) (by intro _; rfl) u)

theorem findList_claimCommand {u : Nat} {m : CmdList} (h : findList s u = some m) :
    ∃ m', findList (claimCommand s inst l ti k) u = some m' ∧ m'.ended = m.ended := by
  have he : endOf (claimCommand s inst l ti k) u = endOf s u := endOf_claimCommand u
  have hf : (findList (claimCommand s inst l ti k) u).isSome = true := by
    change (findList (setTask (setList s l.uid _) l.uid ti _) u).isSome = true
    rw [setTask, findList_setList (by intro _; rfl), findList_setList (by intro _; rfl), h]
    rfl
  obtain ⟨m', hm⟩ := Option.isSome_iff_exists.mp hf
  exact ⟨m', hm, by simpa [endOf, hm, h] using he⟩

/-- A command with a known opcode that breaks a check of its header is taken and faults (03 R135). -/
theorem fireCommand_bad (hop : opcodeOk inst w = true) (hbad : headerOk t w = false ∨ chainBroken s inst l.uid ti w = true) :
    fireCommand s inst l ti t c k w = faultCommand (claimCommand s inst l ti k) ⟨l.uid, ti, k⟩ (errBad inst) := by
  simp only [fireCommand, hop, Bool.true_eq_false, if_false, if_pos hbad]
  rfl

/-- A good command without a pipe is taken and in progress with the descriptors it names (03 R135, R142, R169). -/
theorem fireCommand_good {descs : List (Nat × BitVec 512)} (hop : opcodeOk inst w = true) (hhead : headerOk t w = true)
    (hchain : chainBroken s inst l.uid ti w = false) (hdescs : fetchDescs s c inst w (descFields w) = .ok descs)
    (hout : outPipe w = 0) (hin : inPipe w = 0) :
    ∃ st p, st.engines = (claimCommand s inst l ti k).engines ∧ p.ref = ⟨l.uid, ti, k⟩ ∧ fireCommand s inst l ti t c k w =
      beginCommand st inst
        { ref := ⟨l.uid, ti, k⟩, sess := l.sess, word := w, descs := descs, firedAt := s.now, started := false } p := by
  have hd : fetchDescs (claimCommand s inst l ti k) c inst w (descFields w) = .ok descs :=
    (fetchDescs_of_sameMemory claimCommand_sameMemory c inst w _).trans hdescs
  have hbad : ¬ (headerOk t w = false ∨ chainBroken s inst l.uid ti w = true) := by simp [hhead, hchain]
  refine ⟨setCtx (claimCommand s inst l ti k) l.sess fun x => { x with pipes := c.pipes, activeAt := s.now },
    { ref := ⟨l.uid, ti, k⟩, sess := l.sess, word := w, halves := if inst.half.isNone then 3 else cmdHalves w, units := [],
      signalled := 0, westDone := false, eastDone := false, plaitKey := c.plaitKey, bases := c.bases }, rfl, rfl, ?_⟩
  simp only [fireCommand, hop, Bool.true_eq_false, if_false, if_neg hbad, joinPipe, hout, hin, if_true]
  split
  · rename_i e he
    cases hd.symm.trans he
  · rename_i ds he
    obtain rfl := Except.ok.inj (hd.symm.trans he)
    rfl

/-- An engine that is free fires the next command of the task it chooses (03 R142). -/
theorem taskChoice_fires (hfree : engineBusy (findEngine s inst) = false) (hchoose : chooseTask s inst = some (l, ti))
    (hsusp : ((suspendedOf (findEngine s inst) l.uid).filter fun r => r.ref.task == ti) = []) (ht : l.tasks[ti]? = some t)
    (hc : findCtx s l.sess = some c) (hnext : nextOf s c l t inst = some (k, .ok w)) :
    ∃ x, taskChoice s inst = armWaits (setEngine (fireCommand s inst l ti t c k w) inst fun e => { e with prefetched := x }) := by
  simp only [taskChoice, hfree, hchoose, hsusp, ht, hc, hnext, Bool.false_eq_true, if_false, ne_eq, not_true_eq_false]
  exact ⟨_, rfl⟩

/-- A command begun where an engine took it is in progress on the engine, whatever is prefetched and armed after it. -/
theorem begun_is_in_progress {st : State} {r : Running} {p : Progress} {x : Option (Nat × Nat)} (hinst : HasEngine s inst)
    (hst : st.engines = (claimCommand s inst l ti k).engines) (hp : p.ref = r.ref) :
    let u := armWaits (setEngine (beginCommand st inst r p) inst fun e => { e with prefetched := x })
    (findEngine u inst).running = (findEngine s inst).running ++ [r] ∧ (findEngine u inst).idle = false ∧
      (findProgress u r.ref).isSome = true := by
  intro u
  have h0 : HasEngine st inst := hinst.claimCommand.congr hst
  have h1 : HasEngine (beginCommand st inst r p) inst := 
    HasEngine.congr (beginCommand_engines st inst r p) (h0.setEngine (by intro _; rfl))
  have he : findEngine u inst = { findEngine (claimCommand s inst l ti k) inst with
      running := (findEngine (claimCommand s inst l ti k) inst).running ++ [r], prefetched := x } := by
    rw [findEngine_congr (armWaits_engines _), findEngine_setEngine h1 (by intro _; rfl), findEngine_beginCommand h0, findEngine_congr hst]
  have hprog : u.progress = (beginCommand st inst r p).progress := armWaits_progress _
  obtain ⟨hrunning, hidle⟩ := findEngine_claimCommand (l := l) (ti := ti) (k := k) hinst
  refine ⟨by rw [he, hrunning], by rw [he, hidle], ?_⟩
  unfold findProgress
  rw [hprog]
  exact findProgress_beginCommand st inst hp

end

/-! ### Pre-emption -/

/-- The commands that a pre-emption stops wait to resume, those of each list in their order (03 R143, R144). -/
def stopRunning (inst : EngineInst) (s : State) : State :=
  let out := (findEngine s inst).running.filter fun r => !r.isDelay
  setEngine s inst fun e =>
    { e with running := e.running.filter fun r => r.isDelay,
             suspended := e.suspended ++ (out.map fun r => r.ref.list).eraseDups.map fun u => (u, out.filter fun r => r.ref.list == u) }

section
variable {s : State} {inst : EngineInst} {l : CmdList} {ti lv : Nat}

theorem findEngine_stopRunning (h : HasEngine s inst) :
    (findEngine (stopRunning inst s) inst).running = (findEngine s inst).running.filter fun r => r.isDelay := by
  unfold stopRunning
  rw [findEngine_setEngine h (by intro _; rfl)]

theorem suspended_stopRunning (h : HasEngine s inst) {r : Running} (hr : r ∈ (findEngine s inst).running) (hd : r.isDelay = false) :
    ∃ p ∈ (findEngine (stopRunning inst s) inst).suspended, p.1 = r.ref.list ∧ r ∈ p.2 := by
  have hout : r ∈ (findEngine s inst).running.filter fun r => !r.isDelay := by simp [hr, hd]
  unfold stopRunning
  rw [findEngine_setEngine h (by intro _; rfl)]
  refine ⟨_, List.mem_append_right _ (List.mem_map.mpr ⟨r.ref.list, ?_, rfl⟩), rfl, ?_⟩
  · exact List.mem_eraseDups.mpr (List.mem_map_of_mem hout)
  · exact List.mem_filter.mpr ⟨hout, beq_self_eq_true _⟩

/-- An urgent task above the running level stops what runs below it; only the lists' own records change besides (03 R143). -/
theorem preempt_stops (hlv : runningLevel s (findEngine s inst) = some lv) (hchoose : chooseTask s inst = some (l, ti)) (hurgent : 6 ≤ l.prio)
    (habove : lv < l.prio) (hkeeps : ((findEngine s inst).running.any fun r => keepsRunning r.word) = false) :
    ∃ ls, preempt s inst = { stopRunning inst s with lists := ls } := by
  have hyes : 6 ≤ l.prio ∧ lv < l.prio ∧ ((findEngine s inst).running.any fun r => keepsRunning r.word) = false := ⟨hurgent, habove, hkeeps⟩
  simp only [preempt, hlv, hchoose, if_pos hyes]
  exact foldl_setList_frame _ _ (stopRunning inst s)

theorem preempt_leaves (hlv : runningLevel s (findEngine s inst) = some lv) (hchoose : chooseTask s inst = some (l, ti))
    (h : l.prio < 6 ∨ l.prio ≤ lv ∨ ((findEngine s inst).running.any fun r => keepsRunning r.word) = true) : preempt s inst = s := by
  have hno : ¬ (6 ≤ l.prio ∧ lv < l.prio ∧ ((findEngine s inst).running.any fun r => keepsRunning r.word) = false) := by
    rintro ⟨h6, habove, hkeeps⟩
    obtain h | h | h := h
    · omega
    · omega
    · simp [hkeeps] at h
  simp only [preempt, hlv, hchoose, if_neg hno]

end

/-- Settles O20: a free engine takes and begins, or faults, the next command of the chosen task; only an urgent task above the
running level pre-empts. -/
theorem tasksAreChosen : Obligations.TasksAreChosen := by
  unfold Obligations.TasksAreChosen
  refine ⟨fun s inst l ti k t c w hinst hfree hchoose hsusp ht hc hnext hop => ?_, fun s inst l ti lv hinst hlv hchoose => ⟨?_, ?_⟩⟩
  · obtain ⟨x, hu⟩ := taskChoice_fires hfree hchoose hsusp ht hc hnext
    refine ⟨fun descs hhead hchain hdescs hout hin => ⟨taskChoice s inst, rfl, ?_⟩, fun hbad => ⟨taskChoice s inst, rfl, fun m hm hend => ?_⟩⟩
    · obtain ⟨st, p, hst, hp, hfire⟩ := fireCommand_good (k := k) hop hhead hchain hdescs hout hin
      rw [hu, hfire]
      exact begun_is_in_progress hinst hst hp
    · obtain ⟨m', hm', hend'⟩ := findList_claimCommand (inst := inst) (l := l) (ti := ti) (k := k) hm
      change (endOf (taskChoice s inst) l.uid).map _ = _
      rw [hu, endOf_armWaits, endOf_congr (setEngine_lists _ inst _), fireCommand_bad hop hbad]
      exact fault_of_bad_command inst hm' (hend'.trans hend)
  · intro hurgent habove hkeeps
    obtain ⟨ls, hp⟩ := preempt_stops hlv hchoose hurgent habove hkeeps
    have he : findEngine (preempt s inst) inst = findEngine (stopRunning inst s) inst := by rw [hp]; rfl
    refine ⟨preempt s inst, rfl, ?_, fun r hr hd => ?_, by rw [hp]; rfl, by rw [hp]; rfl⟩
    · rw [he, findEngine_stopRunning hinst]
    · rw [he]
      exact suspended_stopRunning hinst hr hd
  · intro h
    exact congrArg _ (preempt_leaves hlv hchoose h)

end Sys2Proof.Machine

/-! SUPPORT. What the synchronisation commands and the delay lists do (03 R150, R157, R165-R168), and O21. -/

namespace Sys2Proof.Machine

/-! ### The delay lists -/

/-- An insertion puts x before the first element that must not precede it, and moves no other. -/
theorem insertBy_splits {α : Type} (before : α → α → Bool) (x : α) : ∀ l : List α, ∃ a b, l = a ++ b ∧
    insertBy before x l = a ++ x :: b ∧ (∀ y ∈ a, before x y = false) ∧ ∀ y ∈ b.head?, before x y = true
  | [] => ⟨[], [], rfl, rfl, by simp, by simp⟩
  | y :: t => by
    by_cases h : before x y = true
    · exact ⟨[], y :: t, rfl, by simp [insertBy, h], by simp, by simpa using h⟩
    · obtain ⟨a, b, ht, hi, ha, hb⟩ := insertBy_splits before x t
      refine ⟨y :: a, b, by rw [ht]; rfl, by simp [insertBy, h, hi], ?_, hb⟩
      simpa [h] using ha

/-- In a sorted list, what follows an entry later than a deadline is later too. -/
theorem later_of_head_later {deadline : Nat} : ∀ {l : List DelayEntry}, l.Pairwise (fun a b => a.deadline ≤ b.deadline) →
    (∀ d ∈ l.head?, deadline < d.deadline) → ∀ d ∈ l, deadline < d.deadline
  | [], _, _, _, hd => absurd hd List.not_mem_nil
  | e :: t, hsorted, hhead, d, hd => by
    have he : deadline < e.deadline := hhead e rfl
    obtain rfl | ht := List.mem_cons.mp hd
    · exact he
    · exact Nat.lt_of_lt_of_le he (List.rel_of_pairwise_cons hsorted ht)

/-- The kind of the delay-list entry that a command takes (03 R165). -/
def delayKind (ref : CmdRef) (isTimeout : Bool) : DelayKind := if isTimeout then .timeout ref else .delay ref

section
variable {s : State} {h : Half} {deadline : Nat} {ref : CmdRef} {b : Bool}

/-- With a free entry the list takes one, sorted by deadline and after its equals (03 R165, R168). -/
theorem addDelay_inserts (hfree : delayUsed s h < 960) :
    (addDelay s h deadline ref b).delayWaits = s.delayWaits ∧ ∃ before after, s.delays = before ++ after ∧
      (addDelay s h deadline ref b).delays = before ++ { half := h, deadline := deadline, kind := delayKind ref b } :: after ∧
      (s.delays.Pairwise (fun a b => a.deadline ≤ b.deadline) →
        (∀ d ∈ before, d.deadline ≤ deadline) ∧ (∀ d ∈ after, deadline < d.deadline)) := by
  obtain ⟨before, after, hsplit, hins, hbefore, hafter⟩ := insertBy_splits (fun a b : DelayEntry => decide (a.deadline < b.deadline))
    { half := h, deadline := deadline, kind := delayKind ref b } s.delays
  unfold addDelay
  dsimp only
  rw [if_pos hfree]
  refine ⟨rfl, before, after, hsplit, hins, fun hsorted => ⟨fun d hd => ?_, ?_⟩⟩
  · simpa using hbefore d hd
  · rw [hsplit] at hsorted
    obtain ⟨-, hlater, -⟩ := List.pairwise_append.mp hsorted
    exact later_of_head_later hlater (by simpa using hafter)

/-- Without one the command waits (03 R168). -/
theorem addDelay_waits (hfull : 960 ≤ delayUsed s h) : addDelay s h deadline ref b =
    { s with delayWaits := s.delayWaits ++ [{ half := h, ref := ref, deadline := deadline, isTimeout := b }] } := by
  simp only [addDelay, if_neg (Nat.not_lt.mpr hfull)]

/-! ### The entries that expire or are freed -/

variable {d : DelayEntry}

theorem delayExpiry_early (hd : (s.delays.find? fun d => d.half == h) = some d) (hearly : s.now < tickAt s d.deadline) :
    delayExpiry s h = s := by
  simp only [delayExpiry, hd, if_pos hearly]

/-- A delay that expires completes its command on the engine it runs on (03 R167). -/
theorem delayExpiry_delay {inst : EngineInst} (hd : (s.delays.find? fun d => d.half == h) = some d) (hdue : tickAt s d.deadline ≤ s.now)
    (hkind : d.kind = .delay ref) (hinst : delayInst { s with delays := s.delays.erase d } h ref = some inst) :
    delayExpiry s h = armWaits (shareDone { s with delays := s.delays.erase d } inst ref) := by
  simp only [delayExpiry, hd, if_neg (Nat.not_lt.mpr hdue), hkind, hinst]

/-- A timeout that expires is due at its task (03 R157, R166). -/
theorem delayExpiry_timeout (hd : (s.delays.find? fun d => d.half == h) = some d) (hdue : tickAt s d.deadline ≤ s.now)
    (hkind : d.kind = .timeout ref) :
    delayExpiry s h = setTask { s with delays := s.delays.erase d } ref.list ref.task fun t => { t with timedOut := true } := by
  simp only [delayExpiry, hd, if_neg (Nat.not_lt.mpr hdue), hkind]

variable {x : DelayWait}

theorem delayFreed_serves (hx : (s.delayWaits.find? fun d => d.half == h) = some x) (hfree : delayUsed s h < 960) :
    delayFreed s h = addDelay { s with delayWaits := s.delayWaits.erase x } h (Nat.max x.deadline s.now) x.ref x.isTimeout := by
  simp only [delayFreed, hx, if_pos hfree]

theorem delayFreed_full (hx : (s.delayWaits.find? fun d => d.half == h) = some x) (hfull : 960 ≤ delayUsed s h) : delayFreed s h = s := by
  simp only [delayFreed, hx, if_neg (Nat.not_lt.mpr hfull)]

end

/-! ### The synchronisation commands -/

section
variable {s : State} {inst : EngineInst} {r : Running} {c : Context}

theorem context_of_runs {sel : BitVec 512 → Bool} (h : Runs s inst sel r c) : findCtx s r.sess = some c := by
  obtain ⟨-, hc, -⟩ := h
  exact hc

theorem syWait_completes (h : Runs s inst (fun w => cmdOpcode w == 1) r c) :
    exec (.syWait inst) s = .next (armWaits (shareDone s inst r.ref)) := by
  rw [exec_syWait, execSyWait, withRunning_runs _ h]

theorem sySignal_adds (h : Runs s inst (fun w => cmdOpcode w == 2) r c) : exec (.sySignal inst) s =
    .next (armWaits (shareDone (addSem s r.sess (fld r.word 0x10 5 0) (fld r.word 0x14 31 0)) inst r.ref)) := by
  rw [exec_sySignal, execSySignal, withRunning_runs _ h]

/-- An addition changes one semaphore of the context, modulo 2^32 (03 R150). -/
theorem sems_addSem {sess : U32} (h : findCtx s sess = some c) (sem inc : Nat) :
    (findCtx (addSem s sess sem inc) sess).map (fun d => d.sems) = some (modifyAt (fun v => v + BitVec.ofNat 32 inc) sem c.sems) := by
  rw [addSem, findCtx_setCtx (by intro _; rfl), h]
  rfl

/-- An absolute deadline that has passed completes the command at once (03 R165). -/
theorem syDelay_passed (h : Runs s inst (fun w => cmdOpcode w == 3) r c) (habs : (fld r.word 0x10 0 0 == 1) = true)
    (hpast : fld r.word 0x18 63 0 * 1000 ≤ s.now) : exec (.syDelay inst) s = .next (armWaits (shareDone s inst r.ref)) := by
  rw [exec_syDelay, execSyDelay, withRunning_runs _ h]
  simp only [habs, if_true, hpast, decide_true, Bool.and_self]

theorem syDelay_absolute (h : Runs s inst (fun w => cmdOpcode w == 3) r c) (habs : (fld r.word 0x10 0 0 == 1) = true)
    (hfuture : s.now < fld r.word 0x18 63 0 * 1000) : exec (.syDelay inst) s =
      .next (armWaits (addDelay (markStarted s inst r.ref) (delayHalf s inst) (fld r.word 0x18 63 0 * 1000) r.ref false)) := by
  rw [exec_syDelay, execSyDelay, withRunning_runs _ h]
  simp only [habs, if_true, Nat.not_le.mpr hfuture, decide_false, Bool.and_false, Bool.false_eq_true, if_false]

theorem syDelay_relative (h : Runs s inst (fun w => cmdOpcode w == 3) r c) (hrel : (fld r.word 0x10 0 0 == 1) = false) :
    exec (.syDelay inst) s =
      .next (armWaits (addDelay (markStarted s inst r.ref) (delayHalf s inst) (s.now + fld r.word 0x18 63 0 * 1000) r.ref false)) := by
  rw [exec_syDelay, execSyDelay, withRunning_runs _ h]
  simp only [hrel, Bool.false_and, Bool.false_eq_true, if_false]

theorem reservedEngineOpcode_faults (h : Runs s inst (fun w => !opcodeOk inst w) r c) :
    exec (.reservedEngineOpcode inst) s = .next (faultCommand s r.ref (errBad inst)) := by
  rw [exec_reservedEngineOpcode, execReservedEngineOpcode, withRunning_runs _ h]

end

/-! ### The timeout of a wait -/

/-- The first ready task of an engine whose wait has timed out (03 R157). -/
def timedOutTask (s : State) (inst : EngineInst) : Option (CmdList × Nat) :=
  (readyTasks s inst).find? fun p => match p.1.tasks[p.2]? with | some t => t.timedOut | none => false

section
variable {s : State} {inst : EngineInst} {l : CmdList} {ti k : Nat} {t : Task} {c : Context} {w : BitVec 512}

/-- What a timeout does to a wait that is still next: its conditions decide (03 R157). -/
theorem waitTimeout_decides (htask : timedOutTask s inst = some (l, ti)) (ht : l.tasks[ti]? = some t) (hc : findCtx s l.sess = some c)
    (hnext : nextOf s c l t inst = some (k, .ok w)) (hop : cmdOpcode w = 1) :
    waitTimeout s inst = if waitsHold c w then
        armWaits (shareDone (fireCommand (setTask s l.uid ti fun t => { t with timedOut := false }) inst l ti t c k w) inst ⟨l.uid, ti, k⟩)
      else faultCommand s ⟨l.uid, ti, k⟩ (.code 0x000C inst.unit 0) := by
  unfold waitTimeout
  dsimp only
  split
  · rename_i hnone
    cases hnone.symm.trans htask
  · rename_i l' ti' hsome
    cases hsome.symm.trans htask
    simp only [ht, hc, hnext, hop, if_true]

end

/-- Settles O21: each synchronisation command and each event of the delay lists by its own lemma. -/
theorem synchronisationActs : Obligations.SynchronisationActs := by
  unfold Obligations.SynchronisationActs
  refine ⟨fun s inst r c => ⟨syWait_completes, fun h => ⟨sySignal_adds h, sems_addSem (context_of_runs h) _ _⟩, fun h => ?_, reservedEngineOpcode_faults⟩,
    fun s h => ⟨fun deadline ref b => ?_, fun d hd => ?_, fun x hx => ?_⟩, fun s inst l ti k t c w htask ht hc hnext hop => ?_⟩
  · exact ⟨syDelay_passed h, syDelay_absolute h, syDelay_relative h⟩
  · exact ⟨addDelay_inserts, fun hfull => by simp [addDelay_waits hfull]⟩
  · exact ⟨fun hearly => congrArg _ (delayExpiry_early hd hearly),
      fun ref inst hdue hkind hinst => congrArg _ (delayExpiry_delay hd hdue hkind hinst),
      fun ref hdue hkind => congrArg _ (delayExpiry_timeout hd hdue hkind)⟩
  · exact ⟨fun hfree => congrArg _ (delayFreed_serves hx hfree), fun hfull => congrArg _ (delayFreed_full hx hfull)⟩
  · have hdecides := waitTimeout_decides htask ht hc hnext hop
    exact ⟨fun hhold => congrArg _ (hdecides.trans (if_pos hhold)),
      fun hfail => congrArg _ (hdecides.trans (if_neg (by simp [hfail])))⟩

end Sys2Proof.Machine

/-! SUPPORT. The numbers of chapter 04 as rationals: their order, sums and products are those of the rationals. -/

namespace Sys2Proof.Machine

/-! ### Signs and powers of two -/

/-- The factor that a sign bit stands for. -/
def signFactor (neg : Bool) : Rat := if neg then -1 else 1

@[simp] theorem signFactor_true : signFactor true = -1 := rfl
@[simp] theorem signFactor_false : signFactor false = 1 := rfl

theorem signFactor_mul_self (b : Bool) : signFactor b * signFactor b = 1 := by
  cases b <;> grind [signFactor]

theorem signFactor_ne_zero (b : Bool) : signFactor b ≠ 0 := by
  cases b <;> decide

theorem signFactor_not (b : Bool) : signFactor (!b) = -signFactor b := by
  cases b <;> rfl

theorem signFactor_xor (a b : Bool) : signFactor (a ^^ b) = signFactor a * signFactor b := by
  cases a <;> cases b <;> grind [signFactor]

theorem signFactor_mul_cancel (b : Bool) (x : Rat) : signFactor b * (signFactor b * x) = x := by
  rw [← Rat.mul_assoc, signFactor_mul_self, Rat.one_mul]

/-- The power of two that the model writes as a quotient of naturals. -/
def twoPow (e : Int) : Rat := (pow2Num e : Rat) / (pow2Den e : Rat)

theorem cast_two_pow_pos (n : Nat) : (0 : Rat) < ((2 ^ n : Nat) : Rat) := Rat.natCast_pos.mpr (Nat.two_pow_pos n)

theorem twoPow_add (a b : Int) : twoPow (a + b) = twoPow a * twoPow b := by
  have hnat : pow2Num (a + b) * (pow2Den a * pow2Den b) = pow2Num a * pow2Num b * pow2Den (a + b) := by
    simp only [pow2Num, pow2Den, ← Nat.pow_add]
    congr 1
    omega
  have hrat : (pow2Num (a + b) : Rat) * (pow2Den a * pow2Den b) = pow2Num a * pow2Num b * pow2Den (a + b) := by exact_mod_cast hnat
  have ha : (pow2Den a : Rat) ≠ 0 := Rat.ne_of_gt (cast_two_pow_pos _)
  have hb : (pow2Den b : Rat) ≠ 0 := Rat.ne_of_gt (cast_two_pow_pos _)
  have hab : (pow2Den (a + b) : Rat) ≠ 0 := Rat.ne_of_gt (cast_two_pow_pos _)
  unfold twoPow
  grind

theorem twoPow_natCast (n : Nat) : twoPow n = ((2 ^ n : Nat) : Rat) := by
  have hden : pow2Den n = 1 := congrArg (2 ^ ·) (show (-(n : Int)).toNat = 0 by omega)
  rw [twoPow, hden, pow2Num, Int.toNat_natCast]
  generalize ((2 ^ n : Nat) : Rat) = x
  grind

theorem twoPow_pos (e : Int) : 0 < twoPow e := by
  have hsum : twoPow e * (pow2Den e : Rat) = pow2Num e := Rat.div_mul_cancel (Rat.ne_of_gt (cast_two_pow_pos _))
  refine (Rat.mul_pos_iff_of_pos_right (b := (pow2Den e : Rat)) (cast_two_pow_pos _)).mp ?_
  rw [hsum]
  exact cast_two_pow_pos _

theorem twoPow_nonneg (e : Int) : 0 ≤ twoPow e := Rat.le_of_lt (twoPow_pos e)

/-- A power of two over a smaller one is a natural number. -/
theorem twoPow_eq_of_le {e g : Int} (h : g ≤ e) : twoPow e = ((2 ^ (e - g).toNat : Nat) : Rat) * twoPow g := by
  rw [← twoPow_natCast, ← twoPow_add]
  congr 1
  omega

theorem twoPow_succ_pred (e : Int) : twoPow e = 2 * twoPow (e - 1) := by
  rw [twoPow_eq_of_le (show e - 1 ≤ e by omega), show (e - (e - 1)).toNat = 1 by omega]
  rfl

/-! ### The value of a number -/

/-- The value of a finite number; what is not finite has none, and counts as 0. -/
def Num.val : Num → Rat
  | .fin neg m e => signFactor neg * (m * twoPow e)
  | _ => 0

@[simp] theorem Num.val_fin (b : Bool) (m : Nat) (e : Int) : (Num.fin b m e).val = signFactor b * (m * twoPow e) := rfl

@[simp] theorem Num.val_fin_zero (b : Bool) (e : Int) : (Num.fin b 0 e).val = 0 := by
  rw [val_fin, show ((0 : Nat) : Rat) = 0 from rfl, Rat.zero_mul, Rat.mul_zero]

@[simp] theorem Num.isFin_zero : Num.zero.isFin = true := rfl

theorem Num.isFin_iff {x : Num} : x.isFin = true ↔ ∃ b m e, x = .fin b m e := by
  constructor
  · intro h
    cases x with
    | nan => cases h
    | inf b => cases h
    | fin b m e => exact ⟨b, m, e, rfl⟩
  · rintro ⟨b, m, e, rfl⟩
    rfl

@[simp] theorem Num.isFin_neg (x : Num) : x.neg.isFin = x.isFin := by cases x <;> rfl

@[simp] theorem Num.isFin_abs (x : Num) : x.abs.isFin = x.isFin := by cases x <;> rfl

theorem natCast_mul_twoPow_nonneg (m : Nat) (e : Int) : 0 ≤ (m : Rat) * twoPow e :=
  Rat.mul_nonneg Rat.natCast_nonneg (twoPow_nonneg e)

theorem natCast_mul_twoPow_pos {m : Nat} (h : m ≠ 0) (e : Int) : 0 < (m : Rat) * twoPow e :=
  Rat.mul_pos (Rat.natCast_pos.mpr (Nat.pos_of_ne_zero h)) (twoPow_pos e)

theorem Num.val_neg {x : Num} (h : x.isFin = true) : x.neg.val = -x.val := by
  obtain ⟨b, m, e, rfl⟩ := isFin_iff.mp h
  rw [neg, val_fin, val_fin, signFactor_not, Rat.neg_mul]

/-- A magnitude is the value or its opposite, whichever is not negative. -/
theorem Num.val_abs {x : Num} (h : x.isFin = true) : x.abs.val = x.val.abs := by
  obtain ⟨b, m, e, rfl⟩ := isFin_iff.mp h
  have hpos := natCast_mul_twoPow_nonneg m e
  rw [abs, val_fin, val_fin, signFactor_false, Rat.one_mul]
  cases b with
  | false => rw [signFactor_false, Rat.one_mul, Rat.abs_of_nonneg hpos]
  | true => rw [signFactor_true, Rat.neg_mul, Rat.one_mul, Rat.abs_neg, Rat.abs_of_nonneg hpos]

/-- A number without a sign bit is not negative (04 R190). -/
theorem Num.val_nonneg_of_not_isNeg {x : Num} (h : x.isNeg = false) : 0 ≤ x.val := by
  cases x with
  | nan => exact Rat.le_refl
  | inf b => exact Rat.le_refl
  | fin b m e =>
    obtain rfl : b = false := h
    rw [val_fin, signFactor_false, Rat.one_mul]
    exact natCast_mul_twoPow_nonneg m e

theorem Num.val_ne_zero {b : Bool} {m : Nat} {e : Int} (h : m ≠ 0) : (Num.fin b m e).val ≠ 0 := fun h0 =>
  (Rat.mul_eq_zero.mp h0).elim (signFactor_ne_zero b) (Rat.ne_of_gt (natCast_mul_twoPow_pos h e))

theorem Num.ne_zero_of_not_isZero {b : Bool} {m : Nat} {e : Int} (h : (Num.fin b m e).isZero = false) : m ≠ 0 := by
  rintro rfl
  exact Bool.noConfusion h

theorem Num.sign_of_val_nonneg {b : Bool} {m : Nat} {e : Int} (hm : m ≠ 0) (h : 0 ≤ (Num.fin b m e).val) : b = false := by
  cases b with
  | false => rfl
  | true =>
    have hpos := natCast_mul_twoPow_pos hm e
    rw [val_fin, signFactor_true, Rat.neg_mul, Rat.one_mul] at h
    grind

/-! ### Order and arithmetic -/

/-- The exponent over which two values are compared and added. -/
def commonExp (e f : Int) : Int := if e ≤ f then e else f

theorem commonExp_add_toNat (e f : Int) : commonExp e f + (e - f).toNat = e ∧ commonExp e f + (-(e - f)).toNat = f := by
  unfold commonExp
  split <;> omega

/-- Two values over their common exponent: the naturals that comparison and addition work with. -/
theorem val_fin_common (b : Bool) (m : Nat) (e f : Int) :
    (Num.fin b m e).val = twoPow (commonExp e f) * (signFactor b * ((m * pow2Num (e - f) : Nat) : Rat)) ∧
    (Num.fin b m f).val = twoPow (commonExp e f) * (signFactor b * ((m * pow2Den (e - f) : Nat) : Rat)) := by
  obtain ⟨he, hf⟩ := commonExp_add_toNat e f
  have hnum : twoPow e = twoPow (commonExp e f) * (pow2Num (e - f) : Rat) := by rw [pow2Num, ← twoPow_natCast, ← twoPow_add, he]
  have hden : twoPow f = twoPow (commonExp e f) * (pow2Den (e - f) : Rat) := by rw [pow2Den, ← twoPow_natCast, ← twoPow_add, hf]
  rw [Num.val_fin, Num.val_fin, Rat.natCast_mul, Rat.natCast_mul]
  constructor
  · rw [hnum]
    grind
  · rw [hden]
    grind

theorem cast_ite_neg (b : Bool) (l : Nat) : ((if b then -(l : Int) else l : Int) : Rat) = signFactor b * l := by
  cases b with
  | false => exact (Rat.one_mul _).symm
  | true => exact ((Rat.neg_mul 1 l).trans (congrArg _ (Rat.one_mul _))).symm

theorem Num.lt_iff_val {x y : Num} (hx : x.isFin = true) (hy : y.isFin = true) : x.lt y = true ↔ x.val < y.val := by
  obtain ⟨a, m, e, rfl⟩ := isFin_iff.mp hx
  obtain ⟨b, n, f, rfl⟩ := isFin_iff.mp hy
  rw [(val_fin_common a m e f).1, (val_fin_common b n e f).2, Rat.mul_lt_mul_left (twoPow_pos _), ← cast_ite_neg, ← cast_ite_neg,
    Rat.intCast_lt_intCast]
  exact decide_eq_true_iff

theorem Num.lt_eq_false_iff_val {x y : Num} (hx : x.isFin = true) (hy : y.isFin = true) : x.lt y = false ↔ y.val ≤ x.val := by
  rw [← Rat.not_lt, ← lt_iff_val hx hy, Bool.not_eq_true]

theorem Num.same_iff_val {x y : Num} (hx : x.isFin = true) (hy : y.isFin = true) : x.same y = true ↔ x.val = y.val := by
  have hsame : x.same y = (!x.lt y && !y.lt x) := by
    obtain ⟨a, m, e, rfl⟩ := isFin_iff.mp hx
    obtain ⟨b, n, f, rfl⟩ := isFin_iff.mp hy
    rfl
  rw [hsame, Bool.and_eq_true, Bool.not_eq_true', Bool.not_eq_true', lt_eq_false_iff_val hx hy, lt_eq_false_iff_val hy hx, and_comm]
  exact Rat.le_antisymm_iff.symm

theorem Num.mul_fin {x y : Num} (hx : x.isFin = true) (hy : y.isFin = true) :
    (x.mul y).1.isFin = true ∧ (x.mul y).1.val = x.val * y.val := by
  obtain ⟨a, m, e, rfl⟩ := isFin_iff.mp hx
  obtain ⟨b, n, f, rfl⟩ := isFin_iff.mp hy
  refine ⟨rfl, ?_⟩
  change signFactor (a ^^ b) * (((m * n : Nat) : Rat) * twoPow (e + f)) = signFactor a * (m * twoPow e) * (signFactor b * (n * twoPow f))
  rw [signFactor_xor, twoPow_add, Rat.natCast_mul]
  grind

/-- The outcomes of an exact addition of finite numbers, over the common exponent. -/
theorem Num.add_fin_eq (a b : Bool) (m n : Nat) (e f : Int) :
    ((Num.fin a m e).add (.fin b n f)).1 =
      if a = b then .fin a (m * pow2Num (e - f) + n * pow2Den (e - f)) (commonExp e f)
      else if m * pow2Num (e - f) = n * pow2Den (e - f) then .fin false 0 (commonExp e f)
      else if n * pow2Den (e - f) < m * pow2Num (e - f) then .fin a (m * pow2Num (e - f) - n * pow2Den (e - f)) (commonExp e f)
      else .fin b (n * pow2Den (e - f) - m * pow2Num (e - f)) (commonExp e f) := by
  simp only [Num.add, commonExp, apply_ite Prod.fst]

theorem cast_sub_of_le {a b : Nat} (h : b ≤ a) : ((a - b : Nat) : Rat) = a - b := by
  have hsum : ((a - b : Nat) : Rat) + b = a := by rw [← Rat.natCast_add, Nat.sub_add_cancel h]
  grind

theorem Num.add_fin {x y : Num} (hx : x.isFin = true) (hy : y.isFin = true) :
    (x.add y).1.isFin = true ∧ (x.add y).1.val = x.val + y.val := by
  obtain ⟨a, m, e, rfl⟩ := isFin_iff.mp hx
  obtain ⟨b, n, f, rfl⟩ := isFin_iff.mp hy
  rw [(val_fin_common a m e f).1, (val_fin_common b n e f).2, ← Rat.mul_add, add_fin_eq]
  generalize m * pow2Num (e - f) = l, n * pow2Den (e - f) = r
  have hopp : a ≠ b → signFactor b = -signFactor a := fun hab => by
    rw [← signFactor_not, Bool.eq_not_of_ne hab, Bool.not_not]
  split
  next hab => exact ⟨rfl, by rw [val_fin, hab, Rat.natCast_add]; grind⟩
  next hab =>
    rw [hopp hab]
    split
    next heq => exact ⟨rfl, by rw [val_fin_zero, heq]; grind⟩
    next heq =>
      split
      next hlt => exact ⟨rfl, by rw [val_fin, cast_sub_of_le (Nat.le_of_lt hlt)]; grind⟩
      next hle => exact ⟨rfl, by rw [val_fin, hopp hab, cast_sub_of_le (Nat.le_of_not_lt hle)]; grind⟩

end Sys2Proof.Machine

/-! SUPPORT. The codes of a binary float and the conversion to one (04 Tables 4.1, 4.2; R213-R215): what a magnitude code is
worth, that no code lies between the two neighbours of a value, and which of them a conversion writes. -/

namespace Sys2Proof.Machine

namespace FloatFmt
variable (f : FloatFmt)

/-! ### The values of the codes -/

/-- The exponent of the unit of the subnormals. -/
def minExp : Int := 1 - (f.bias : Int) - f.fbits

/-- The worth of a magnitude code in units of the subnormals. -/
def ulps (mag : Nat) : Nat :=
  if mag / 2 ^ f.fbits = 0 then mag % 2 ^ f.fbits else (2 ^ f.fbits + mag % 2 ^ f.fbits) * 2 ^ (mag / 2 ^ f.fbits - 1)

/-- The code bits of a sign. -/
def signPart (neg : Bool) : Nat := if neg then f.signBit else 0

/-- The sign that a code carries. -/
def signOf (code : Nat) : Bool := decide (code / f.signBit % 2 = 1)

theorem signBit_pos : 0 < f.signBit := Nat.two_pow_pos _

theorem signBit_eq : f.signBit = 2 ^ f.ebits * 2 ^ f.fbits := Nat.pow_add 2 _ _

theorem infCode_lt_signBit : f.infCode < f.signBit := by
  rw [signBit_eq, infCode]
  exact Nat.mul_lt_mul_of_pos_right (Nat.sub_lt (Nat.two_pow_pos _) Nat.one_pos) (Nat.two_pow_pos _)

theorem maxCode_lt_signBit : f.maxCode < f.signBit := by
  have hinf := f.infCode_lt_signBit
  have hpos : 0 < 2 ^ (f.ebits + f.fbits) := Nat.two_pow_pos _
  unfold maxCode
  unfold infCode signBit at hinf
  unfold signBit
  split <;> omega

theorem signPart_add_lt {neg : Bool} {mag : Nat} (h : mag < f.signBit) : f.signPart neg + mag < 2 * f.signBit := by
  unfold signPart
  split <;> omega

theorem signPart_false : f.signPart false = 0 := rfl
theorem signPart_true : f.signPart true = f.signBit := rfl

theorem signOf_signPart_add {neg : Bool} {mag : Nat} (h : mag < f.signBit) : f.signOf (f.signPart neg + mag) = neg := by
  cases neg with
  | false =>
    rw [signOf, signPart_false, Nat.zero_add, Nat.div_eq_of_lt h]
    decide
  | true =>
    rw [signOf, signPart_true, Nat.add_div_left _ f.signBit_pos, Nat.div_eq_of_lt h]
    decide

theorem signPart_add_mod {neg : Bool} {mag : Nat} (h : mag < f.signBit) : (f.signPart neg + mag) % f.signBit = mag := by
  cases neg with
  | false => rw [signPart_false, Nat.zero_add, Nat.mod_eq_of_lt h]
  | true => rw [signPart_true, Nat.add_mod_left, Nat.mod_eq_of_lt h]

/-- A code is its sign and its magnitude. -/
theorem signPart_signOf_add_mod {code : Nat} (h : code < 2 * f.signBit) : f.signPart (f.signOf code) + code % f.signBit = code := by
  rcases Nat.lt_or_ge code f.signBit with hlt | hge
  · have hsign : f.signOf code = false := by
      rw [signOf, Nat.div_eq_of_lt hlt]
      decide
    rw [hsign, signPart_false, Nat.zero_add, Nat.mod_eq_of_lt hlt]
  · obtain ⟨mag, rfl⟩ := Nat.exists_eq_add_of_le hge
    have hmag : mag < f.signBit := by omega
    have hsign : f.signOf (f.signBit + mag) = true := f.signOf_signPart_add (neg := true) hmag
    rw [hsign, signPart_true, Nat.add_mod_left, Nat.mod_eq_of_lt hmag]

/-! ### Decoding -/

/-- A finite code: a subnormal carries its fraction, a normal its hidden bit and its exponent. -/
theorem decode_of_le {code : Nat} (h : code % f.signBit ≤ f.maxCode) :
    f.decode code =
      if code % f.signBit / 2 ^ f.fbits = 0 then .fin (f.signOf code) (code % f.signBit % 2 ^ f.fbits) f.minExp
      else .fin (f.signOf code) (2 ^ f.fbits + code % f.signBit % 2 ^ f.fbits)
        (((code % f.signBit / 2 ^ f.fbits : Nat) : Int) - f.bias - f.fbits) :=
  if_pos h

theorem decode_of_gt {code : Nat} (h : f.maxCode < code % f.signBit) :
    f.decode code = if f.specials = .ieee ∧ code % f.signBit % 2 ^ f.fbits = 0 then .inf (f.signOf code) else .nan := by
  refine (if_neg (Nat.not_le.mpr h)).trans ?_
  cases hs : f.specials with
  | ieee => simp only [true_and]; rfl
  | e4m3 => simp only [reduceCtorEq, false_and, if_false]
  | none => simp only [reduceCtorEq, false_and, if_false]

theorem decode_isFin_iff {code : Nat} : (f.decode code).isFin = true ↔ code % f.signBit ≤ f.maxCode := by
  rcases Nat.lt_or_ge f.maxCode (code % f.signBit) with h | h
  · refine iff_of_false ?_ (Nat.not_le.mpr h)
    rw [f.decode_of_gt h]
    split <;> exact Bool.false_ne_true
  · refine iff_of_true ?_ h
    rw [f.decode_of_le h]
    split <;> rfl

theorem val_decode {code : Nat} (h : code % f.signBit ≤ f.maxCode) :
    (f.decode code).val = signFactor (f.signOf code) * (f.ulps (code % f.signBit) * twoPow f.minExp) := by
  rw [f.decode_of_le h, ulps]
  split
  next he => rfl
  next he =>
    generalize code % f.signBit / 2 ^ f.fbits = k at he
    have hexp : (k : Int) - f.bias - f.fbits = ((k - 1 : Nat) : Int) + f.minExp := by
      unfold minExp
      omega
    rw [Num.val_fin, hexp, twoPow_add, twoPow_natCast, Rat.natCast_mul, Rat.mul_assoc]

theorem val_decode_signPart_add {neg : Bool} {mag : Nat} (h : mag ≤ f.maxCode) :
    (f.decode (f.signPart neg + mag)).isFin = true ∧
    (f.decode (f.signPart neg + mag)).val = signFactor neg * (f.ulps mag * twoPow f.minExp) := by
  have hmag := Nat.lt_of_le_of_lt h f.maxCode_lt_signBit
  have hmod := f.signPart_add_mod (neg := neg) hmag
  have hle := Nat.le_trans (Nat.le_of_eq hmod) h
  exact ⟨f.decode_isFin_iff.mpr hle, by rw [f.val_decode hle, hmod, f.signOf_signPart_add hmag]⟩

/-! ### The grid of the codes -/

/-- A magnitude code built from a binade and a significand, which may have carried into the next binade. -/
theorem ulps_mul_add {d n : Nat} (hn : n ≤ 2 * 2 ^ f.fbits) (hd : d = 0 ∨ 2 ^ f.fbits ≤ n) : f.ulps (d * 2 ^ f.fbits + n) = n * 2 ^ d := by
  have hp : 0 < 2 ^ f.fbits := Nat.two_pow_pos _
  unfold ulps
  rw [Nat.add_comm, Nat.add_mul_div_right _ _ hp, Nat.add_mul_mod_self_right]
  rcases Nat.lt_or_ge n (2 ^ f.fbits) with hlt | hge
  · obtain rfl : d = 0 := hd.resolve_right (Nat.not_le.mpr hlt)
    rw [Nat.div_eq_of_lt hlt, Nat.mod_eq_of_lt hlt, if_pos rfl, Nat.pow_zero, Nat.mul_one]
  · obtain ⟨fr, rfl⟩ := Nat.exists_eq_add_of_le hge
    rw [Nat.add_div_left _ hp, Nat.add_mod_left]
    rcases Nat.lt_or_ge fr (2 ^ f.fbits) with hfr | hfr
    · rw [Nat.div_eq_of_lt hfr, Nat.mod_eq_of_lt hfr, if_neg (by omega), show Nat.succ 0 + d - 1 = d by omega]
    · obtain rfl : fr = 2 ^ f.fbits := by omega
      rw [Nat.div_self hp, Nat.mod_self, if_neg (by omega), show Nat.succ 1 + d - 1 = d + 1 by omega, Nat.pow_succ']
      grind

/-- No code lies strictly between two neighbours of a binade (04 R214). -/
theorem ulps_gap (mag : Nat) {d lo : Nat} (hd : d = 0 ∨ 2 ^ f.fbits ≤ lo) :
    f.ulps mag ≤ lo * 2 ^ d ∨ (lo + 1) * 2 ^ d ≤ f.ulps mag := by
  have hmultiple : ∀ a : Nat, a * 2 ^ d ≤ lo * 2 ^ d ∨ (lo + 1) * 2 ^ d ≤ a * 2 ^ d := fun a =>
    (Nat.lt_or_ge lo a).symm.imp (Nat.mul_le_mul_right _) (Nat.mul_le_mul_right _)
  have hfrac : mag % 2 ^ f.fbits < 2 ^ f.fbits := Nat.mod_lt _ (Nat.two_pow_pos _)
  have hbelow : ∀ a k : Nat, k < d → a < 2 * 2 ^ f.fbits → a * 2 ^ k ≤ lo * 2 ^ d := fun a k hk ha => by
    have hlo : 2 ^ f.fbits ≤ lo := hd.resolve_left (by omega)
    calc a * 2 ^ k ≤ 2 * 2 ^ f.fbits * 2 ^ k := Nat.mul_le_mul_right _ (Nat.le_of_lt ha)
      _ = 2 ^ f.fbits * 2 ^ (k + 1) := by rw [Nat.pow_succ', Nat.mul_comm 2, Nat.mul_assoc]
      _ ≤ lo * 2 ^ d := Nat.mul_le_mul hlo (Nat.pow_le_pow_right Nat.two_pos hk)
  unfold ulps
  split
  next he =>
    rcases Nat.eq_zero_or_pos d with hd0 | hpos
    · subst hd0
      have hunits := hmultiple (mag % 2 ^ f.fbits)
      rwa [show mag % 2 ^ f.fbits * 2 ^ 0 = mag % 2 ^ f.fbits from Nat.mul_one _] at hunits
    · refine .inl ?_
      have hunits := hbelow (mag % 2 ^ f.fbits) 0 hpos (by omega)
      rwa [show mag % 2 ^ f.fbits * 2 ^ 0 = mag % 2 ^ f.fbits from Nat.mul_one _] at hunits
  next he =>
    rcases Nat.lt_or_ge (mag / 2 ^ f.fbits - 1) d with hk | hk
    · exact .inl (hbelow _ _ hk (by omega))
    · obtain ⟨j, hj⟩ := Nat.exists_eq_add_of_le' hk
      rw [hj, Nat.pow_add, ← Nat.mul_assoc]
      exact hmultiple _

/-! ### What a conversion computes -/

/-- The exponent of the unit to which a value m · 2^e is rounded (04 R213 step 4). -/
def quantum (m : Nat) (e : Int) : Int :=
  if (Nat.log2 m : Int) + e - f.fbits < f.minExp then f.minExp else (Nat.log2 m : Int) + e - f.fbits

/-- The quotient of a value by its unit, as a fraction. -/
def unitNum (m : Nat) (e : Int) : Nat := m * 2 ^ (e - f.quantum m e).toNat
def unitDen (m : Nat) (e : Int) : Nat := 2 ^ (f.quantum m e - e).toNat

/-- The lower neighbour in units, and the remainder above it. -/
def lower (m : Nat) (e : Int) : Nat := f.unitNum m e / f.unitDen m e
def above (m : Nat) (e : Int) : Nat := f.unitNum m e % f.unitDen m e

/-- The rounded significand and the magnitude code that holds it. -/
def rounded (md : Round) (m : Nat) (e : Int) : Nat :=
  if md.up (f.above m e) (f.unitDen m e) (decide (f.lower m e % 2 = 1)) then f.lower m e + 1 else f.lower m e
def binade (m : Nat) (e : Int) : Nat := (f.quantum m e - f.minExp).toNat
def magnitude (md : Round) (m : Nat) (e : Int) : Nat := f.binade m e * 2 ^ f.fbits + f.rounded md m e

/-- The flags of a conversion within the range (04 R218). -/
def roundFlags (m : Nat) (e : Int) : Fl :=
  let inexact := decide (f.above m e ≠ 0)
  (if inexact then flNX else 0) ||| (if inexact && decide ((Nat.log2 m : Int) + e < f.minExp + f.fbits) then flUF else 0)

theorem encode_zero (md : Round) (sat neg : Bool) (e : Int) : f.encode md sat (.fin neg 0 e) = ⟨f.signPart neg, 0, false⟩ := rfl

theorem encode_of_le {md : Round} {m : Nat} {e : Int} (sat neg : Bool) (hm : m ≠ 0) (h : f.magnitude md m e ≤ f.maxCode) :
    f.encode md sat (.fin neg m e) = ⟨f.signPart neg + f.magnitude md m e, f.roundFlags m e, false⟩ :=
  (if_neg hm).trans (if_neg (Nat.not_lt.mpr h))

/-- Beyond the largest finite value a conversion saturates or overflows, and counts as saturated (04 R217). -/
theorem encode_of_gt {md : Round} {m : Nat} {e : Int} (sat neg : Bool) (hm : m ≠ 0) (h : f.maxCode < f.magnitude md m e) :
    (f.encode md sat (.fin neg m e)).sat = true := by
  refine (congrArg Conv.sat ((if_neg hm).trans (if_pos h))).trans ?_
  cases md.isZero with
  | true => rfl
  | false => cases f.specials <;> cases sat <;> rfl

theorem magnitude_le_of_not_sat {md : Round} {sat neg : Bool} {m : Nat} {e : Int} (hm : m ≠ 0)
    (h : (f.encode md sat (.fin neg m e)).sat = false) : f.magnitude md m e ≤ f.maxCode :=
  Nat.not_lt.mp fun hgt => Bool.false_ne_true (h.symm.trans (f.encode_of_gt sat neg hm hgt))

/-! ### The neighbours of a value -/

section
variable (m : Nat) (e : Int)

theorem minExp_le_quantum : f.minExp ≤ f.quantum m e := by
  unfold quantum
  split <;> omega

theorem log2_sub_fbits_le_quantum : (Nat.log2 m : Int) + e - f.fbits ≤ f.quantum m e := by
  unfold quantum
  split <;> omega

theorem quantum_of_binade_ne_zero (h : f.binade m e ≠ 0) : f.quantum m e = (Nat.log2 m : Int) + e - f.fbits := by
  unfold binade quantum at h
  unfold quantum
  split at h <;> split <;> omega

theorem unitDen_pos : 0 < f.unitDen m e := Nat.two_pow_pos _

theorem above_lt : f.above m e < f.unitDen m e := Nat.mod_lt _ (f.unitDen_pos m e)

/-- A value in its unit is a fraction. -/
theorem value_mul_unitDen : (m : Rat) * twoPow e * f.unitDen m e = f.unitNum m e * twoPow (f.quantum m e) := by
  have hexp : twoPow e * f.unitDen m e = ((2 ^ (e - f.quantum m e).toNat : Nat) : Rat) * twoPow (f.quantum m e) := by
    rw [unitDen, ← twoPow_natCast, ← twoPow_natCast, ← twoPow_add, ← twoPow_add]
    congr 1
    omega
  rw [unitNum, Rat.natCast_mul, Rat.mul_assoc, hexp, Rat.mul_assoc]

/-- A value is its lower neighbour and the remainder, in its unit. -/
theorem value_eq_lower_add_above :
    (m : Rat) * twoPow e * f.unitDen m e = (f.lower m e * f.unitDen m e + f.above m e) * twoPow (f.quantum m e) := by
  have hdiv : f.lower m e * f.unitDen m e + f.above m e = f.unitNum m e := by
    rw [Nat.mul_comm]
    exact Nat.div_add_mod _ _
  rw [value_mul_unitDen, ← hdiv, Rat.natCast_add, Rat.natCast_mul]

/-- The lower neighbour of a value has at most the bits of a significand, and all of them above the subnormals. -/
theorem lower_bounds (hm : m ≠ 0) :
    f.lower m e < 2 * 2 ^ f.fbits ∧ (f.binade m e = 0 ∨ 2 ^ f.fbits ≤ f.lower m e) := by
  have hlow : 2 ^ Nat.log2 m ≤ m := Nat.log2_self_le hm
  have hhigh : m < 2 ^ (Nat.log2 m + 1) := Nat.lt_log2_self
  have hq := f.log2_sub_fbits_le_quantum m e
  constructor
  · refine Nat.div_lt_of_lt_mul ?_
    rw [unitNum, unitDen, ← Nat.pow_succ', ← Nat.pow_add]
    calc m * 2 ^ (e - f.quantum m e).toNat < 2 ^ (Nat.log2 m + 1) * 2 ^ (e - f.quantum m e).toNat :=
          Nat.mul_lt_mul_of_pos_right hhigh (Nat.two_pow_pos _)
      _ = 2 ^ (Nat.log2 m + 1 + (e - f.quantum m e).toNat) := (Nat.pow_add 2 _ _).symm
      _ ≤ _ := Nat.pow_le_pow_right Nat.two_pos (by omega)
  · by_cases h0 : f.binade m e = 0
    · exact .inl h0
    · have hq' := f.quantum_of_binade_ne_zero m e h0
      refine .inr ((Nat.le_div_iff_mul_le (f.unitDen_pos m e)).mpr ?_)
      rw [unitNum, unitDen, ← Nat.pow_add]
      calc 2 ^ (f.fbits + (f.quantum m e - e).toNat) ≤ 2 ^ (Nat.log2 m + (e - f.quantum m e).toNat) :=
            Nat.pow_le_pow_right Nat.two_pos (by omega)
        _ = 2 ^ Nat.log2 m * 2 ^ (e - f.quantum m e).toNat := Nat.pow_add 2 _ _
        _ ≤ _ := Nat.mul_le_mul_right _ hlow

end

/-- The rounded significand is one of the two neighbours. -/
theorem rounded_eq (md : Round) (m : Nat) (e : Int) : f.rounded md m e = f.lower m e ∨ f.rounded md m e = f.lower m e + 1 := by
  unfold rounded
  split
  · exact .inr rfl
  · exact .inl rfl

theorem ulps_magnitude {m : Nat} (md : Round) (e : Int) (hm : m ≠ 0) :
    f.ulps (f.magnitude md m e) = f.rounded md m e * 2 ^ f.binade m e := by
  obtain ⟨hlt, hge⟩ := f.lower_bounds m e hm
  have hr := f.rounded_eq md m e
  exact f.ulps_mul_add (by omega) (by omega)

theorem natCast_mul_two_pow_binade (n m : Nat) (e : Int) :
    ((n * 2 ^ f.binade m e : Nat) : Rat) * twoPow f.minExp = n * twoPow (f.quantum m e) := by
  rw [twoPow_eq_of_le (f.minExp_le_quantum m e), Rat.natCast_mul, Rat.mul_assoc, binade]

/-- The value that a conversion within the range writes (04 R213). -/
theorem val_decode_encode {md : Round} {sat neg : Bool} {m : Nat} {e : Int} (hm : m ≠ 0) (h : f.magnitude md m e ≤ f.maxCode) :
    (f.decode (f.encode md sat (.fin neg m e)).code).isFin = true ∧
    (f.decode (f.encode md sat (.fin neg m e)).code).val = signFactor neg * (f.rounded md m e * twoPow (f.quantum m e)) := by
  rw [f.encode_of_le sat neg hm h]
  obtain ⟨hfin, hval⟩ := f.val_decode_signPart_add (neg := neg) h
  exact ⟨hfin, by rw [hval, f.ulps_magnitude md e hm, f.natCast_mul_two_pow_binade]⟩

/-- No finite code lies strictly between the two neighbours of a value, whatever the signs. -/
theorem val_gap {z : Nat} (neg : Bool) (m : Nat) (e : Int) (hz : (f.decode z).isFin = true) (hm : m ≠ 0) :
    signFactor neg * (f.decode z).val ≤ f.lower m e * twoPow (f.quantum m e) ∨
    (f.lower m e + 1) * twoPow (f.quantum m e) ≤ signFactor neg * (f.decode z).val := by
  rw [f.val_decode (f.decode_isFin_iff.mp hz), ← Rat.mul_assoc, ← signFactor_xor]
  cases neg ^^ f.signOf z with
  | true =>
    refine .inl (Rat.le_trans ?_ (natCast_mul_twoPow_nonneg (f.lower m e) (f.quantum m e)))
    have hpos := natCast_mul_twoPow_nonneg (f.ulps (z % f.signBit)) f.minExp
    rw [signFactor_true, Rat.neg_mul, Rat.one_mul]
    grind
  | false =>
    rw [signFactor_false, Rat.one_mul, show (f.lower m e : Rat) + 1 = ((f.lower m e + 1 : Nat) : Rat) from (Rat.natCast_add _ _).symm,
      ← f.natCast_mul_two_pow_binade, ← f.natCast_mul_two_pow_binade]
    refine (f.ulps_gap (z % f.signBit) (f.lower_bounds m e hm).2).imp ?_ ?_
    · exact fun hle => Rat.mul_le_mul_of_nonneg_right (Rat.natCast_le_natCast.mpr hle) (twoPow_nonneg _)
    · exact fun hle => Rat.mul_le_mul_of_nonneg_right (Rat.natCast_le_natCast.mpr hle) (twoPow_nonneg _)

end FloatFmt

end Sys2Proof.Machine

/-! SUPPORT. Rounding to the nearest, also through a sticky bit (04 R214, R215), and the parts of O39 about conversion. -/

namespace Sys2Proof.Machine

/-! ### The direction of a rounding -/

theorem Round.two_mul_le_of_not_up {rem den : Nat} {odd : Bool} (h : Round.nearest.up rem den odd = false) : 2 * rem ≤ den := by
  simp only [up, Bool.or_eq_false_iff, decide_eq_false_iff_not] at h
  exact Nat.not_lt.mp h.1

theorem Round.le_two_mul_of_up {rem den : Nat} {odd : Bool} (h : Round.nearest.up rem den odd = true) : den ≤ 2 * rem := by
  simp only [up, Bool.or_eq_true, decide_eq_true_eq, Bool.and_eq_true] at h
  exact h.elim Nat.le_of_lt fun heq => Nat.le_of_eq heq.1.symm

/-- What needs no rounding is not moved, in every mode (04 R214). -/
theorem Round.up_zero_rem {md : Round} (hmd : ∀ r, md = .stochastic r → r < 65536) {den : Nat} (hden : 0 < den) (odd : Bool) :
    md.up 0 den odd = false := by
  cases md with
  | nearest =>
    simp only [up, Bool.or_eq_false_iff, Bool.and_eq_false_iff, decide_eq_false_iff_not]
    exact ⟨by omega, .inl (by omega)⟩
  | zero => rfl
  | stochastic r =>
    have hr := hmd r rfl
    simp only [up, Nat.zero_mul, Nat.zero_div, decide_eq_false_iff_not]
    omega

/-! ### Distances -/

/-- Of two values, the one on the same side of their midpoint as a third is the nearer to it. -/
theorem abs_sub_le_of_midpoint {X Z v : Rat} (hlt : X < Z → 2 * v ≤ X + Z) (hgt : Z < X → X + Z ≤ 2 * v) : (X - v).abs ≤ (Z - v).abs := by
  have habs : ∀ w : Rat, w.abs = w ∧ 0 ≤ w ∨ w.abs = -w ∧ w ≤ 0 := fun w =>
    (Rat.le_total (a := 0) (b := w)).imp (fun h => ⟨Rat.abs_of_nonneg h, h⟩) (fun h => ⟨Rat.abs_of_nonpos h, h⟩)
  rcases habs (X - v) with hX | hX <;> rcases habs (Z - v) with hZ | hZ <;> grind

/-- A distance does not change when both ends change their sign. -/
theorem abs_sub_signFactor_mul (b : Bool) (x t : Rat) : (x - signFactor b * t).abs = (signFactor b * x - t).abs := by
  cases b with
  | false => rw [signFactor_false, Rat.one_mul, Rat.one_mul]
  | true =>
    rw [signFactor_true, ← Rat.abs_neg]
    congr 1
    grind

theorem abs_signFactor_mul (b : Bool) (x : Rat) : (signFactor b * x).abs = x.abs := by
  cases b with
  | false => rw [signFactor_false, Rat.one_mul]
  | true => rw [signFactor_true, Rat.neg_mul, Rat.one_mul, Rat.abs_neg]

theorem abs_mul_rat (a b : Rat) : (a * b).abs = a.abs * b.abs := by
  have hpos : ∀ {c d : Rat}, 0 ≤ c → (c * d).abs = c * d.abs := fun {c d} hc => by
    rcases Rat.le_total (a := 0) (b := d) with hd | hd
    · rw [Rat.abs_of_nonneg hd, Rat.abs_of_nonneg (Rat.mul_nonneg hc hd)]
    · have hneg := Rat.mul_nonneg hc (Rat.neg_le_neg hd)
      rw [Rat.abs_of_nonpos hd, Rat.abs_of_nonpos (by grind), Rat.mul_neg]
  rcases Rat.le_total (a := 0) (b := a) with ha | ha
  · rw [Rat.abs_of_nonneg ha, hpos ha]
  · rw [Rat.abs_of_nonpos ha, ← hpos (by grind), Rat.neg_mul, Rat.abs_neg]

/-- Nothing that avoids a gap lies between a value in it and one of its ends. -/
theorem not_between_of_gap {L H t X Z : Rat} (hL : L ≤ t) (hH : t ≤ H) (hgap : Z ≤ L ∨ H ≤ Z) (hX : X = L ∨ X = H) :
    ¬ (t < Z ∧ Z < X) ∧ ¬ (X < Z ∧ Z < t) := by
  rcases hgap with hZ | hZ <;> rcases hX with hX | hX <;> grind

/-! ### Conversions -/

namespace FloatFmt
variable (f : FloatFmt) {md : Round} {sat neg : Bool} {m : Nat} {e : Int}

/-- A value lies between its neighbours. -/
theorem value_between (m : Nat) (e : Int) :
    (f.lower m e : Rat) * twoPow (f.quantum m e) ≤ m * twoPow e ∧ (m : Rat) * twoPow e ≤ (f.lower m e + 1) * twoPow (f.quantum m e) := by
  have hden : (0 : Rat) < f.unitDen m e := Rat.natCast_pos.mpr (f.unitDen_pos m e)
  have hrem0 : (0 : Rat) ≤ f.above m e := Rat.natCast_nonneg
  have hrem1 : (f.above m e : Rat) ≤ f.unitDen m e := Rat.natCast_le_natCast.mpr (Nat.le_of_lt (f.above_lt m e))
  have hunit := twoPow_nonneg (f.quantum m e)
  have hvalue := f.value_eq_lower_add_above m e
  constructor
  · refine Rat.le_of_mul_le_mul_right (c := (f.unitDen m e : Rat)) ?_ hden
    have hmul := Rat.mul_nonneg hrem0 hunit
    grind
  · refine Rat.le_of_mul_le_mul_right (c := (f.unitDen m e : Rat)) ?_ hden
    have hmul := Rat.mul_le_mul_of_nonneg_right hrem1 hunit
    grind

/-- To nearest, the side of the midpoint decides (04 R214). -/
theorem rounded_nearest (m : Nat) (e : Int) :
    f.rounded .nearest m e = f.lower m e ∧ 2 * ((m : Rat) * twoPow e) ≤ (2 * f.lower m e + 1) * twoPow (f.quantum m e) ∨
    f.rounded .nearest m e = f.lower m e + 1 ∧ (2 * f.lower m e + 1) * twoPow (f.quantum m e) ≤ 2 * ((m : Rat) * twoPow e) := by
  have hden : (0 : Rat) < f.unitDen m e := Rat.natCast_pos.mpr (f.unitDen_pos m e)
  have hunit := twoPow_nonneg (f.quantum m e)
  have hvalue := f.value_eq_lower_add_above m e
  by_cases hup : Round.nearest.up (f.above m e) (f.unitDen m e) (decide (f.lower m e % 2 = 1)) = true
  · refine .inr ⟨if_pos hup, ?_⟩
    have hrem : (f.unitDen m e : Rat) ≤ 2 * f.above m e := by exact_mod_cast Round.le_two_mul_of_up hup
    refine Rat.le_of_mul_le_mul_right (c := (f.unitDen m e : Rat)) ?_ hden
    have hmul := Rat.mul_le_mul_of_nonneg_right hrem hunit
    grind
  · refine .inl ⟨if_neg hup, ?_⟩
    have hrem : (2 * f.above m e : Rat) ≤ f.unitDen m e := by
      exact_mod_cast Round.two_mul_le_of_not_up ((Bool.not_eq_true _).mp hup)
    refine Rat.le_of_mul_le_mul_right (c := (f.unitDen m e : Rat)) ?_ hden
    have hmul := Rat.mul_le_mul_of_nonneg_right hrem hunit
    grind

/-- A zero is converted to the zero of its sign (04 R190). -/
theorem val_decode_encode_zero (md : Round) (sat neg : Bool) (e : Int) :
    (f.decode (f.encode md sat (.fin neg 0 e)).code).isFin = true ∧ (f.decode (f.encode md sat (.fin neg 0 e)).code).val = 0 := by
  obtain ⟨hfin, hval⟩ := f.val_decode_signPart_add (neg := neg) (Nat.zero_le _)
  have hulps : f.ulps 0 = 0 := by
    rw [ulps, Nat.zero_div, if_pos rfl, Nat.zero_mod]
  refine ⟨hfin, hval.trans ?_⟩
  rw [hulps, show ((0 : Nat) : Rat) = 0 from rfl, Rat.zero_mul, Rat.mul_zero]

/-- A conversion within the range writes a finite code. -/
theorem encode_fits (h : (f.encode md sat (.fin neg m e)).sat = false) :
    (f.decode (f.encode md sat (.fin neg m e)).code).isFin = true ∧ (f.encode md sat (.fin neg m e)).code < 2 * f.signBit := by
  by_cases hm : m = 0
  · subst hm
    exact ⟨(f.val_decode_encode_zero md sat neg e).1, f.signPart_add_lt f.signBit_pos⟩
  · have hle := f.magnitude_le_of_not_sat hm h
    refine ⟨(f.val_decode_encode hm hle).1, ?_⟩
    rw [f.encode_of_le sat neg hm hle]
    exact f.signPart_add_lt (Nat.lt_of_le_of_lt hle f.maxCode_lt_signBit)

/-- What a conversion to nearest writes, and any other value of the format, have between their midpoint and the value converted
a multiple of each finer power of two: a value that no such multiple separates from the one converted is rounded alike. -/
theorem encode_nearest_midpoint {E : Int} {z : Nat} (h : (f.encode .nearest sat (.fin neg m e)).sat = false)
    (hE : m ≠ 0 → E < f.quantum m e) (hz : (f.decode z).isFin = true) :
    let X := signFactor neg * (f.decode (f.encode .nearest sat (.fin neg m e)).code).val
    let Z := signFactor neg * (f.decode z).val
    (X < Z → ∃ b : Nat, m * twoPow e ≤ b * twoPow E ∧ 2 * (b * twoPow E) ≤ X + Z) ∧
    (Z < X → ∃ b : Nat, b * twoPow E ≤ m * twoPow e ∧ X + Z ≤ 2 * (b * twoPow E)) := by
  intro X Z
  by_cases hm : m = 0
  · subst hm
    have hX : X = 0 := by
      rw [show X = signFactor neg * 0 from congrArg _ (f.val_decode_encode_zero .nearest sat neg e).2, Rat.mul_zero]
    have hzero : ((0 : Nat) : Rat) = 0 := rfl
    exact ⟨fun hlt => ⟨0, by grind⟩, fun hgt => ⟨0, by grind⟩⟩
  · have hX : X = f.rounded .nearest m e * twoPow (f.quantum m e) := by
      rw [show X = signFactor neg * _ from congrArg _ (f.val_decode_encode hm (f.magnitude_le_of_not_sat hm h)).2, signFactor_mul_cancel]
    have hgap := f.val_gap neg m e hz hm
    obtain ⟨hL, hH⟩ := f.value_between m e
    have hunit : twoPow (f.quantum m e) = 2 * twoPow (f.quantum m e - 1) := twoPow_succ_pred _
    have hgrid : ∀ b : Nat, ∃ c : Nat, (c : Rat) * twoPow E = b * twoPow (f.quantum m e - 1) := fun b =>
      ⟨b * 2 ^ (f.quantum m e - 1 - E).toNat,
        by rw [twoPow_eq_of_le (Int.le_sub_one_of_lt (hE hm)), Rat.natCast_mul, Rat.mul_assoc]⟩
    obtain ⟨cL, hcL⟩ := hgrid (2 * f.lower m e)
    obtain ⟨cM, hcM⟩ := hgrid (2 * f.lower m e + 1)
    obtain ⟨cH, hcH⟩ := hgrid (2 * f.lower m e + 2)
    simp only [Rat.natCast_add, Rat.natCast_mul, Rat.natCast_ofNat] at hcL hcM hcH
    have hpos := twoPow_pos (f.quantum m e - 1)
    rw [hunit] at hX hgap hL hH
    rcases f.rounded_nearest m e with ⟨hr, hmid⟩ | ⟨hr, hmid⟩
    · rw [hr] at hX
      rw [hunit] at hmid
      exact ⟨fun hlt => ⟨cM, by grind⟩, fun hgt => ⟨cL, by grind⟩⟩
    · rw [hr, Rat.natCast_add] at hX
      rw [hunit] at hmid
      exact ⟨fun hlt => ⟨cH, by grind⟩, fun hgt => ⟨cM, by grind⟩⟩

/-- Round to nearest gives the nearest finite value of the format (04 R214). -/
theorem encode_nearest {z : Nat} (h : (f.encode .nearest sat (.fin neg m e)).sat = false) (hz : (f.decode z).isFin = true) :
    ((f.decode (f.encode .nearest sat (.fin neg m e)).code).val - (Num.fin neg m e).val).abs ≤
      ((f.decode z).val - (Num.fin neg m e).val).abs := by
  obtain ⟨hlt, hgt⟩ := f.encode_nearest_midpoint (E := f.quantum m e - 1) h (fun _ => by omega) hz
  rw [Num.val_fin, abs_sub_signFactor_mul, abs_sub_signFactor_mul]
  refine abs_sub_le_of_midpoint (fun hXZ => ?_) (fun hZX => ?_)
  · obtain ⟨b, hle, hmid⟩ := hlt hXZ
    grind
  · obtain ⟨b, hle, hmid⟩ := hgt hZX
    grind

/-- No value of the format lies strictly between a value and its conversion (04 R214). -/
theorem encode_nothing_between {z : Nat} (h : (f.encode md sat (.fin neg m e)).sat = false) (hz : (f.decode z).isFin = true) :
    ¬ ((Num.fin neg m e).val < (f.decode z).val ∧ (f.decode z).val < (f.decode (f.encode md sat (.fin neg m e)).code).val) ∧
    ¬ ((f.decode (f.encode md sat (.fin neg m e)).code).val < (f.decode z).val ∧ (f.decode z).val < (Num.fin neg m e).val) := by
  by_cases hm : m = 0
  · subst hm
    rw [(f.val_decode_encode_zero md sat neg e).2, Num.val_fin_zero]
    constructor <;> grind
  · rw [(f.val_decode_encode hm (f.magnitude_le_of_not_sat hm h)).2, Num.val_fin]
    obtain ⟨hL, hH⟩ := f.value_between m e
    have hX : (f.rounded md m e : Rat) * twoPow (f.quantum m e) = f.lower m e * twoPow (f.quantum m e) ∨
        (f.rounded md m e : Rat) * twoPow (f.quantum m e) = (f.lower m e + 1) * twoPow (f.quantum m e) :=
      (f.rounded_eq md m e).imp (fun hr => by rw [hr]) (fun hr => by rw [hr, Rat.natCast_add]; rfl)
    have hnone := not_between_of_gap hL hH (f.val_gap neg m e hz hm) hX
    cases neg with
    | false => simpa only [signFactor_false, Rat.one_mul] using hnone
    | true =>
      simp only [signFactor_true, Rat.neg_mul, Rat.one_mul] at hnone ⊢
      exact ⟨fun hb => hnone.2 ⟨Rat.lt_neg_iff.mp hb.2, Rat.neg_lt_iff.mp hb.1⟩,
        fun hb => hnone.1 ⟨Rat.lt_neg_iff.mp hb.2, Rat.neg_lt_iff.mp hb.1⟩⟩

/-- Rounding toward zero takes the lower neighbour (04 R214). -/
theorem encode_zero_abs_le (h : (f.encode .zero sat (.fin neg m e)).sat = false) :
    (f.decode (f.encode .zero sat (.fin neg m e)).code).val.abs ≤ (Num.fin neg m e).val.abs := by
  by_cases hm : m = 0
  · subst hm
    have heq := (f.val_decode_encode_zero .zero sat neg e).2.trans (Num.val_fin_zero neg e).symm
    exact (Rat.le_antisymm_iff.mp (congrArg Rat.abs heq)).1
  · have hr : f.rounded .zero m e = f.lower m e := rfl
    rw [(f.val_decode_encode hm (f.magnitude_le_of_not_sat hm h)).2, Num.val_fin, abs_signFactor_mul, abs_signFactor_mul, hr,
      Rat.abs_of_nonneg (natCast_mul_twoPow_nonneg _ _), Rat.abs_of_nonneg (natCast_mul_twoPow_nonneg _ _)]
    exact (f.value_between m e).1

theorem roundFlags_of_exact (h : f.above m e = 0) : f.roundFlags m e = 0 := by
  unfold roundFlags
  rw [decide_eq_false (fun hne => hne h)]
  cases decide ((Nat.log2 m : Int) + e < f.minExp + f.fbits) <;> decide

theorem roundFlags_inexact_iff (m : Nat) (e : Int) : f.roundFlags m e &&& flNX = 0 ↔ f.above m e = 0 := by
  by_cases h : f.above m e = 0
  · refine iff_of_true ?_ h
    rw [f.roundFlags_of_exact h]
    decide
  · refine iff_of_false ?_ h
    unfold roundFlags
    rw [decide_eq_true h]
    cases decide ((Nat.log2 m : Int) + e < f.minExp + f.fbits) <;> decide

/-- The rounded significand is the value's own exactly when nothing remains above the lower neighbour. -/
theorem rounded_mul_unitDen_eq_iff (hmd : ∀ r, md = .stochastic r → r < 65536) (m : Nat) (e : Int) :
    f.rounded md m e * f.unitDen m e = f.lower m e * f.unitDen m e + f.above m e ↔ f.above m e = 0 := by
  constructor
  · intro heq
    have hlt := f.above_lt m e
    rcases f.rounded_eq md m e with hr | hr
    · rw [hr] at heq
      omega
    · rw [hr, Nat.add_mul] at heq
      omega
  · intro hz
    rw [rounded, hz, Round.up_zero_rem hmd (f.unitDen_pos m e), if_neg Bool.false_ne_true, Nat.add_zero]

/-- A conversion is exact exactly when it raises no NX (04 R218). -/
theorem encode_inexact_iff (hmd : ∀ r, md = .stochastic r → r < 65536) (h : (f.encode md sat (.fin neg m e)).sat = false) :
    (f.encode md sat (.fin neg m e)).fl &&& flNX = 0 ↔
      (f.decode (f.encode md sat (.fin neg m e)).code).val = (Num.fin neg m e).val := by
  by_cases hm : m = 0
  · subst hm
    exact iff_of_true BitVec.zero_and ((f.val_decode_encode_zero md sat neg e).2.trans (Num.val_fin_zero neg e).symm)
  · have hle := f.magnitude_le_of_not_sat hm h
    have hden : (f.unitDen m e : Rat) ≠ 0 := Rat.ne_of_gt (Rat.natCast_pos.mpr (f.unitDen_pos m e))
    have hunit : twoPow (f.quantum m e) ≠ 0 := Rat.ne_of_gt (twoPow_pos _)
    have hsign := signFactor_ne_zero neg
    have hvalue := f.value_eq_lower_add_above m e
    rw [(f.val_decode_encode hm hle).2, f.encode_of_le sat neg hm hle, f.roundFlags_inexact_iff, Num.val_fin,
      ← f.rounded_mul_unitDen_eq_iff hmd, ← Rat.natCast_inj, Rat.natCast_add, Rat.natCast_mul, Rat.natCast_mul]
    constructor <;> intro heq <;> grind

end FloatFmt

end Sys2Proof.Machine

/-! SUPPORT. Quotients and square roots of FP32 (08 R394), and O39. -/

namespace Sys2Proof.Machine

/-! ### Results in FP32 -/

theorem fp32_ofNat {code : Nat} (h : code < 2 ^ 32) : fp32 (BitVec.ofNat 32 code) = fmtFp32.decode code := by
  rw [fp32, BitVec.toNat_ofNat, Nat.mod_eq_of_lt h]

theorem fmtFp32_fields : fmtFp32.bias = 127 ∧ fmtFp32.fbits = 23 ∧ fmtFp32.minExp = -149 ∧ fmtFp32.maxCode = 2139095039 := by decide

/-- An overflow to nearest gives infinity (04 R217). -/
theorem encode_fmtFp32_of_gt {neg : Bool} {m : Nat} {e : Int} (hm : m ≠ 0) (h : fmtFp32.maxCode < fmtFp32.magnitude .nearest m e) :
    (fmtFp32.encode .nearest false (.fin neg m e)).code = fmtFp32.signPart neg + fmtFp32.infCode :=
  congrArg Conv.code ((if_neg hm).trans (if_pos h))

theorem encode_fmtFp32_code_lt (neg : Bool) (m : Nat) (e : Int) :
    (fmtFp32.encode .nearest false (.fin neg m e)).code < 2 * fmtFp32.signBit := by
  by_cases hm : m = 0
  · subst hm
    exact (fmtFp32.encode_fits rfl).2
  · rcases Nat.lt_or_ge fmtFp32.maxCode (fmtFp32.magnitude .nearest m e) with hgt | hle
    · rw [encode_fmtFp32_of_gt hm hgt]
      exact fmtFp32.signPart_add_lt fmtFp32.infCode_lt_signBit
    · exact (fmtFp32.encode_fits (congrArg Conv.sat (fmtFp32.encode_of_le false neg hm hle))).2

theorem fp32_toFp32 (neg : Bool) (m : Nat) (e : Int) :
    fp32 (toFp32 (.fin neg m e)).1 = fmtFp32.decode (fmtFp32.encode .nearest false (.fin neg m e)).code :=
  fp32_ofNat (encode_fmtFp32_code_lt neg m e)

/-- A finite result did not overflow. -/
theorem encode_fmtFp32_not_sat {neg : Bool} {m : Nat} {e : Int} (h : (fp32 (toFp32 (.fin neg m e)).1).isFin = true) :
    (fmtFp32.encode .nearest false (.fin neg m e)).sat = false := by
  by_cases hm : m = 0
  · subst hm
    rfl
  · rcases Nat.lt_or_ge fmtFp32.maxCode (fmtFp32.magnitude .nearest m e) with hgt | hle
    · rw [fp32_toFp32, encode_fmtFp32_of_gt hm hgt, FloatFmt.decode_isFin_iff, FloatFmt.signPart_add_mod _ fmtFp32.infCode_lt_signBit] at h
      exact absurd h (by decide)
    · exact congrArg Conv.sat (fmtFp32.encode_of_le false neg hm hle)

/-! ### Sticky bits -/

/-- A truncated significand with a sticky bit below its last bit: clear when nothing was cut off. -/
def withSticky (Q : Nat) (whole : Prop) [Decidable whole] : Nat := 2 * Q + (if whole then 0 else 1)

theorem two_mul_le_withSticky (Q : Nat) (whole : Prop) [Decidable whole] : 2 * Q ≤ withSticky Q whole := Nat.le_add_right _ _

/-- A bound on a significand with its sticky bit bounds what was truncated, too. -/
theorem le_of_withSticky_le {Q b : Nat} {whole : Prop} [Decidable whole] (h : withSticky Q whole ≤ 2 * b) : Q < b ∨ Q = b ∧ whole := by
  unfold withSticky at h
  split at h
  next hw => exact (Nat.lt_or_eq_of_le (by omega)).imp_right fun heq => ⟨heq, hw⟩
  next => exact .inl (by omega)

theorem le_of_le_withSticky {Q b : Nat} {whole : Prop} [Decidable whole] (h : 2 * b ≤ withSticky Q whole) : b ≤ Q := by
  unfold withSticky at h
  split at h <;> omega

/-- Two bits beyond a significand and its sticky bit are enough. -/
theorem lt_quantum_of_le (f : FloatFmt) {m : Nat} (h : 2 ^ (f.fbits + 2) ≤ m) (E : Int) : E < f.quantum m (E - 1) := by
  have hm : m ≠ 0 := fun h0 => absurd (Nat.lt_of_lt_of_le (Nat.two_pow_pos _) h) (by omega)
  have hlog : f.fbits + 2 ≤ Nat.log2 m := (Nat.le_log2 hm).mpr h
  have hq := f.log2_sub_fbits_le_quantum m (E - 1)
  omega

/-- Comparing a value with a sticky bit to a multiple of the last bit is comparing naturals. -/
theorem natCast_mul_twoPow_pred_le_iff (k b : Nat) (E : Int) :
    ((k : Rat) * twoPow (E - 1) ≤ b * twoPow E ↔ k ≤ 2 * b) ∧ ((b : Rat) * twoPow E ≤ k * twoPow (E - 1) ↔ 2 * b ≤ k) := by
  have hb : (b : Rat) * twoPow E = ((2 * b : Nat) : Rat) * twoPow (E - 1) := by
    rw [twoPow_succ_pred E, Rat.natCast_mul, Rat.natCast_ofNat]
    grind
  have hcancel : ∀ i j : Nat, (i : Rat) * twoPow (E - 1) ≤ j * twoPow (E - 1) ↔ i ≤ j := fun i j =>
    ⟨fun h => Rat.natCast_le_natCast.mp (Rat.le_of_mul_le_mul_right h (twoPow_pos _)),
      fun h => Rat.mul_le_mul_of_nonneg_right (Rat.natCast_le_natCast.mpr h) (twoPow_nonneg _)⟩
  rw [hb]
  exact ⟨hcancel _ _, hcancel _ _⟩

/-- The FP32 result of a significand with a sticky bit and any other FP32 value have a multiple of the significand's last bit
between their midpoint and the truncated value. -/
theorem fp32_toFp32_midpoint {neg : Bool} {Q : Nat} {whole : Prop} [Decidable whole] {E : Int} {z : U32}
    (h : (fp32 (toFp32 (.fin neg (withSticky Q whole) (E - 1))).1).isFin = true)
    (hE : withSticky Q whole ≠ 0 → 2 ^ 25 ≤ withSticky Q whole) (hz : (fp32 z).isFin = true) :
    let X := signFactor neg * (fp32 (toFp32 (.fin neg (withSticky Q whole) (E - 1))).1).val
    let Z := signFactor neg * (fp32 z).val
    (X < Z → ∃ b : Nat, (Q < b ∨ Q = b ∧ whole) ∧ 2 * (b * twoPow E) ≤ X + Z) ∧
    (Z < X → ∃ b : Nat, b ≤ Q ∧ X + Z ≤ 2 * (b * twoPow E)) := by
  rw [fp32_toFp32]
  obtain ⟨hlt, hgt⟩ := fmtFp32.encode_nearest_midpoint (E := E) (encode_fmtFp32_not_sat h)
    (fun hm => lt_quantum_of_le fmtFp32 (hE hm) E) hz
  refine ⟨fun hXZ => ?_, fun hZX => ?_⟩
  · obtain ⟨b, hle, hmid⟩ := hlt hXZ
    exact ⟨b, le_of_withSticky_le ((natCast_mul_twoPow_pred_le_iff _ b E).1.mp hle), hmid⟩
  · obtain ⟨b, hle, hmid⟩ := hgt hZX
    exact ⟨b, le_of_le_withSticky ((natCast_mul_twoPow_pred_le_iff _ b E).2.mp hle), hmid⟩

/-! ### Quotients -/

/-- The shift that gives a quotient 40 bits, and the quotient so shifted. -/
def quotShift (den : Nat) : Nat := 40 + Nat.log2 den
def quotSig (num den : Nat) : Nat := num * 2 ^ quotShift den / den

theorem stickyQuot_eq (neg : Bool) (num den : Nat) (e : Int) : stickyQuot neg num den e =
    .fin neg (withSticky (quotSig num den) (num * 2 ^ quotShift den % den = 0)) (e - quotShift den - 1) := rfl

/-- What the quotient says of its own product with the divisor. -/
theorem mul_le_of_quotSig {num den b : Nat} (hden : 0 < den) :
    (quotSig num den < b ∨ quotSig num den = b ∧ num * 2 ^ quotShift den % den = 0 → num * 2 ^ quotShift den ≤ b * den) ∧
    (b ≤ quotSig num den → b * den ≤ num * 2 ^ quotShift den) := by
  constructor
  · rintro (hlt | ⟨heq, hwhole⟩)
    · exact Nat.le_of_lt ((Nat.div_lt_iff_lt_mul hden).mp hlt)
    · rw [← heq]
      exact Nat.le_of_eq (Nat.div_mul_cancel (Nat.dvd_of_mod_eq_zero hwhole)).symm
  · exact (Nat.le_div_iff_mul_le hden).mp

theorem quotSig_large {num den : Nat} (hnum : num ≠ 0) (hden : 0 < den) : 2 ^ 39 ≤ quotSig num den := by
  refine (Nat.le_div_iff_mul_le hden).mpr ?_
  calc 2 ^ 39 * den ≤ 2 ^ 39 * 2 ^ (Nat.log2 den + 1) := Nat.mul_le_mul_left _ (Nat.le_of_lt Nat.lt_log2_self)
    _ = 2 ^ quotShift den := by
      rw [← Nat.pow_add, quotShift]
      congr 1
      omega
    _ ≤ num * 2 ^ quotShift den := Nat.le_mul_of_pos_left _ (Nat.pos_of_ne_zero hnum)

theorem quotSticky_large {num den : Nat} (hden : 0 < den) (h : withSticky (quotSig num den) (num * 2 ^ quotShift den % den = 0) ≠ 0) :
    2 ^ 25 ≤ withSticky (quotSig num den) (num * 2 ^ quotShift den % den = 0) := by
  have hnum : num ≠ 0 := by
    rintro rfl
    refine h ?_
    rw [withSticky, quotSig, Nat.zero_mul, Nat.zero_div, Nat.zero_mod, if_pos rfl]
  have hlarge := quotSig_large hnum hden
  have hsticky := two_mul_le_withSticky (quotSig num den) (num * 2 ^ quotShift den % den = 0)
  omega

theorem fdiv_fin {x y : U32} {s t : Bool} {m n : Nat} {e f : Int} (hx : fp32 x = .fin s m e) (hy : fp32 y = .fin t n f) (hn : n ≠ 0) :
    (fdiv x y).1 = (toFp32 (stickyQuot (s ^^ t) m n (e - f))).1 := by
  simp only [fdiv, hx, hy, if_neg hn, fpOf]

/-- An exact quotient of values, by its magnitude in units of the last bit of the truncated one. -/
theorem val_fin_div (s t : Bool) (m : Nat) {n : Nat} (e f : Int) (hn : n ≠ 0) (sh : Nat) :
    signFactor (s ^^ t) * ((Num.fin s m e).val / (Num.fin t n f).val) * n = ((m * 2 ^ sh : Nat) : Rat) * twoPow (e - f - sh) := by
  have hy := Num.val_ne_zero (b := t) (e := f) hn
  have hquot := Rat.div_mul_cancel (a := (Num.fin s m e).val) hy
  generalize (Num.fin s m e).val / (Num.fin t n f).val = v at hquot
  have hf := Rat.ne_of_gt (twoPow_pos f)
  have he : twoPow e = ((2 ^ sh : Nat) : Rat) * twoPow (e - f - sh) * twoPow f := by
    rw [← twoPow_natCast, ← twoPow_add, ← twoPow_add]
    congr 1
    omega
  rw [Num.val_fin, Num.val_fin, he] at hquot
  have hs := signFactor_mul_self s
  have ht := signFactor_mul_self t
  rw [signFactor_xor, Rat.natCast_mul]
  generalize ((2 ^ sh : Nat) : Rat) = w at hquot ⊢
  grind

/-- A value known by its product with a natural number is bounded as that product is. -/
theorem le_of_mul_natCast_eq {v T : Rat} {n a b : Nat} (hn : 0 < n) (hT : 0 ≤ T) (hv : v * n = a * T) :
    (a ≤ b * n → v ≤ b * T) ∧ (b * n ≤ a → b * T ≤ v) := by
  have hn' : (0 : Rat) < n := Rat.natCast_pos.mpr hn
  constructor
  · intro hle
    have hnat := Rat.mul_le_mul_of_nonneg_right (Rat.natCast_le_natCast.mpr hle) hT
    rw [Rat.natCast_mul] at hnat
    exact Rat.le_of_mul_le_mul_right (c := (n : Rat)) (by grind) hn'
  · intro hle
    have hnat := Rat.mul_le_mul_of_nonneg_right (Rat.natCast_le_natCast.mpr hle) hT
    rw [Rat.natCast_mul] at hnat
    exact Rat.le_of_mul_le_mul_right (c := (n : Rat)) (by grind) hn'

section
variable {x y z : U32} {s t : Bool} {m n : Nat} {e f : Int}

/-- A finite quotient and another FP32 value have between their midpoint and the exact quotient a multiple of the truncated
quotient's last bit. -/
theorem fdiv_midpoint (hx : fp32 x = .fin s m e) (hy : fp32 y = .fin t n f) (hn : n ≠ 0) (hq : (fp32 (fdiv x y).1).isFin = true)
    (hz : (fp32 z).isFin = true) :
    let X := signFactor (s ^^ t) * (fp32 (fdiv x y).1).val
    let Z := signFactor (s ^^ t) * (fp32 z).val
    let unit := twoPow (e - f - quotShift n)
    (X < Z → ∃ b : Nat, m * 2 ^ quotShift n ≤ b * n ∧ 2 * (b * unit) ≤ X + Z) ∧
    (Z < X → ∃ b : Nat, b * n ≤ m * 2 ^ quotShift n ∧ X + Z ≤ 2 * (b * unit)) := by
  have hn0 := Nat.pos_of_ne_zero hn
  have hdiv := fdiv_fin hx hy hn
  rw [stickyQuot_eq] at hdiv
  rw [hdiv] at hq ⊢
  obtain ⟨hlt, hgt⟩ := fp32_toFp32_midpoint hq (quotSticky_large hn0) hz
  exact ⟨fun h => (hlt h).imp fun b hb => hb.imp_left (mul_le_of_quotSig hn0).1,
    fun h => (hgt h).imp fun b hb => hb.imp_left (mul_le_of_quotSig hn0).2⟩

/-- Quotients of FP32 are correctly rounded (08 R394). -/
theorem fdiv_nearest (hx : fp32 x = .fin s m e) (hy : fp32 y = .fin t n f) (hn : n ≠ 0) (hq : (fp32 (fdiv x y).1).isFin = true)
    (hz : (fp32 z).isFin = true) :
    ((fp32 (fdiv x y).1).val - (fp32 x).val / (fp32 y).val).abs ≤ ((fp32 z).val - (fp32 x).val / (fp32 y).val).abs := by
  obtain ⟨hlt, hgt⟩ := fdiv_midpoint hx hy hn hq hz
  have hv := val_fin_div s t m e f hn (quotShift n)
  rw [← hx, ← hy] at hv
  have hcancel := signFactor_mul_cancel (s ^^ t) ((fp32 x).val / (fp32 y).val)
  have hbound := fun b => le_of_mul_natCast_eq (b := b) (Nat.pos_of_ne_zero hn) (twoPow_nonneg _) hv
  generalize signFactor (s ^^ t) * ((fp32 x).val / (fp32 y).val) = v at hcancel hbound
  rw [← hcancel, abs_sub_signFactor_mul, abs_sub_signFactor_mul]
  refine abs_sub_le_of_midpoint (fun hXZ => ?_) (fun hZX => ?_)
  · obtain ⟨b, hb, hmid⟩ := hlt hXZ
    exact Rat.le_trans (Rat.mul_le_mul_of_nonneg_left ((hbound b).1 hb) (by decide)) hmid
  · obtain ⟨b, hb, hmid⟩ := hgt hZX
    exact Rat.le_trans hmid (Rat.mul_le_mul_of_nonneg_left ((hbound b).2 hb) (by decide))

end

/-! ### Square roots -/

/-- The loop of the integer square root keeps the root between its lower end and that end plus the bits still to come. -/
theorem isqrtFrom_spec (k r n : Nat) (hlow : r * r ≤ n) (hhigh : n < (r + 2 ^ k) * (r + 2 ^ k)) :
    isqrtFrom k r n * isqrtFrom k r n ≤ n ∧ n < (isqrtFrom k r n + 1) * (isqrtFrom k r n + 1) := by
  induction k generalizing r with
  | zero => exact ⟨hlow, hhigh⟩
  | succ k ih =>
    by_cases h : (r + 2 ^ k) * (r + 2 ^ k) ≤ n
    · rw [show isqrtFrom (k + 1) r n = isqrtFrom k (r + 2 ^ k) n from if_pos h]
      exact ih _ h (by rwa [Nat.add_assoc, ← Nat.two_mul, ← Nat.pow_succ'])
    · rw [show isqrtFrom (k + 1) r n = isqrtFrom k r n from if_neg h]
      exact ih _ hlow (Nat.not_le.mp h)

/-- The radicand scaled to an even exponent with 60 more bits, and half of that exponent. -/
def radicand (m : Nat) (e : Int) : Nat := (if decide (e % 2 ≠ 0) then 2 * m else m) * 2 ^ 60
def rootExp (e : Int) : Int := ((if decide (e % 2 ≠ 0) then e - 1 else e) - 60) / 2
def rootSig (m : Nat) (e : Int) : Nat := isqrtFrom 45 0 (radicand m e)
def rootSticky (m : Nat) (e : Int) : Nat := withSticky (rootSig m e) (rootSig m e * rootSig m e = radicand m e)

theorem fsqrt_fin {x : U32} {m : Nat} {e : Int} (hx : fp32 x = .fin false m e) (hm : m ≠ 0) :
    (fsqrt x).1 = (toFp32 (.fin false (rootSticky m e) (rootExp e - 1))).1 := by
  unfold fsqrt
  rw [hx]
  dsimp only
  rw [if_neg hm, if_neg Bool.false_ne_true]
  rfl

theorem fsqrt_zero {x : U32} {b : Bool} {e : Int} (hx : fp32 x = .fin b 0 e) : (fsqrt x).1 = x := by
  unfold fsqrt
  rw [hx]
  rfl

/-- A value by its radicand. -/
theorem radicand_mul (m : Nat) (e : Int) : (m : Rat) * twoPow e = radicand m e * (twoPow (rootExp e) * twoPow (rootExp e)) := by
  rw [← twoPow_add, radicand, rootExp]
  by_cases h : e % 2 = 0
  · rw [decide_eq_false (fun hne => hne h), if_neg Bool.false_ne_true, if_neg Bool.false_ne_true,
      twoPow_eq_of_le (show (e - 60) / 2 + (e - 60) / 2 ≤ e by omega), show (e - ((e - 60) / 2 + (e - 60) / 2)).toNat = 60 by omega,
      Rat.natCast_mul, Rat.mul_assoc]
  · rw [decide_eq_true h, if_pos rfl, if_pos rfl,
      twoPow_eq_of_le (show (e - 1 - 60) / 2 + (e - 1 - 60) / 2 ≤ e by omega),
      show (e - ((e - 1 - 60) / 2 + (e - 1 - 60) / 2)).toNat = 60 + 1 by omega, Nat.pow_succ, Rat.natCast_mul, Rat.natCast_mul, Rat.natCast_mul]
    grind

/-- What the bits of an FP32 value allow. -/
theorem fp32_fin_bounds {x : U32} {b : Bool} {m : Nat} {e : Int} (h : fp32 x = .fin b m e) : m < 2 ^ 24 ∧ e ≤ 105 := by
  have hfin : (fp32 x).isFin = true := h ▸ rfl
  have hfrac : x.toNat % fmtFp32.signBit % 2 ^ fmtFp32.fbits < 2 ^ 23 := Nat.mod_lt _ (by decide)
  have hexp : x.toNat % fmtFp32.signBit / 2 ^ fmtFp32.fbits < 256 := Nat.div_lt_of_lt_mul (Nat.mod_lt _ (by decide))
  rw [fp32, fmtFp32.decode_of_le (fmtFp32.decode_isFin_iff.mp hfin)] at h
  obtain ⟨hb, hf, hmin, -⟩ := fmtFp32_fields
  rw [hb, hf, hmin] at h
  rw [hf] at hfrac hexp
  split at h
  · obtain ⟨-, rfl, rfl⟩ := Num.fin.inj h
    omega
  · obtain ⟨-, rfl, rfl⟩ := Num.fin.inj h
    omega

theorem radicand_bounds {m : Nat} (e : Int) (hm : m ≠ 0) (hlt : m < 2 ^ 24) : 2 ^ 60 ≤ radicand m e ∧ radicand m e < 2 ^ 90 := by
  unfold radicand
  split <;> omega

theorem rootSig_spec {m : Nat} (e : Int) (hm : m ≠ 0) (hlt : m < 2 ^ 24) :
    rootSig m e * rootSig m e ≤ radicand m e ∧ radicand m e < (rootSig m e + 1) * (rootSig m e + 1) := by
  have hpow : (0 + 2 ^ 45) * (0 + 2 ^ 45) = 2 ^ 90 := by decide
  exact isqrtFrom_spec 45 0 _ (Nat.zero_le _) (hpow ▸ (radicand_bounds e hm hlt).2)

theorem rootSig_bounds {m : Nat} (e : Int) (hm : m ≠ 0) (hlt : m < 2 ^ 24) : 2 ^ 29 ≤ rootSig m e ∧ rootSig m e < 2 ^ 45 := by
  obtain ⟨hle, hgt⟩ := rootSig_spec e hm hlt
  obtain ⟨hlow, hhigh⟩ := radicand_bounds e hm hlt
  constructor
  · refine Nat.not_lt.mp fun hc => ?_
    have hsq : (rootSig m e + 1) * (rootSig m e + 1) ≤ 2 ^ 29 * 2 ^ 29 := Nat.mul_le_mul (by omega) (by omega)
    omega
  · refine Nat.not_le.mp fun hc => ?_
    have hsq : 2 ^ 45 * 2 ^ 45 ≤ rootSig m e * rootSig m e := Nat.mul_le_mul hc hc
    omega

theorem rootSticky_bounds {m : Nat} (e : Int) (hm : m ≠ 0) (hlt : m < 2 ^ 24) : 2 ^ 30 ≤ rootSticky m e ∧ rootSticky m e < 2 ^ 46 := by
  obtain ⟨hlow, hhigh⟩ := rootSig_bounds e hm hlt
  unfold rootSticky withSticky
  split <;> omega

/-- What the root says of its own square. -/
theorem sq_le_of_rootSig {m : Nat} (e : Int) (hm : m ≠ 0) (hlt : m < 2 ^ 24) (b : Nat) :
    (rootSig m e < b ∨ rootSig m e = b ∧ rootSig m e * rootSig m e = radicand m e → radicand m e ≤ b * b) ∧
    (b ≤ rootSig m e → b * b ≤ radicand m e) := by
  obtain ⟨hle, hgt⟩ := rootSig_spec e hm hlt
  constructor
  · rintro (hb | ⟨rfl, hwhole⟩)
    · exact Nat.le_trans (Nat.le_of_lt hgt) (Nat.mul_le_mul hb hb)
    · exact Nat.le_of_eq hwhole.symm
  · exact fun hb => Nat.le_trans (Nat.mul_le_mul hb hb) hle

/-- A conversion of a value well below the largest stays within the range of FP32. -/
theorem magnitude_fmtFp32_le {m : Nat} {e : Int} (hm : m ≠ 0) (h : (Nat.log2 m : Int) + e ≤ 126) :
    fmtFp32.magnitude .nearest m e ≤ fmtFp32.maxCode := by
  have hlower := (fmtFp32.lower_bounds m e hm).1
  have hround := fmtFp32.rounded_eq .nearest m e
  obtain ⟨-, hf, hmin, hmax⟩ := fmtFp32_fields
  have hbin : fmtFp32.binade m e ≤ 252 := by
    unfold FloatFmt.binade FloatFmt.quantum
    split <;> omega
  rw [FloatFmt.magnitude, hmax]
  rw [hf] at hlower ⊢
  omega

theorem fsqrt_isFin {x : U32} {m : Nat} {e : Int} (hx : fp32 x = .fin false m e) (hm : m ≠ 0) :
    (fp32 (toFp32 (.fin false (rootSticky m e) (rootExp e - 1))).1).isFin = true := by
  obtain ⟨hm24, he⟩ := fp32_fin_bounds hx
  obtain ⟨hlow, hhigh⟩ := rootSticky_bounds e hm hm24
  have hk0 : rootSticky m e ≠ 0 := by omega
  have hlog : Nat.log2 (rootSticky m e) < 46 := (Nat.log2_lt hk0).mpr hhigh
  have hexp : rootExp e ≤ 22 := by
    unfold rootExp
    split <;> omega
  rw [fp32_toFp32]
  exact (fmtFp32.val_decode_encode hk0 (magnitude_fmtFp32_le hk0 (by omega))).1

theorem mul_self_le {a b : Rat} (ha : 0 ≤ a) (h : a ≤ b) : a * a ≤ b * b :=
  Rat.le_trans (Rat.mul_le_mul_of_nonneg_left h ha) (Rat.mul_le_mul_of_nonneg_right h (Rat.le_trans ha h))

/-- A bound in units of the last bit of a root bounds its square, in units of the radicand. -/
theorem four_mul_sq_le {R b : Nat} {T w : Rat} (hT : 0 ≤ T) (hw : 0 ≤ w) :
    (R ≤ b * b → 2 * (b * T) ≤ w → 4 * (R * (T * T)) ≤ w * w) ∧ (b * b ≤ R → w ≤ 2 * (b * T) → w * w ≤ 4 * (R * (T * T))) := by
  have hbT : 0 ≤ (b : Rat) * T := Rat.mul_nonneg Rat.natCast_nonneg hT
  have hTT := Rat.mul_nonneg hT hT
  constructor
  · intro hR hmid
    have hsq := mul_self_le (by grind) hmid
    have hcast := Rat.mul_le_mul_of_nonneg_right (Rat.natCast_le_natCast.mpr hR) hTT
    rw [Rat.natCast_mul] at hcast
    grind
  · intro hR hmid
    have hsq := mul_self_le hw hmid
    have hcast := Rat.mul_le_mul_of_nonneg_right (Rat.natCast_le_natCast.mpr hR) hTT
    rw [Rat.natCast_mul] at hcast
    grind

section
variable {x z : U32} {m : Nat} {e : Int}

/-- A square root and another FP32 value have between their midpoint and the exact root a multiple of the truncated root's last
bit. -/
theorem fsqrt_midpoint (hx : fp32 x = .fin false m e) (hm : m ≠ 0) (hz : (fp32 z).isFin = true) :
    (fp32 (fsqrt x).1).isFin = true ∧
    ((fp32 (fsqrt x).1).val < (fp32 z).val →
      ∃ b : Nat, radicand m e ≤ b * b ∧ 2 * (b * twoPow (rootExp e)) ≤ (fp32 (fsqrt x).1).val + (fp32 z).val) ∧
    ((fp32 z).val < (fp32 (fsqrt x).1).val →
      ∃ b : Nat, b * b ≤ radicand m e ∧ (fp32 (fsqrt x).1).val + (fp32 z).val ≤ 2 * (b * twoPow (rootExp e))) := by
  have hm24 := (fp32_fin_bounds hx).1
  have hfin := fsqrt_isFin hx hm
  obtain ⟨hlt, hgt⟩ := fp32_toFp32_midpoint hfin (fun _ => Nat.le_trans (by decide) (rootSticky_bounds e hm hm24).1) hz
  simp only [signFactor_false, Rat.one_mul] at hlt hgt
  rw [fsqrt_fin hx hm]
  exact ⟨hfin, fun h => (hlt h).imp fun b hb => hb.imp_left (sq_le_of_rootSig e hm hm24 b).1,
    fun h => (hgt h).imp fun b hb => hb.imp_left (sq_le_of_rootSig e hm hm24 b).2⟩

/-- A root is not negative: the midpoint of a negative one to zero would be below the exact root. -/
theorem fsqrt_nonneg (hx : fp32 x = .fin false m e) (hm : m ≠ 0) : 0 ≤ (fp32 (fsqrt x).1).val := by
  have hzero : (fp32 0).isFin = true ∧ (fp32 0).val = 0 := ⟨by decide, Num.val_fin_zero false _⟩
  have hlt := (fsqrt_midpoint hx hm hzero.1).2.1
  rw [hzero.2] at hlt
  refine Rat.not_lt.mp fun hneg => ?_
  obtain ⟨b, -, hmid⟩ := hlt hneg
  have hbT := natCast_mul_twoPow_nonneg b (rootExp e)
  generalize (fp32 (fsqrt x).1).val = q at hneg hmid
  grind

/-- Square roots of FP32 are finite and correctly rounded (08 R394): the midpoint to another value lies on the far side of the
exact root. -/
theorem fsqrt_midpoint_sq (hx : (fp32 x).isFin = true) (hx0 : 0 ≤ (fp32 x).val) (hz : (fp32 z).isFin = true) (hz0 : 0 ≤ (fp32 z).val) :
    let w := (fp32 (fsqrt x).1).val + (fp32 z).val
    (fp32 (fsqrt x).1).isFin = true ∧ ((fp32 (fsqrt x).1).val < (fp32 z).val → 4 * (fp32 x).val ≤ w * w) ∧
    ((fp32 z).val < (fp32 (fsqrt x).1).val → w * w ≤ 4 * (fp32 x).val) := by
  obtain ⟨b, m, e, hxe⟩ := Num.isFin_iff.mp hx
  by_cases hm : m = 0
  · subst hm
    have hval : (fp32 x).val = 0 := by rw [hxe, Num.val_fin_zero]
    rw [fsqrt_zero hxe, hval, Rat.zero_add, Rat.mul_zero]
    exact ⟨hx, fun _ => Rat.mul_nonneg hz0 hz0, fun hneg => absurd hz0 (Rat.not_le.mpr hneg)⟩
  · obtain rfl : b = false := Num.sign_of_val_nonneg hm (hxe ▸ hx0)
    obtain ⟨hfin, hlt, hgt⟩ := fsqrt_midpoint hxe hm hz
    have hw := Rat.add_nonneg (fsqrt_nonneg hxe hm) hz0
    have hxv : (fp32 x).val = radicand m e * (twoPow (rootExp e) * twoPow (rootExp e)) := by
      rw [hxe, Num.val_fin, signFactor_false, Rat.one_mul, radicand_mul]
    have hsq := fun R b => four_mul_sq_le (R := R) (b := b) (twoPow_nonneg (rootExp e)) hw
    rw [hxv]
    refine ⟨hfin, fun hXZ => ?_, fun hZX => ?_⟩
    · obtain ⟨b, hb, hmid⟩ := hlt hXZ
      exact (hsq _ b).1 hb hmid
    · obtain ⟨b, hb, hmid⟩ := hgt hZX
      exact (hsq _ b).2 hb hmid

end

/-! ### O39 -/

/-- A comparison of distances between finite numbers, on their values. -/
theorem abs_sub_lt_eq_false {x y a b : Num} (hx : x.isFin = true) (hy : y.isFin = true) (ha : a.isFin = true) (hb : b.isFin = true) :
    (a.add b.neg).1.abs.lt (x.add y.neg).1.abs = false ↔ (x.val - y.val).abs ≤ (a.val - b.val).abs := by
  obtain ⟨hxf, hxv⟩ := Num.add_fin hx ((Num.isFin_neg y).trans hy)
  obtain ⟨haf, hav⟩ := Num.add_fin ha ((Num.isFin_neg b).trans hb)
  rw [Num.lt_eq_false_iff_val ((Num.isFin_abs _).trans haf) ((Num.isFin_abs _).trans hxf), Num.val_abs hxf, Num.val_abs haf, hxv, hav,
    Num.val_neg hy, Num.val_neg hb, Rat.sub_eq_add_neg, Rat.sub_eq_add_neg]

/-- The conversion of a finite value in range: one of its neighbours, toward zero the lower one, to nearest the nearest, and
exact exactly without NX (04 R213-R215, R218). -/
theorem FloatFmt.encode_is_neighbour (f : FloatFmt) {md : Round} {sat : Bool} {y : Num} {z : Nat} (hy : y.isFin = true)
    (hmd : ∀ r, md = .stochastic r → r < 65536) (hz : (f.decode z).isFin = true) (h : (f.encode md sat y).sat = false) :
    let c := f.encode md sat y
    let x := f.decode c.code
    x.isFin = true ∧ c.code < 2 * f.signBit ∧
    ¬ (y.lt (f.decode z) = true ∧ (f.decode z).lt x = true) ∧ ¬ (x.lt (f.decode z) = true ∧ (f.decode z).lt y = true) ∧
    (md = .zero → y.abs.lt x.abs = false) ∧
    (md = .nearest → ((f.decode z).add y.neg).1.abs.lt (x.add y.neg).1.abs = false) ∧
    (c.fl &&& flNX = 0 ↔ x.same y = true) := by
  obtain ⟨neg, m, e, rfl⟩ := Num.isFin_iff.mp hy
  obtain ⟨hx, hcode⟩ := f.encode_fits h
  have hbetween := f.encode_nothing_between h hz
  refine ⟨hx, hcode, ?_, ?_, ?_, ?_, ?_⟩
  · rw [Num.lt_iff_val hy hz, Num.lt_iff_val hz hx]
    exact hbetween.1
  · rw [Num.lt_iff_val hx hz, Num.lt_iff_val hz hy]
    exact hbetween.2
  · rintro rfl
    rw [Num.lt_eq_false_iff_val ((Num.isFin_abs _).trans hy) ((Num.isFin_abs _).trans hx), Num.val_abs hy, Num.val_abs hx]
    exact f.encode_zero_abs_le h
  · rintro rfl
    exact (abs_sub_lt_eq_false hx hy hz hy).mpr (f.encode_nearest h hz)
  · rw [Num.same_iff_val hx hy]
    exact f.encode_inexact_iff hmd h

/-- Multiplied by the divisor, the quotient leaves the smallest remainder (08 R394). -/
theorem fdiv_remainder_le {x y z : U32} (hx : (fp32 x).isFin = true) (hy : (fp32 y).isFin = true) (hy0 : (fp32 y).isZero = false)
    (hq : (fp32 (fdiv x y).1).isFin = true) (hz : (fp32 z).isFin = true) :
    ((fp32 x).add ((fp32 z).mul (fp32 y)).1.neg).1.abs.lt ((fp32 x).add ((fp32 (fdiv x y).1).mul (fp32 y)).1.neg).1.abs = false := by
  obtain ⟨s, m, e, hxe⟩ := Num.isFin_iff.mp hx
  obtain ⟨t, n, f, hye⟩ := Num.isFin_iff.mp hy
  have hn : n ≠ 0 := Num.ne_zero_of_not_isZero (hye ▸ hy0)
  have hne : (fp32 y).val ≠ 0 := by
    rw [hye]
    exact Num.val_ne_zero hn
  have hnear := fdiv_nearest hxe hye hn hq hz
  obtain ⟨hqf, hqv⟩ := Num.mul_fin hq hy
  obtain ⟨hzf, hzv⟩ := Num.mul_fin hz hy
  have hscale : ∀ w : Rat, ((fp32 x).val - w * (fp32 y).val).abs = (w - (fp32 x).val / (fp32 y).val).abs * (fp32 y).val.abs := fun w => by
    rw [← abs_mul_rat, ← Rat.abs_neg]
    congr 1
    grind
  rw [abs_sub_lt_eq_false hx hqf hx hzf, hqv, hzv, hscale, hscale]
  exact Rat.mul_le_mul_of_nonneg_right hnear Rat.abs_nonneg

/-- No FP32 value lies nearer the square root (08 R394), as the square of a midpoint tells. -/
theorem fsqrt_midpoints {x z : U32} (hx : (fp32 x).isFin = true) (hx0 : (fp32 x).lt Num.zero = false) (hz : (fp32 z).isFin = true)
    (hz0 : (fp32 z).isNeg = false) :
    let q := fp32 (fsqrt x).1
    let mid := (q.add (fp32 z)).1
    let four := ((Num.ofNat 4).mul (fp32 x)).1
    q.isFin = true ∧ (q.lt (fp32 z) = true → (mid.mul mid).1.lt four = false) ∧ ((fp32 z).lt q = true → four.lt (mid.mul mid).1 = false) := by
  have hxv : 0 ≤ (fp32 x).val := by
    have hle := (Num.lt_eq_false_iff_val hx Num.isFin_zero).mp hx0
    rwa [Num.zero, Num.val_fin_zero] at hle
  obtain ⟨hq, hbelow, habove⟩ := fsqrt_midpoint_sq hx hxv hz (Num.val_nonneg_of_not_isNeg hz0)
  obtain ⟨hmf, hmv⟩ := Num.add_fin hq hz
  obtain ⟨hsf, hsv⟩ := Num.mul_fin hmf hmf
  obtain ⟨h4f, h4v⟩ := Num.mul_fin (x := Num.ofNat 4) rfl hx
  have h4 : (Num.ofNat 4).val = 4 := by decide +kernel
  refine ⟨hq, ?_, ?_⟩
  · rw [Num.lt_iff_val hq hz, Num.lt_eq_false_iff_val hsf h4f, hsv, hmv, h4v, h4]
    exact hbelow
  · rw [Num.lt_iff_val hz hq, Num.lt_eq_false_iff_val h4f hsf, hsv, hmv, h4v, h4]
    exact habove

/-- Settles O39: a conversion by the grid of the format's codes, quotients and square roots by their sticky bits. -/
theorem roundingGivesTheNearest : Obligations.RoundingGivesTheNearest := by
  unfold Obligations.RoundingGivesTheNearest
  refine ⟨fun fmt f md sat y z _ hy hmd _ hz hsat => f.encode_is_neighbour hy hmd hz hsat, fun x y z hz => ⟨?_, ?_⟩⟩
  · rintro q rfl hx hy hy0 hq
    exact fdiv_remainder_le hx hy hy0 hq hz
  · rintro q rfl hx hx0 hz0
    exact fsqrt_midpoints hx hx0 hz hz0

end Sys2Proof.Machine

/-! SUPPORT. Reading a code and writing it back, for every kind of element (04 R188, R213-R217), and O38. -/

namespace Sys2Proof.Machine

/-! ### Floats -/

namespace FloatFmt
variable (f : FloatFmt) {md : Round} {sat neg : Bool} {m : Nat} {e : Int}

/-- A value that is a whole number of its units leaves nothing to round. -/
theorem unit_of_quantum_eq (hq : f.quantum m e = e) : f.unitNum m e = m ∧ f.unitDen m e = 1 := by
  rw [unitNum, unitDen, hq, Int.sub_self]
  exact ⟨Nat.mul_one m, rfl⟩

theorem above_of_quantum_eq (hq : f.quantum m e = e) : f.above m e = 0 := by
  rw [above, (f.unit_of_quantum_eq hq).2, Nat.mod_one]

theorem rounded_of_quantum_eq (hmd : ∀ r, md = .stochastic r → r < 65536) (hq : f.quantum m e = e) : f.rounded md m e = m := by
  obtain ⟨hnum, hden⟩ := f.unit_of_quantum_eq hq
  rw [rounded, f.above_of_quantum_eq hq, Round.up_zero_rem hmd (f.unitDen_pos m e), if_neg Bool.false_ne_true, lower, hnum, hden, Nat.div_one]

theorem encode_of_quantum_eq (hmd : ∀ r, md = .stochastic r → r < 65536) (hm : m ≠ 0) (hq : f.quantum m e = e)
    (hle : f.binade m e * 2 ^ f.fbits + m ≤ f.maxCode) :
    f.encode md sat (.fin neg m e) = ⟨f.signPart neg + (f.binade m e * 2 ^ f.fbits + m), 0, false⟩ := by
  have hmag : f.magnitude md m e = f.binade m e * 2 ^ f.fbits + m := by rw [magnitude, f.rounded_of_quantum_eq hmd hq]
  rw [f.encode_of_le sat neg hm (Nat.le_trans (Nat.le_of_eq hmag) hle), hmag, f.roundFlags_of_exact (f.above_of_quantum_eq hq)]

/-- A subnormal is a whole number of the smallest units. -/
theorem quantum_subnormal (h : m < 2 ^ f.fbits) (hm : m ≠ 0) : f.quantum m f.minExp = f.minExp := by
  have hlog : Nat.log2 m < f.fbits := (Nat.log2_lt hm).mpr h
  unfold quantum
  split <;> omega

/-- A significand with its hidden bit is a whole number of the units of its binade. -/
theorem quantum_normal {fr : Nat} (h : fr < 2 ^ f.fbits) (he : f.minExp ≤ e) : f.quantum (2 ^ f.fbits + fr) e = e := by
  have hpos : 0 < 2 ^ f.fbits := Nat.two_pow_pos _
  have hm : 2 ^ f.fbits + fr ≠ 0 := by omega
  have hlow : f.fbits ≤ Nat.log2 (2 ^ f.fbits + fr) := (Nat.le_log2 hm).mpr (Nat.le_add_right _ _)
  have hhigh : Nat.log2 (2 ^ f.fbits + fr) < f.fbits + 1 := (Nat.log2_lt hm).mpr (by rw [Nat.pow_succ]; omega)
  unfold quantum
  split <;> omega

/-- A code below the first normal is written back as it was read. -/
theorem encode_subnormal (hmd : ∀ r, md = .stochastic r → r < 65536) (h : m < 2 ^ f.fbits) (hle : m ≤ f.maxCode) :
    f.encode md sat (.fin neg m f.minExp) = ⟨f.signPart neg + m, 0, false⟩ := by
  by_cases hm : m = 0
  · subst hm
    exact f.encode_zero md sat neg _
  · have hq := f.quantum_subnormal h hm
    have hbin : f.binade m f.minExp * 2 ^ f.fbits + m = m := by
      rw [binade, hq, Int.sub_self]
      exact (congrArg (· + m) (Nat.zero_mul _)).trans (Nat.zero_add m)
    rw [f.encode_of_quantum_eq hmd hm hq (by rwa [hbin]), hbin]

/-- A normal code is written back as it was read. -/
theorem encode_normal (hmd : ∀ r, md = .stochastic r → r < 65536) {k fr : Nat} (hk : k ≠ 0) (h : fr < 2 ^ f.fbits)
    (hle : k * 2 ^ f.fbits + fr ≤ f.maxCode) :
    f.encode md sat (.fin neg (2 ^ f.fbits + fr) ((k : Int) - f.bias - f.fbits)) = ⟨f.signPart neg + (k * 2 ^ f.fbits + fr), 0, false⟩ := by
  have hpos : 0 < 2 ^ f.fbits := Nat.two_pow_pos _
  have hq := f.quantum_normal (e := (k : Int) - f.bias - f.fbits) h (by unfold minExp; omega)
  have hbin : f.binade (2 ^ f.fbits + fr) ((k : Int) - f.bias - f.fbits) = k - 1 := by
    rw [binade, hq, minExp]
    omega
  have hmag : (k - 1) * 2 ^ f.fbits + (2 ^ f.fbits + fr) = k * 2 ^ f.fbits + fr := by
    rw [← Nat.add_assoc, ← Nat.succ_mul, Nat.succ_eq_add_one, Nat.sub_add_cancel (Nat.one_le_iff_ne_zero.mpr hk)]
  rw [f.encode_of_quantum_eq hmd (by omega) hq (by rwa [hbin, hmag]), hbin, hmag]

/-- A finite code is written back as it was read. -/
theorem encode_decode_of_le (hmd : ∀ r, md = .stochastic r → r < 65536) {code : Nat} (hcode : code < 2 * f.signBit)
    (h : code % f.signBit ≤ f.maxCode) : f.encode md sat (f.decode code) = ⟨code, 0, false⟩ := by
  have hfrac : code % f.signBit % 2 ^ f.fbits < 2 ^ f.fbits := Nat.mod_lt _ (Nat.two_pow_pos _)
  have hdiv : code % f.signBit / 2 ^ f.fbits * 2 ^ f.fbits + code % f.signBit % 2 ^ f.fbits = code % f.signBit := by
    rw [Nat.mul_comm]
    exact Nat.div_add_mod _ _
  have hsplit := f.signPart_signOf_add_mod hcode
  rw [f.decode_of_le h]
  split
  next he =>
    rw [he, Nat.zero_mul, Nat.zero_add] at hdiv
    rw [f.encode_subnormal hmd hfrac (Nat.le_trans (Nat.le_of_eq hdiv) h), hdiv, hsplit]
  next he => rw [f.encode_normal hmd he hfrac (Nat.le_trans (Nat.le_of_eq hdiv) h), hdiv, hsplit]

/-- The only magnitude beyond the finite ones without a fraction is infinity's. -/
theorem eq_infCode_of_gt {mag : Nat} (hs : f.specials = .ieee) (hgt : f.maxCode < mag) (hlt : mag < f.signBit) (hfr : mag % 2 ^ f.fbits = 0) :
    mag = f.infCode := by
  have hmag : mag / 2 ^ f.fbits * 2 ^ f.fbits = mag := Nat.div_mul_cancel (Nat.dvd_of_mod_eq_zero hfr)
  have hupper : mag / 2 ^ f.fbits < 2 ^ f.ebits := Nat.div_lt_of_lt_mul (by rwa [Nat.mul_comm, ← signBit_eq])
  have hmax : f.maxCode = f.infCode - 1 := by
    unfold maxCode
    rw [hs]
    rfl
  have hlower : f.infCode ≤ mag := by omega
  refine Nat.le_antisymm ?_ hlower
  rw [← hmag, infCode]
  exact Nat.mul_le_mul_right _ (Nat.le_sub_one_of_lt hupper)

theorem encode_inf (hs : f.specials = .ieee) (md : Round) (sat neg : Bool) :
    f.encode md sat (.inf neg) = ⟨f.signPart neg + f.infCode, flNF, false⟩ := by
  simp only [encode, hs, signPart]

/-- An infinity is written back as it was read, with NF_IN. -/
theorem encode_decode_of_gt {code : Nat} (hcode : code < 2 * f.signBit) (h : f.maxCode < code % f.signBit) (hnan : f.decode code ≠ .nan) :
    f.encode md sat (f.decode code) = ⟨code, flNF, false⟩ := by
  have hdec := f.decode_of_gt h
  split at hdec
  next hinf =>
    have hmag := f.eq_infCode_of_gt hinf.1 h (Nat.mod_lt _ f.signBit_pos) hinf.2
    have hsplit := f.signPart_signOf_add_mod hcode
    rw [hmag] at hsplit
    rw [hdec, f.encode_inf hinf.1, hsplit]
  next => exact absurd hdec hnan

theorem encode_decode (hmd : ∀ r, md = .stochastic r → r < 65536) {code : Nat} (hcode : code < 2 * f.signBit) (hnan : f.decode code ≠ .nan) :
    f.encode md sat (f.decode code) = ⟨code, (f.decode code).nf, false⟩ := by
  rcases Nat.lt_or_ge f.maxCode (code % f.signBit) with h | h
  · have hnf : (f.decode code).nf = flNF := if_neg fun hfin => Nat.not_le.mpr h (f.decode_isFin_iff.mp hfin)
    rw [f.encode_decode_of_gt hcode h hnan, hnf]
  · have hnf : (f.decode code).nf = 0 := if_pos (f.decode_isFin_iff.mpr h)
    rw [f.encode_decode_of_le hmd hcode h, hnf]

end FloatFmt

/-! ### LG4, the integers and TRI -/

section
variable {md : Round} (hmd : ∀ r, md = .stochastic r → r < 65536)
include hmd

/-- The powers of two that LG4 holds are exact (04 Table 4.1). -/
theorem lg4Encode_pow {e : Int} (hlow : -3 ≤ e) (hhigh : e ≤ 3) (neg : Bool) :
    lg4Encode md (.fin neg 1 e) = ⟨(if neg then 8 else 0) + (e + 4).toNat, 0, false⟩ := by
  have hup : ∀ odd, md.up 0 1 odd = false := Round.up_zero_rem hmd Nat.one_pos
  have hlog : Nat.log2 1 = 0 := by decide
  have hsmall : decide (((0 : Nat) : Int) + e < -3) = false := decide_eq_false (by omega)
  have hmax : ¬ 7 < (((0 : Nat) : Int) + e + 4).toNat := by omega
  have hexp : (((0 : Nat) : Int) + e + 4).toNat = (e + 4).toNat := by omega
  unfold lg4Encode
  dsimp only
  rw [if_neg Nat.one_ne_zero, hlog, hsmall, if_neg Bool.false_ne_true, if_neg Bool.false_ne_true, if_neg Bool.false_ne_true,
    show 1 - 2 ^ 0 = 0 from rfl, show 2 ^ 0 = 1 from rfl, hup, if_neg Bool.false_ne_true, if_neg hmax, hexp]
  rfl

theorem lg4Encode_lg4Decode {code : Nat} (h : code < 16) : lg4Encode md (lg4Decode code) = ⟨code, 0, false⟩ := by
  have hsign : (if decide (code / 8 % 2 = 1) then 8 else 0) + code % 8 = code := by
    by_cases h8 : code / 8 % 2 = 1
    · rw [decide_eq_true h8, if_pos rfl]
      omega
    · rw [decide_eq_false h8, if_neg Bool.false_ne_true]
      omega
  unfold lg4Decode
  dsimp only
  split
  next hc =>
    rw [hc, Nat.add_zero] at hsign
    exact congrArg (Conv.mk · 0 false) hsign
  next hc =>
    rw [lg4Encode_pow hmd (by omega) (by omega), show ((code % 8 : Nat) : Int) - 4 + 4 = (code % 8 : Nat) by omega, Int.toNat_natCast, hsign]

/-- A whole number within the bounds is its own rounding. -/
theorem intRound_whole {maxNeg maxPos n : Nat} {neg : Bool} (h : n ≤ if neg then maxNeg else maxPos) :
    intRound md maxNeg maxPos (.fin neg n 0) = ((if neg then -(n : Int) else n), 0, false) := by
  have hup : ∀ odd, md.up 0 1 odd = false := Round.up_zero_rem hmd Nat.one_pos
  have hnum : n * 2 ^ (0 : Int).toNat = n := Nat.mul_one n
  have hden : 2 ^ (-(0 : Int)).toNat = 1 := rfl
  unfold intRound
  dsimp only
  rw [hnum, hden, Nat.mod_one, Nat.div_one, hup, if_neg Bool.false_ne_true, decide_eq_false (Nat.not_lt.mpr h), if_neg (Nat.not_lt.mpr h),
    if_neg (Nat.not_lt.mpr h)]
  rfl

theorem intEncode_whole {w n : Nat} {neg : Bool} (h : n ≤ if neg then 2 ^ (w - 1) else 2 ^ (w - 1) - 1) :
    intEncode w md (.fin neg n 0) = ⟨intCode w (if neg then -(n : Int) else n), 0, false⟩ :=
  congrArg (fun r : Int × Fl × Bool => (⟨intCode w r.1, r.2.1, r.2.2⟩ : Conv)) (intRound_whole hmd h)

theorem triEncode_whole {n : Nat} {neg : Bool} (h : n ≤ if neg then 1 else 1) :
    triEncode md (.fin neg n 0) = ⟨((if neg then -(n : Int) else n) + 1).toNat, 0, false⟩ :=
  congrArg (fun r : Int × Fl × Bool => (⟨(r.1 + 1).toNat, r.2.1, r.2.2⟩ : Conv)) (intRound_whole hmd h)

/-- Two's complement codes are written back as they were read. -/
theorem intEncode_intDecode {w code : Nat} (hw : 0 < w) (h : code < 2 ^ w) : intEncode w md (intDecode w code) = ⟨code, 0, false⟩ := by
  have hhalf : 2 ^ w = 2 * 2 ^ (w - 1) := by rw [← Nat.pow_succ', Nat.succ_eq_add_one, Nat.sub_add_cancel hw]
  have hcode : ∀ i : Int, 0 ≤ i → i < ((2 ^ w : Nat) : Int) → intCode w i = i.toNat := fun i hi hlt => by
    rw [intCode, Int.emod_eq_of_lt hi hlt]
  rw [intDecode, Nat.mod_eq_of_lt h]
  split
  next hneg =>
    have hbound : 2 ^ w - code ≤ if true = true then 2 ^ (w - 1) else 2 ^ (w - 1) - 1 := by
      rw [if_pos rfl]
      omega
    have hsub : intCode w (-((2 ^ w - code : Nat) : Int)) = code := by
      rw [intCode, show -((2 ^ w - code : Nat) : Int) = (code : Int) - ((2 ^ w : Nat) : Int) by omega, Int.sub_emod_right, ← intCode,
        hcode _ (by omega) (by omega), Int.toNat_natCast]
    rw [intEncode_whole hmd hbound, if_pos rfl, hsub]
  next hpos =>
    have hbound : code ≤ if false = true then 2 ^ (w - 1) else 2 ^ (w - 1) - 1 := by
      rw [if_neg Bool.false_ne_true]
      omega
    rw [intEncode_whole hmd hbound, if_neg Bool.false_ne_true, hcode _ (by omega) (by omega), Int.toNat_natCast]

theorem triEncode_trit {code : Nat} (h : code < 3) : triEncode md (Num.ofInt ((code : Int) - 1)) = ⟨code, 0, false⟩ := by
  have hbound : ((code : Int) - 1).natAbs ≤ if decide ((code : Int) - 1 < 0) = true then 1 else 1 := by
    rw [ite_self]
    omega
  have hvalue : (if decide ((code : Int) - 1 < 0) = true then -(((code : Int) - 1).natAbs : Int) else ((code : Int) - 1).natAbs)
      = (code : Int) - 1 := by
    by_cases hneg : (code : Int) - 1 < 0
    · rw [decide_eq_true hneg, if_pos rfl]
      omega
    · rw [decide_eq_false hneg, if_neg Bool.false_ne_true]
      omega
  rw [Num.ofInt, triEncode_whole hmd hbound, hvalue, Int.sub_add_cancel, Int.toNat_natCast]

end

/-- Settles O38: each kind of element by its own lemma. -/
theorem codesRoundTrip : Obligations.CodesRoundTrip := by
  unfold Obligations.CodesRoundTrip
  refine fun md sat code hmd => ⟨fun fmt _ f hf hcode hnan => ?_,
    fun h => ⟨lg4Encode_lg4Decode hmd h, intEncode_intDecode hmd (w := 4) (by decide) h⟩,
    intEncode_intDecode hmd (w := 8) (by decide), intEncode_intDecode hmd (w := 2) (by decide), triEncode_trit hmd⟩
  have hdec : decodeElem fmt code = f.decode code := by simp only [decodeElem, hf]
  have henc : ∀ y, encodeElem fmt md sat y = f.encode md sat y := fun y => by simp only [encodeElem, hf]
  rw [hdec] at hnan
  rw [henc, hdec]
  exact f.encode_decode hmd hcode hnan

end Sys2Proof.Machine

/-! SUPPORT. The chunks of a command: runs of positions (06 R300, R304, R326), the cut of a block hop at its destinations
(06 R299), and O26. -/

namespace Sys2Proof.Machine

/-! ### Runs of positions -/

theorem lt_ceilDiv_iff {n p i : Nat} (hp : 0 < p) : i < ceilDiv n p ↔ p * i < n := by
  rw [ceilDiv, Nat.lt_iff_add_one_le, Nat.le_div_iff_mul_le hp, Nat.succ_mul, Nat.mul_comm]
  omega

/-- The edges or positions of a chunk. -/
def Chunk.span (k : Chunk) : List Nat := List.range' k.first k.count

/-- The first m runs of p, cut off at n, are the positions below both p * m and n. -/
theorem flatMap_runs (lo n p : Nat) : ∀ m : Nat,
    ((List.range m).flatMap fun i => List.range' (lo + p * i) (min p (n - p * i))) = List.range' lo (min (p * m) n)
  | 0 => by simp
  | m + 1 => by
    have hnext : List.range' (lo + p * m) (min p (n - p * m)) = List.range' (lo + min (p * m) n) (min p (n - p * m)) := by
      by_cases h : p * m ≤ n
      · rw [Nat.min_eq_left h]
      · rw [Nat.sub_eq_zero_of_le (Nat.le_of_not_le h), Nat.min_zero, List.range'_zero, List.range'_zero]
    have hlen : min (p * m) n + min p (n - p * m) = min (p * (m + 1)) n := by
      rw [Nat.mul_succ]
      omega
    rw [List.range_succ, List.flatMap_append, flatMap_runs lo n p m, List.flatMap_singleton, hnext, List.range'_append_1, hlen]

theorem flatMap_runs_ceilDiv (lo n : Nat) {p : Nat} (hp : 0 < p) :
    ((List.range (ceilDiv n p)).flatMap fun i => List.range' (lo + p * i) (min p (n - p * i))) = List.range' lo n := by
  have hall : n ≤ p * ceilDiv n p := Nat.not_lt.mp fun h => Nat.lt_irrefl _ ((lt_ceilDiv_iff hp).mpr h)
  rw [flatMap_runs, Nat.min_eq_right hall]

theorem flatMap_span_rangeChunks (n : Nat) {p : Nat} (hp : 0 < p) : (rangeChunks n p).flatMap Chunk.span = List.range n := by
  rw [List.range_eq_range', ← flatMap_runs_ceilDiv 0 n hp, rangeChunks, List.flatMap_map]
  simp only [Chunk.span, newChunk, Nat.zero_add]

theorem count_of_mem_rangeChunks {n p : Nat} (hp : 0 < p) {k : Chunk} (hk : k ∈ rangeChunks n p) : 1 ≤ k.count ∧ k.count ≤ p := by
  obtain ⟨i, hi, rfl⟩ := List.mem_map.mp hk
  have hlt : p * i < n := (lt_ceilDiv_iff hp).mp (List.mem_range.mp hi)
  exact ⟨Nat.le_min.mpr ⟨hp, Nat.sub_pos_of_lt hlt⟩, Nat.min_le_left _ _⟩

/-! ### Chunks of a block hop -/

section
variable (a : Nat → Nat)

/-- A chunk of a block hop whose destination x has the edges a x to a (x + 1) − 1, of the destinations below n (06 R299): whole
destinations of up to 256 edges together, or one piece of 256 of a destination that has more. -/
def HopChunk (n : Nat) (k : Chunk) : Prop :=
  k.count ≤ 256 ∧ 1 ≤ k.destCount ∧ k.destFirst + k.destCount ≤ n ∧
    (k.split = false → k.first = a k.destFirst ∧ k.first + k.count = a (k.destFirst + k.destCount)) ∧
    (k.split = true → k.destCount = 1 ∧ 256 < a (k.destFirst + 1) - a k.destFirst ∧
      k.first = a k.destFirst + 256 * k.splitSeq ∧ k.splitSeq < k.splitCount)

/-- The chunks, numbered from 0, hold the edges from a 0 to e − 1 in order, of destinations below n. -/
structure HopCut (n e : Nat) (ks : List Chunk) : Prop where
  start_le : a 0 ≤ e
  span : ks.flatMap Chunk.span = List.range' (a 0) (e - a 0)
  nums : ks.map (fun k => k.num) = List.range ks.length
  chunk : ∀ k ∈ ks, HopChunk a n k

variable {a}

theorem HopChunk.mono {n m : Nat} {k : Chunk} (h : HopChunk a n k) (hnm : n ≤ m) : HopChunk a m k := by
  obtain ⟨hcount, hdest, hle, hparts⟩ := h
  exact ⟨hcount, hdest, Nat.le_trans hle hnm, hparts⟩

theorem HopCut.mono {n m e : Nat} {ks : List Chunk} (h : HopCut a n e ks) (hnm : n ≤ m) : HopCut a m e ks :=
  { h with chunk := fun k hk => (h.chunk k hk).mono hnm }

theorem HopCut.append {n m e c : Nat} {ks new : List Chunk} (h : HopCut a n e ks) (hnm : n ≤ m)
    (hspan : new.flatMap Chunk.span = List.range' e c) (hnums : new.map (fun k => k.num) = List.range' ks.length new.length)
    (hchunk : ∀ k ∈ new, HopChunk a m k) : HopCut a m (e + c) (ks ++ new) where
  start_le := Nat.le_trans h.start_le (Nat.le_add_right e c)
  span := by
    have hlen : e - a 0 + c = e + c - a 0 := (Nat.sub_add_comm h.start_le).symm
    rw [List.flatMap_append, h.span, hspan, ← hlen, ← List.range'_append_1, Nat.add_sub_cancel' h.start_le]
  nums := by
    rw [List.map_append, h.nums, hnums, List.length_append, List.range_eq_range', List.range_eq_range', ← List.range'_append_1, Nat.zero_add]
  chunk k hk := (List.mem_append.mp hk).elim (fun hold => (h.chunk k hold).mono hnm) (hchunk k)

/-! ### The cut -/

variable (a) in
/-- The cut before destination x: what is open begins at the edges of its first destination and has at most 256 edges. -/
structure CutBefore (x : Nat) (k : Cut) : Prop where
  closed : HopCut a x k.openEdge k.chunks
  openDest_le : k.openDest ≤ x
  openEdge_eq : k.openEdge = a k.openDest
  used_eq : k.openEdge + k.used = a x
  used_le : k.used ≤ 256

theorem CutBefore.hopCut_closeCut {x : Nat} {k : Cut} (h : CutBefore a x k) : HopCut a x (a x) (closeCut x k).chunks := by
  unfold closeCut
  split
  next hx =>
    rw [hx, ← h.openEdge_eq]
    exact hx ▸ h.closed
  next hx =>
    have hlt : k.openDest < x := Nat.lt_of_le_of_ne h.openDest_le (Ne.symm hx)
    rw [← h.used_eq]
    refine h.closed.append (Nat.le_refl x) (by simp [Chunk.span, newChunk]) (by simp [newChunk]) ?_
    simp only [List.mem_singleton, forall_eq]
    refine ⟨h.used_le, Nat.sub_pos_of_lt hlt, Nat.le_of_eq (Nat.add_sub_cancel' h.openDest_le), fun _ => ⟨h.openEdge_eq, ?_⟩, nofun⟩
    dsimp only [newChunk]
    rw [h.used_eq, Nat.add_sub_cancel' h.openDest_le]

/-- Piece i of destination x, whose d edges begin at lo; the first piece has the number num (06 R299). -/
def splitPiece (num x lo d i : Nat) : Chunk :=
  { newChunk (num + i) (lo + 256 * i) (Nat.min 256 (d - 256 * i)) with
    destFirst := x, destCount := 1, split := true, splitSeq := i, splitCount := ceilDiv d 256 }

/-- The pieces of destination x (06 R299). -/
def splitPieces (num x lo d : Nat) : List Chunk := (List.range (ceilDiv d 256)).map (splitPiece num x lo d)

theorem flatMap_span_splitPieces (num x lo d : Nat) : (splitPieces num x lo d).flatMap Chunk.span = List.range' lo d := by
  rw [splitPieces, List.flatMap_map]
  exact flatMap_runs_ceilDiv lo d (by decide)

theorem nums_splitPieces (num x lo d : Nat) :
    (splitPieces num x lo d).map (fun k => k.num) = List.range' num (splitPieces num x lo d).length := by
  rw [splitPieces, List.map_map, List.length_map, List.length_range, List.range'_eq_map_range]
  rfl

theorem hopChunk_of_mem_splitPieces {num x : Nat} (hlarge : 256 < a (x + 1) - a x) {k : Chunk}
    (hk : k ∈ splitPieces num x (a x) (a (x + 1) - a x)) : HopChunk a (x + 1) k := by
  obtain ⟨i, hi, rfl⟩ := List.mem_map.mp hk
  exact ⟨Nat.min_le_left _ _, Nat.le_refl 1, Nat.le_refl _, nofun, fun _ => ⟨rfl, hlarge, rfl, List.mem_range.mp hi⟩⟩

theorem cutDest_large {lo hi : Nat} (k : Cut) (x : Nat) (h : 256 < hi - lo) : cutDest k x lo hi =
    { chunks := (closeCut x k).chunks ++ splitPieces (closeCut x k).chunks.length x lo (hi - lo),
      openDest := x + 1, openEdge := hi, used := 0 } :=
  if_pos h

theorem cutDest_joins {lo hi : Nat} {k : Cut} (x : Nat) (h : k.used + (hi - lo) ≤ 256) :
    cutDest k x lo hi = { k with used := k.used + (hi - lo) } := by
  rw [cutDest, if_neg (by omega), if_neg (Nat.not_lt.mpr h)]

theorem cutDest_opens {lo hi : Nat} {k : Cut} (x : Nat) (h : hi - lo ≤ 256) (hfull : 256 < k.used + (hi - lo)) :
    cutDest k x lo hi = { chunks := (closeCut x k).chunks, openDest := x, openEdge := lo, used := hi - lo } := by
  rw [cutDest, if_neg (Nat.not_lt.mpr h), if_pos hfull]
  simp only [Nat.zero_add]

theorem CutBefore.cutBefore_cutDest {x : Nat} {k : Cut} (h : CutBefore a x k) (hmono : a x ≤ a (x + 1)) :
    CutBefore a (x + 1) (cutDest k x (a x) (a (x + 1))) := by
  have hedges : a x + (a (x + 1) - a x) = a (x + 1) := Nat.add_sub_cancel' hmono
  by_cases hlarge : 256 < a (x + 1) - a x
  · rw [cutDest_large k x hlarge]
    have hpieces := h.hopCut_closeCut.append (Nat.le_succ x) (flatMap_span_splitPieces _ x _ _) (nums_splitPieces _ x _ _)
      fun _ => hopChunk_of_mem_splitPieces hlarge
    rw [hedges] at hpieces
    exact ⟨hpieces, Nat.le_refl _, rfl, Nat.add_zero _, Nat.zero_le _⟩
  by_cases hfull : 256 < k.used + (a (x + 1) - a x)
  · rw [cutDest_opens x (Nat.not_lt.mp hlarge) hfull]
    exact ⟨h.hopCut_closeCut.mono (Nat.le_succ x), Nat.le_succ x, rfl, hedges, Nat.not_lt.mp hlarge⟩
  · rw [cutDest_joins x (Nat.not_lt.mp hfull)]
    refine ⟨h.closed.mono (Nat.le_succ x), Nat.le_succ_of_le h.openDest_le, h.openEdge_eq, ?_, Nat.not_lt.mp hfull⟩
    rw [← Nat.add_assoc, h.used_eq, hedges]

variable (a) in
/-- The cut of the destinations below n. -/
def cutBelow (n : Nat) : Cut :=
  (List.range n).foldl (fun k x => cutDest k x (a x) (a (x + 1))) { chunks := [], openDest := 0, openEdge := a 0, used := 0 }

theorem cutBefore_cutBelow : ∀ n : Nat, (∀ x < n, a x ≤ a (x + 1)) → CutBefore a n (cutBelow a n)
  | 0, _ => ⟨⟨Nat.le_refl _, by simp [cutBelow], rfl, nofun⟩, Nat.le_refl 0, rfl, rfl, Nat.zero_le _⟩
  | n + 1, hmono => by
    have hprev := cutBefore_cutBelow n fun x hx => hmono x (Nat.lt_succ_of_lt hx)
    rw [cutBelow, List.range_succ, List.foldl_append]
    exact hprev.cutBefore_cutDest (hmono n (Nat.lt_succ_self n))

end

/-! ### The chunks of a list of offsets -/

theorem nthD_eq_getElem {α : Type} (d : α) : ∀ {l : List α} {i : Nat} (h : i < l.length), nthD d l i = l[i]
  | _ :: _, 0, _ => rfl
  | _ :: _, _ + 1, h => nthD_eq_getElem d (Nat.lt_of_succ_lt_succ h)

theorem cutChunks_eq_closeCut (ptr : List Nat) :
    cutChunks ptr = (closeCut (ptr.length - 1) (cutBelow (nthD 0 ptr) (ptr.length - 1))).chunks := by
  have hpairs : (List.range (ptr.length - 1)).zip (ptr.zip (ptr.drop 1)) =
      (List.range (ptr.length - 1)).map fun x => (x, nthD 0 ptr x, nthD 0 ptr (x + 1)) := by
    refine List.ext_getElem (by simp) fun x hx hx' => ?_
    have hlt : x + 1 < ptr.length := by simp at hx'; omega
    simp [nthD_eq_getElem 0 hlt, nthD_eq_getElem 0 (Nat.lt_of_succ_lt hlt)]
  rw [cutChunks, hpairs, List.foldl_map]
  rfl

theorem hopCut_cutChunks {ptr : List Nat} (h : ptr.Pairwise (· ≤ ·)) :
    HopCut (nthD 0 ptr) (ptr.length - 1) (nthD 0 ptr (ptr.length - 1)) (cutChunks ptr) := by
  have hmono : ∀ x < ptr.length - 1, nthD 0 ptr x ≤ nthD 0 ptr (x + 1) := fun x hx => by
    have hlt : x + 1 < ptr.length := by omega
    rw [nthD_eq_getElem 0 hlt, nthD_eq_getElem 0 (Nat.lt_of_succ_lt hlt)]
    exact List.pairwise_iff_getElem.mp h x (x + 1) _ hlt (Nat.lt_succ_self x)
  rw [cutChunks_eq_closeCut]
  exact (cutBefore_cutBelow _ hmono).hopCut_closeCut

/-- Settles O26: the cut keeps what its chunks hold at every destination, and the runs of a stream end where the next begin. -/
theorem chunksCoverEveryEdgeOnce : Obligations.ChunksCoverEveryEdgeOnce := by
  unfold Obligations.ChunksCoverEveryEdgeOnce
  refine ⟨fun ptr _ hsorted => ?_, fun n p hp => ⟨flatMap_span_rangeChunks n hp, fun _ => count_of_mem_rangeChunks hp⟩⟩
  have hcut := hopCut_cutChunks hsorted
  exact ⟨hcut.span, hcut.nums, hcut.chunk⟩

end Sys2Proof.Machine

/-! SUPPORT. How the Splint commands start, how a Splint claims and begins a chunk and how a finished chunk applies (06
R292-R306, R314-R328; 03 R132), and O27. -/

namespace Sys2Proof.Machine

/-! ### The outcome of an engine row -/

section
variable {s t : State} {inst : EngineInst} {sel : BitVec 512 → Bool} {r : Running} {c : Context}
  {f : State → Context → Running → Except CmdErr State}

theorem withRunning_ok (h : Runs s inst sel r c) (hf : f s c r = .ok t) : withRunning s inst sel f = armWaits t := by
  rw [withRunning_runs f h, hf]

theorem withRunning_error {e : CmdErr} (h : Runs s inst sel r c) (hf : f s c r = .error e) :
    withRunning s inst sel f = faultCommand s r.ref e := by
  rw [withRunning_runs f h, hf]

end

/-! ### Starting a job -/

/-- The first half of a command has made its job (03 R132). -/
def jobBegun (s : State) (h : Half) (r : Running) (j : SpJob) : State :=
  finishJob (markStarted { s with jobs := s.jobs ++ [j] } (.splints h) r.ref) r.ref

section
variable {s : State} {h : Half} {r : Running} {c : Context}

theorem beginJob_joins (hjob : ∃ j, findJob s r.ref = some j) (mk : Except CmdErr (State × SpJob)) :
    beginJob s h r mk = .ok (finishJob (markStarted s (.splints h) r.ref) r.ref) := by
  obtain ⟨j, hj⟩ := hjob
  simp only [beginJob, hj]

theorem beginJob_makes {s1 : State} {j : SpJob} (hnew : findJob s r.ref = none) : beginJob s h r (.ok (s1, j)) = .ok (jobBegun s1 h r j) := by
  simp only [beginJob, hnew, jobBegun]

theorem beginJob_error {e : CmdErr} (hnew : findJob s r.ref = none) : beginJob s h r (.error e) = .error e := by
  simp only [beginJob, hnew]

/-! ### SP_GATHER -/

theorem startGather_bad (hbad : gatherOk r = false) : startGather h s c r = .error (errBad (.splints h)) := by
  simp only [startGather, hbad]
  rfl

/-- The Splints of the half claim twice around and issue (06 R302, R304). -/
theorem startGather_joins (hok : gatherOk r = true) (hjob : ∃ j, findJob s r.ref = some j) : startGather h s c r =
    .ok ((allCores h ++ allCores h).foldl chunkClaim (finishJob (markStarted s (.splints h) r.ref) r.ref)) := by
  have hold : (findJob s r.ref).isNone = false := by
    obtain ⟨j, hj⟩ := hjob
    rw [hj]
    rfl
  simp only [startGather, hok, hold, beginJob_joins hjob, Bool.and_false]
  rfl

theorem startGather_plain {ix : Desc} (hok : gatherOk r = true) (hnew : findJob s r.ref = none) (hplain : gPooled r.word = false)
    (hix : indexDesc r 0x10 = some ix) : startGather h s c r = .ok ((allCores h ++ allCores h).foldl chunkClaim
      (jobBegun s h r (newJob s r (gStep r.word) (rangeChunks (ix.count 1) 256) (ix.count 1)))) := by
  simp only [startGather, hok, hplain, hix, beginJob_makes hnew, Bool.false_and]
  rfl

theorem startGather_pooled {ix b d : Desc} {s1 s2 : State} {j : SpJob} (hok : gatherOk r = true) (hnew : findJob s r.ref = none)
    (hpooled : gPooled r.word = true) (hix : indexDesc r 0x10 = some ix) (hb : r.desc 0x28 = some b) (hd : r.desc 0x18 = some d)
    (hplan : planBags s c r (.splints h) ix b d = .ok (s1, j)) (hempty : writeEmptyBags (jobBegun s1 h r j) c r (.splints h) d = .ok s2) :
    startGather h s c r = .ok ((allCores h ++ allCores h).foldl chunkClaim s2) := by
  simp only [startGather, hok, hnew, hpooled, hix, hb, hd, hplan, beginJob_makes hnew, Option.isNone_none, Bool.and_self, mustBe]
  simp only [if_true, bind, Except.bind, hempty, pure, Except.pure]

/-! ### SP_SCATTER and SP_RUN -/

theorem startScatter_bad (hbad : scatterOk r = false) : startScatter h s c r = .error (errBad (.splints h)) := by
  simp only [startScatter, hbad]
  rfl

/-- The chunks of a scatter-reduce; those of pipe mode come with their tiles (06 R314, R326). -/
def scatterChunks (r : Running) : List Chunk :=
  if inPipe r.word ≠ 0 then [] else
    match r.desc 0x10 with
    | some d => rangeChunks (d.count 1) (indexP (d.count 0))
    | none => []

theorem startScatter_makes (hok : scatterOk r = true) (hnew : findJob s r.ref = none) : startScatter h s c r =
    .ok (jobBegun s h r (newJob s r (sStep r.word) (scatterChunks r) (sumNat ((scatterChunks r).map fun k => k.count)))) := by
  rw [← beginJob_makes hnew]
  simp only [startScatter, hok]
  rfl

end

/-! ### Claiming -/

section
variable {s : State} {core : CoreId} {j : SpJob} {k : Chunk} {r : Running} {c : Context}

/-- The chunk is claimed for the Splint (06 R302). -/
def chunkClaimed (s : State) (core : CoreId) (j : SpJob) (k : Chunk) : State :=
  setJob (setChunk s j.ref k.num fun k => { k with state := .claimed core }) j.ref fun j => { j with lastClaim := s.now }

/-- A Splint claims the chunk k of the job j, of the command r in the context c. -/
structure Claims (s : State) (core : CoreId) (j : SpJob) (k : Chunk) (r : Running) (c : Context) : Prop where
  works : splintWorks s core = true
  claim : claimable s core = some (j, k)
  running : runningOfRef s j.ref = some r
  context : findCtx s j.sess = some c

theorem Claims.run (h : Claims s core j k r c) (hop : j.opcode = 0x22) : chunkClaim s core = loadCore (chunkClaimed s core j k) r core k := by
  simp only [chunkClaim, h.works, h.claim, h.running, h.context, hop, chunkClaimed]
  rfl

theorem Claims.gather (h : Claims s core j k r c) (hop : j.opcode = 0x20) : chunkClaim s core = issueMore (chunkClaimed s core j k) core := by
  simp only [chunkClaim, h.works, h.claim, h.running, h.context, hop, chunkClaimed]
  rfl

theorem Claims.scatter {t : State} (h : Claims s core j k r c) (hop : j.opcode = 0x21) (hindex : inPipe r.word = 0)
    (hform : formChunk (chunkClaimed s core j k) c r core k = .ok t) : chunkClaim s core = t := by
  rw [chunkClaimed] at hform
  simp only [chunkClaim, h.works, h.claim, h.running, h.context, hop, hindex, hform]
  rfl

end

/-! ### Applying -/

/-- A chunk that can apply finished on its half, in its turn unless its destination is split (06 R319, R327). -/
theorem applicable_turn {j : SpJob} {h : Half} {k : Chunk} {core : CoreId} (ha : applicable j h = some (k, core)) :
    core.half = h ∧ (k.split = true ∨ turnOf j k.num = true) := by
  obtain ⟨x, -, hx⟩ := List.exists_of_findSome?_eq_some ha
  split at hx
  · split at hx
    · cases hx
      assumption
    · cases hx
  · cases hx

theorem applicable_of_findSome {js : List SpJob} {h : Half} {j : SpJob} {k : Chunk} {core : CoreId}
    (hf : (js.findSome? fun j => if j.opcode = 0x21 then (applicable j h).map fun p => (j, p) else none) = some (j, k, core)) :
    applicable j h = some (k, core) := by
  obtain ⟨x, -, hx⟩ := List.exists_of_findSome?_eq_some hf
  split at hx
  · obtain ⟨p, hp, hpair⟩ := Option.map_eq_some_iff.mp hx
    cases hpair
    exact hp
  · cases hx

/-- Settles O27: each way to start, to claim and to apply by its own lemma. -/
theorem splintCommandsRun : Obligations.SplintCommandsRun := by
  unfold Obligations.SplintCommandsRun
  refine ⟨fun s h r c => ⟨fun hr => ⟨fun hbad => ?_, fun hok hjob => ?_, fun ix hok hnew hplain hix => ?_,
      fun ix b d s1 j s2 hok hnew hpooled hix hb hd hplan hempty => ?_⟩, fun hr => ⟨fun hbad => ?_, fun hok hnew => ?_⟩,
      fun hr => ⟨fun s1 j hnew hplan => ?_, fun hjob => ?_, fun e hnew hplan => ?_⟩⟩,
    fun s core h j k r c hrunning hctx => ⟨fun hworks hclaim => ?_, fun hfind _ => ?_⟩⟩
  · rw [exec_spGather, execSpGather, withRunning_error hr (startGather_bad hbad)]
  · rw [exec_spGather, execSpGather, withRunning_ok hr (startGather_joins hok hjob)]
  · rw [exec_spGather, execSpGather, withRunning_ok hr (startGather_plain hok hnew hplain hix)]
    rfl
  · rw [exec_spGather, execSpGather, withRunning_ok hr (startGather_pooled hok hnew hpooled hix hb hd hplan hempty)]
  · rw [exec_spScatter, execSpScatter, withRunning_error hr (startScatter_bad hbad)]
  · rw [exec_spScatter, execSpScatter, withRunning_ok hr (startScatter_makes hok hnew)]
    rfl
  · exact congrArg _ (withRunning_ok hr ((congrArg (beginJob s h r) hplan).trans (beginJob_makes hnew)))
  · exact congrArg _ (withRunning_ok hr (beginJob_joins hjob _))
  · exact congrArg _ (withRunning_error hr ((congrArg (beginJob s h r) hplan).trans (beginJob_error hnew)))
  · have hc : Claims s core j k r c := ⟨hworks, hclaim, hrunning, hctx⟩
    exact ⟨fun hop => congrArg _ (hc.run hop), fun hop => congrArg _ (hc.gather hop),
      fun s2 hop hindex hform => congrArg _ (hc.scatter hop hindex hform)⟩
  · obtain ⟨hhalf, hturn⟩ := applicable_turn (applicable_of_findSome hfind)
    refine ⟨?_, fun hwhole => hturn.resolve_left (by simp [hwhole]), hhalf⟩
    rw [exec_chunkApply, execChunkApply, chunkApply]
    simp only [hfind, hrunning]

end Sys2Proof.Machine

/-! SUPPORT. What the owner of a row answers and what a reply does (06 R295, 08 R428, 09 R491, 11 R566), and O42. -/

namespace Sys2Proof.Machine

/-! ### What the owner of a row can answer -/

section
variable {s : State} {c : Context} {pool step n idx : Nat} {t : Table}

theorem serveRow_noTable (h : findTable c (poolTable pool) = none) : serveRow s c pool step n = (s, .refuse faultTranslation) := by
  simp only [serveRow, h]

/-- A row of an optimised table waits for an earlier step that is open (08 R428). -/
theorem serveRow_held (ht : findTable c (poolTable pool) = some t) (hown : ownerOf (myNumber s) t.ownership t.rows (poolRow pool) = .here idx)
    (hheld : lookupHeld c t step = true) : serveRow s c pool step n = (s, .wait true) := by
  simp only [serveRow, ht, hown, hheld, if_true]

/-- A row of a table without a tier that waits for no step is read, or refused when memory has lost it (09 R491). -/
theorem serveRow_plain (ht : findTable c (poolTable pool) = some t) (hown : ownerOf (myNumber s) t.ownership t.rows (poolRow pool) = .here idx)
    (hfree : lookupHeld c t step = false) (htier : t.tier = none) :
    serveRow s c pool step n = if (plainPoison s c t idx).isSome then (s, .refuse faultTranslation)
      else (tally s c.sess 0 (t.recordVa idx) n, .bytes (rowPrefix t n (plainRecord s c t idx))) := by
  simp only [serveRow, ht, hown, hfree, htier, Option.isSome_none, Bool.false_eq_true, if_false]

theorem toNat_eq_zero_iff {step : U32} : step.toNat = 0 ↔ step = 0 := BitVec.toNat_inj (y := 0)

theorem lookupHeld_eq_true_iff {step : U32} :
    lookupHeld c t step.toNat = true ↔ t.optimiser ≠ 0 ∧ step ≠ 0 ∧ stepOpenBelow c step.toNat = true := by
  simp only [lookupHeld, Bool.and_eq_true, bne_iff_ne, ne_eq, toNat_eq_zero_iff, and_assoc]

theorem lookupHeld_eq_false_iff {step : U32} :
    lookupHeld c t step.toNat = false ↔ t.optimiser = 0 ∨ step = 0 ∨ stepOpenBelow c step.toNat = false := by
  simp only [lookupHeld, Bool.and_eq_false_iff, bne_eq_false_iff_eq, toNat_eq_zero_iff, or_assoc]

end

/-! ### Answers -/

section
variable {s : State} {c : Context} {g : Group} {x : HeldLookup}

theorem serveRowReq_bytes {s1 : State} {bs : List Byte}
    (h : serveRow s c x.pkt.a.toNat x.pkt.step.toNat (x.pkt.b.toNat % 8192) = (s1, .bytes bs)) : serveRowReq s c g x =
      let s2 := setCtx s1 c.sess fun c => { c with memCtr := bump c.memCtr 8 1, fabricCtr := bump c.fabricCtr 10 1 }
      (sendFrom s2 c .west { newPacket s2 g 0x05 x.pkt.srcMod.toNat with msg := x.pkt.msg, step := x.pkt.step, data := bs }).1 := by
  simp only [serveRowReq, h]

theorem serveRowReq_refuse {s1 : State} {k : Nat}
    (h : serveRow s c x.pkt.a.toNat x.pkt.step.toNat (x.pkt.b.toNat % 8192) = (s1, .refuse k)) :
    serveRowReq s c g x = refusePacket s1 c.tenant x.pkt k := by
  simp only [serveRowReq, h]

theorem serveRowReq_wait {s1 : State} {f : Bool}
    (h : serveRow s c x.pkt.a.toNat x.pkt.step.toNat (x.pkt.b.toNat % 8192) = (s1, .wait f)) :
    serveRowReq s c g x = holdLookup s1 { x with forStep := f } := by
  simp only [serveRowReq, h]

/-- The FP32 sum of a bag's rows with the flags of decoding and summing them (06 R295, R296). -/
def bagSum (t : Table) (rows : List (List Byte)) : List U32 × Fl :=
  let vs := rows.map fun b => rowElems t.fmt t.elems b
  let sum := sumRows (vs.map fun v => v.1)
  (sum.1, vs.foldl (fun a v => a ||| v.2) sum.2)

theorem serveBagReq_sums {t : Table} {s1 : State} {b : List Byte} {rows : List (List Byte)}
    (ht : findTable c (x.pkt.a.toNat % 2 ^ 24) = some t)
    (hrows : serveRows x.pkt.step.toNat t.rowBytes (bagWords x.pkt) s c.sess = (s1, .bytes b, rows)) : serveBagReq s c g x =
      let s2 := setCtx (setFlags s1 c.sess engSplints (bagSum t rows).2) c.sess fun c =>
        { c with memCtr := bump c.memCtr 9 1, fabricCtr := bump c.fabricCtr 10 1 }
      (sendMessage s2 c .west { newPacket s2 g 0x07 x.pkt.srcMod.toNat with msg := x.pkt.msg, step := x.pkt.step }
        (wordsBytes (bagSum t rows).1)).1 := by
  simp only [serveBagReq, ht, hrows, bagSum]

end

/-! ### Requests of other modules -/

section
variable {s t : State} {p : Packet} {c c1 : Context} {g : Group}

theorem rowReq_wakes (h : Arrives s p 0x04 c g) (hw : Wakes s p c t c1) : exec (.rowReq p) s =
    .next (countHeld t (serveRowReq t c1 g { sess := c1.sess, pkt := p, since := s.now, forStep := false }) c1.sess) := by
  rw [exec_rowReq, execRowReq, rowReq, withPacket_arrives _ h, withResident_wakes _ hw]

/-- The packet of a bag request put together from its parts (06 R295). -/
def wholeBagReq (p : Packet) (bs : List Byte) : Packet := { p with data := bs, index := 0, packets := 1, last := true }

theorem bagReq_waits (h : Arrives s p 0x06 c g) (hw : Wakes s p c t c1) (hpart : wholeMessage t p = none) :
    exec (.bagReq p) s = .next (keepPacket t p) := by
  rw [exec_bagReq, execBagReq, bagReq, withPacket_arrives _ h, withResident_wakes _ hw, hpart]

theorem bagReq_wakes {bs : List Byte} {t1 : State} (h : Arrives s p 0x06 c g) (hw : Wakes s p c t c1)
    (hwhole : wholeMessage t p = some (bs, t1)) : exec (.bagReq p) s =
      .next (countHeld t1 (serveBagReq t1 c1 g { sess := c1.sess, pkt := wholeBagReq p bs, since := s.now, forStep := false }) c1.sess) := by
  rw [exec_bagReq, execBagReq, bagReq, withPacket_arrives _ h, withResident_wakes _ hw, hwhole]
  rfl

/-! ### Replies -/

theorem rowReply_delivers {r : Request} (h : Arrives s p 0x05 c g) (hreq : requestOf (takePacket s p) c.sess p = some r)
    (hfresh : staleReply (takePacket s p) r.targetIncarn r.owner = false) : exec (.rowReply p) s =
      .next (deliver (takePacket s p) { r with state := .returned, data := p.data, bytes := p.data.length }) := by
  simp only [exec_rowReply, execRowReply, rowReply, withPacket_arrives _ h, hreq, hfresh, Bool.false_eq_true, if_false]

theorem rowReply_stale {r : Request} (h : Arrives s p 0x05 c g) (hreq : requestOf (takePacket s p) c.sess p = some r)
    (hstale : staleReply (takePacket s p) r.targetIncarn r.owner = true) :
    exec (.rowReply p) s = .next (countStale (takePacket s p) c.sess) := by
  simp only [exec_rowReply, execRowReply, rowReply, withPacket_arrives _ h, hreq, hstale, if_true]

theorem rowReply_unasked (h : Arrives s p 0x05 c g) (hnone : requestOf (takePacket s p) c.sess p = none) :
    exec (.rowReply p) s = .next (takePacket s p) := by
  simp only [exec_rowReply, execRowReply, rowReply, withPacket_arrives _ h, hnone]

theorem bagReply_taken {bs : List Byte} {t1 : State} {r : Request} {b x y z : Nat} (h : Arrives s p 0x07 c g)
    (hwhole : wholeMessage (takePacket s p) p = some (bs, t1)) (hreq : requestOf t1 c.sess p = some r) (hdest : r.dest = .bag b x y z)
    (hfresh : staleReply t1 r.targetIncarn r.owner = false) : exec (.bagReply p) s = .next (takeBag t1 r b bs) := by
  simp only [exec_bagReply, execBagReply, bagReply, withPacket_arrives _ h, hwhole, hreq, hfresh, hdest, Bool.false_eq_true, if_false]

end

/-- Settles O42: each answer of an owner and each reply by its own lemma. -/
theorem rowsAndBagsAreServed : Obligations.RowsAndBagsAreServed := by
  unfold Obligations.RowsAndBagsAreServed
  refine fun s p c g t c1 => ⟨fun h hw => ⟨fun bs hbytes => ?_, fun k hrefuse => ?_, fun f hwait => ?_, fun hnone => ?_,
      fun tb idx ht hown => ⟨fun hopt hstep hopen => ?_, fun hfree htier => ?_⟩⟩,
    fun h => ⟨fun r hreq => ⟨rowReply_delivers h hreq, rowReply_stale h hreq⟩, rowReply_unasked h⟩,
    fun h hw => ⟨bagReq_waits h hw, fun bs t1 tb t2 b rows hwhole ht hrows => ?_⟩,
    fun h bs t1 r b x y z hwhole hreq hdest hfresh => bagReply_taken h hwhole hreq hdest hfresh⟩
  · rw [rowReq_wakes h hw, serveRowReq_bytes (Prod.ext rfl hbytes)]
  · rw [rowReq_wakes h hw, serveRowReq_refuse (Prod.ext rfl hrefuse)]
  · rw [rowReq_wakes h hw, serveRowReq_wait (Prod.ext rfl hwait)]
  · rw [serveRow_noTable hnone]
  · rw [serveRow_held ht hown (lookupHeld_eq_true_iff.mpr ⟨hopt, hstep, hopen⟩)]
  · have hplain := serveRow_plain (n := p.b.toNat % 8192) ht hown (lookupHeld_eq_false_iff.mpr hfree) htier
    refine ⟨fun hgood => ?_, fun pc hlost => ?_⟩
    · rw [hplain, hgood]
      rfl
    · rw [hplain, hlost]
      rfl
  · rw [bagReq_wakes h hw hwhole, serveBagReq_sums ht hrows]
    rfl

end Sys2Proof.Machine

/-! SUPPORT. How WV_MATMUL and WV_EDGE start, when a product with A in memory is computed and what the arrival of an edge tile
does (07 R348-R354, R365-R370, R377, R378), and O29. -/

namespace Sys2Proof.Machine

/-! ### The checks in front of a row's work -/

section
variable {α : Type} {inst : EngineInst} {b : Bool} {f : Unit → Except CmdErr α} {a : α}

theorem ok_bind {β : Type} (a : α) (g : α → Except CmdErr β) : (.ok a >>= g) = g a := rfl

theorem memTry_ok (unit : Nat) (a : α) : memTry unit (.ok a) = .ok a := rfl

theorem mustBe_of_true (hb : b = true) : mustBe inst b = .ok () := if_pos hb

theorem eq_ok_of_mustBe_bind_eq_ok (h : (mustBe inst b >>= f) = .ok a) : f () = .ok a := by
  cases b with
  | true => exact h
  | false => cases h

end

/-- The weight stream of a descriptor and its extension, transposed when the command says so (07 R350, R363). -/
abbrev Running.stream (r : Running) (rb ext : BitVec 512) : WStream := wstream rb ext (fld r.word 0x18 48 48 == 1)

/-! ### WV_MATMUL with A in memory -/

section
variable {s s1 : State} {c : Context} {r : Running} {p : WPlan} {ra rb ext : BitVec 512} {sc : (U32 × U32 × U32) × Fl}
  {check : CheckOutcome}

/-- The product is under way, and its task's chain has passed to it (07 R354). -/
def productBegun (s : State) (r : Running) (sc : (U32 × U32 × U32) × Fl) : State :=
  dropChain (beginRun (setFlags s r.sess engWeave sc.2) r (newRun r sc.1 [])) r.ref

/-- The product has been worked through: its command's record holds what it will merge (04 R209). -/
def productRun (r : Running) (x : Work) : State := setRun x.st r.ref fun _ => x.run

theorem matmulMemory_waits (h : matmulMemory s c r p ra rb ext sc check = .ok s1) (hwait : piecesHere c p.aux = false) : s1 = s := by
  have hpassed := eq_ok_of_mustBe_bind_eq_ok (eq_ok_of_mustBe_bind_eq_ok (eq_ok_of_mustBe_bind_eq_ok (eq_ok_of_mustBe_bind_eq_ok h)))
  rw [if_pos hwait] at hpassed
  exact (Except.ok.inj hpassed).symm

/-- With every piece there the product is worked through; one that chains passes its accumulators on (07 R354, R378). -/
theorem matmulMemory_computes {run : WeaveRun} {x : Work} (h : matmulMemory s c r p ra rb ext sc check = .ok s1)
    (hhere : piecesHere c p.aux = true) (hrun : ((productBegun s r sc).weave.runs.find? fun x => x.ref == r.ref) = some run)
    (hprod : runProduct { st := productBegun s r sc, run := run } c r p (decodeDesc ra)
      (r.stream rb ext) (cmdChain r.word) (chainOf s r.ref) check = .ok x) :
    (cmdChain r.word = false → s1 = productRun r x) ∧
    (cmdChain r.word = true → ∃ ch ∈ s1.weave.chains, ch.ref = r.ref ∧ ch.m = (decodeDesc ra).count 1 ∧
      ch.n = p.n (r.stream rb ext).nt ∧ ch.saturated = x.saturated) := by
  have hpassed := eq_ok_of_mustBe_bind_eq_ok (eq_ok_of_mustBe_bind_eq_ok (eq_ok_of_mustBe_bind_eq_ok (eq_ok_of_mustBe_bind_eq_ok h)))
  rw [productBegun] at hrun hprod
  simp only [hhere, hrun, hprod, Bool.true_eq_false, if_false] at hpassed
  refine ⟨fun halone => ?_, fun hchain => ?_⟩
  · simp only [halone, Bool.false_eq_true, if_false] at hpassed
    exact (Except.ok.inj hpassed).symm
  · simp only [hchain, if_true] at hpassed
    rw [← Except.ok.inj hpassed]
    exact ⟨_, List.mem_append_right _ (List.mem_singleton_self _), rfl, rfl, rfl, rfl⟩

end

/-! ### WV_MATMUL starts -/

/-- Plan, scales, weight stream and extension of a product are good, and its operands fit (07 R348-R351). -/
structure MatmulGood (s : State) (c : Context) (r : Running) (p : WPlan) (sc : (U32 × U32 × U32) × Fl) (rb ext : BitVec 512) : Prop where
  plan : weavePlan s c r (fld r.word 0x18 50 49) (fld r.word 0x18 52 51) (fld r.word 0x20 50 48) = .ok p
  scales : readScales s c (fld r.word 0x28 47 0) = .ok sc
  weights : r.raw 0x18 = some rb
  extension : readExt s c (fld r.word 0x18 47 0) = .ok ext
  stream : (r.stream rb ext).ok = true
  fits : p.fits (r.stream rb ext).nt = true

section
variable {s : State} {c : Context} {r : Running} {p : WPlan} {sc : (U32 × U32 × U32) × Fl} {rb ext : BitVec 512} {check : CheckOutcome}

theorem MatmulGood.startMatmul_computes {ra : BitVec 512} (h : MatmulGood s c r p sc rb ext) (hmem : fld r.word 0x10 50 48 = 0)
    (ha : r.raw 0x10 = some ra) : startMatmul check s c r = matmulMemory s c r p ra rb ext sc check := by
  have hfit := Bool.and_eq_true_iff.mpr ⟨h.stream, h.fits⟩
  simp only [startMatmul, h.plan, h.scales, h.weights, h.extension, hmem, ha, ok_bind, mustBe_of_true hfit, if_true]

theorem MatmulGood.startMatmul_begins (h : MatmulGood s c r p sc rb ext) (hpipe : fld r.word 0x10 50 48 ≠ 0)
    (ha : fld r.word 0x10 47 0 = 0) (halone : cmdChain r.word = false) (hfirst : chainOf s r.ref = none) (hz : p.exit.zmap = false)
    (hn : p.n (r.stream rb ext).nt ≤ 1024) :
    startMatmul check s c r = .ok (beginRun (setFlags s r.sess engWeave sc.2) r (newRun r sc.1 [(256, rb, ext)])) := by
  have hfit := Bool.and_eq_true_iff.mpr ⟨h.stream, h.fits⟩
  simp only [startMatmul, h.plan, h.scales, h.weights, h.extension, if_neg hpipe, ok_bind, mustBe_of_true hfit]
  rw [mustBe_of_true (by simp [ha, halone, hfirst, hz, hn])]
  rfl

end

/-! ### WV_EDGE starts -/

/-- Fields, plan, scales and weight table of an edge-mode product are good, and the streams of its relations agree in their
columns, which fit (07 R365, R366). -/
structure EdgeGood (s : State) (c : Context) (r : Running) (p : WPlan) (sc : (U32 × U32 × U32) × Fl) (tab : List Byte)
    (rels : List (Nat × BitVec 512 × BitVec 512)) : Prop where
  alone : cmdChain r.word = false
  first : chainOf s r.ref = none
  inputs : 1 ≤ fld r.word 0x10 2 0
  aligned : fld r.word 0x18 47 0 % 64 = 0
  plan : weavePlan s c r (fld r.word 0x18 50 49) (fld r.word 0x18 52 51) (fld r.word 0x10 6 4) = .ok p
  noMap : p.exit.zmap = false
  scales : readScales s c (fld r.word 0x28 47 0) = .ok sc
  table : readVa s c .rd (fld r.word 0x18 47 0) 2048 = .ok tab
  relations : readRelations s c (fld r.word 0x18 48 48 == 1) tab (List.range 256) = .ok rels
  fits : ∀ x ∈ rels, (r.stream x.2.1 x.2.2).nt = nthD 0 (rels.map fun x => (r.stream x.2.1 x.2.2).nt) 0 ∧
    p.fits (r.stream x.2.1 x.2.2).nt = true ∧ p.n (r.stream x.2.1 x.2.2).nt ≤ 1024

section
variable {s : State} {c : Context} {r : Running} {p : WPlan} {sc : (U32 × U32 × U32) × Fl} {tab : List Byte}
  {rels : List (Nat × BitVec 512 × BitVec 512)}

theorem EdgeGood.columnsAgree (h : EdgeGood s c r p sc tab rels) : ((rels.map fun x => (r.stream x.2.1 x.2.2).nt).all fun n =>
    n == nthD 0 (rels.map fun x => (r.stream x.2.1 x.2.2).nt) 0 && p.fits n && decide (p.n n ≤ 1024)) = true := by
  refine List.all_eq_true.mpr fun n hn => ?_
  obtain ⟨x, hx, rfl⟩ := List.mem_map.mp hn
  obtain ⟨hsame, hfits, hcols⟩ := h.fits x hx
  rw [beq_iff_eq.mpr hsame, hfits, decide_eq_true hcols]
  rfl

theorem EdgeGood.startEdge_begins (h : EdgeGood s c r p sc tab rels) :
    startEdge s c r = .ok (beginRun (setFlags s r.sess engWeave sc.2) r (newRun r sc.1 rels)) := by
  have hfields : (!cmdChain r.word && (chainOf s r.ref).isNone && decide (1 ≤ fld r.word 0x10 2 0) &&
      fld r.word 0x18 47 0 % 64 == 0) = true := by
    simp [h.alone, h.first, h.inputs, h.aligned]
  have hmap : (!p.exit.zmap) = true := by rw [h.noMap, Bool.not_false]
  simp only [startEdge, h.plan, h.scales, h.table, h.relations, memTry_ok, ok_bind, mustBe_of_true hfields,
    mustBe_of_true hmap, mustBe_of_true h.columnsAgree]

end

/-! ### An edge tile arrives -/

/-- An edge-mode command is under way, waits for no pattern test, and its output's consumer has fired (07 R385, 03 R136). -/
structure TakesEdgeTiles (s : State) (r : Running) (c : Context) (run : WeaveRun) : Prop where
  running : edgeRunning s = some r
  context : findCtx s r.sess = some c
  record : (s.weave.runs.find? fun x => x.ref == r.ref) = some run
  untested : run.testing = false
  fired : outPipe r.word = 0 ∨ pipeReady c (outPipe r.word) = true

section
variable {s : State} {r : Running} {c : Context} {run : WeaveRun} {check : CheckOutcome}

theorem TakesEdgeTiles.goes (h : TakesEdgeTiles s r c run) : (run.testing || (outPipe r.word != 0 && !pipeReady c (outPipe r.word))) = false := by
  rcases h.fired with hmem | hready
  · simp [h.untested, hmem]
  · simp [h.untested, hready]

theorem TakesEdgeTiles.edgeArrival_idle (h : TakesEdgeTiles s r c run) (hnone : takeTile s c (inPipe r.word) = none) :
    edgeArrival check s = s := by
  simp only [edgeArrival, h.running, h.context, h.record, h.goes, hnone, Bool.false_eq_true, if_false]

theorem TakesEdgeTiles.edgeArrival_computes {t : Tile} {s1 s2 : State} {c1 : Context} (h : TakesEdgeTiles s r c run)
    (htile : takeTile s c (inPipe r.word) = some (t, s1)) (hctx : findCtx s1 r.sess = some c1)
    (hok : edgeTile s1 c1 r run t check = .ok s2) : edgeArrival check s = armWaits s2 := by
  simp only [edgeArrival, h.running, h.context, h.record, h.goes, htile, hctx, hok, Bool.false_eq_true, if_false]

theorem TakesEdgeTiles.edgeArrival_faults {t : Tile} {s1 : State} {c1 : Context} {e : CmdErr} (h : TakesEdgeTiles s r c run)
    (htile : takeTile s c (inPipe r.word) = some (t, s1)) (hctx : findCtx s1 r.sess = some c1)
    (hbad : edgeTile s1 c1 r run t check = .error e) : edgeArrival check s = faultCommand s1 r.ref e := by
  simp only [edgeArrival, h.running, h.context, h.record, h.goes, htile, hctx, hbad, Bool.false_eq_true, if_false]

end

/-- Settles O29: each way to start and the arrival of an edge tile by its own lemma. -/
theorem weaveCommandsStart : Obligations.WeaveCommandsStart := by
  unfold Obligations.WeaveCommandsStart
  refine ⟨fun s r c check p sc rb ext hr => ⟨fun e hbad => ?_, fun hplan hscales hweights hext hstream hfits => ?_⟩,
    fun s r c check => ⟨fun hr => ⟨fun p sc tab rels halone hfirst hpipe halign hplan hz hscales htab hrels hfit => ?_, fun e hbad => ?_⟩,
      fun run hrunning hctx hrecord htest hfired => ?_⟩⟩
  · exact congrArg _ (withRunning_error hr hbad)
  · have hgood : MatmulGood s c r p sc rb ext := ⟨hplan, hscales, hweights, hext, hstream, hfits⟩
    refine ⟨fun hpipe ha halone hfirst hz hn => congrArg _ (withRunning_ok hr (hgood.startMatmul_begins hpipe ha halone hfirst hz hn)),
      fun ra s1 hmem ha hok => ⟨congrArg _ (withRunning_ok hr ((hgood.startMatmul_computes hmem ha).trans hok)), matmulMemory_waits hok,
        fun hhere run x hrun hprod => matmulMemory_computes hok hhere hrun hprod⟩⟩
  · exact congrArg _ (withRunning_ok hr (EdgeGood.startEdge_begins ⟨halone, hfirst, hpipe, halign, hplan, hz, hscales, htab, hrels, hfit⟩))
  · exact congrArg _ (withRunning_error hr hbad)
  · have htakes : TakesEdgeTiles s r c run := ⟨hrunning, hctx, hrecord, htest, hfired⟩
    exact ⟨fun hnone => congrArg _ (htakes.edgeArrival_idle hnone), fun t s1 c1 htile hctx1 =>
      ⟨fun s2 hok => congrArg _ (htakes.edgeArrival_computes htile hctx1 hok),
        fun e hbad => congrArg _ (htakes.edgeArrival_faults htile hctx1 hbad)⟩⟩

end Sys2Proof.Machine

/-! SUPPORT. The order of numbers, the infinities included: a NaN stands in no comparison, and the others are ordered by their
level and then by their value (04 R190). -/

namespace Sys2Proof.Machine

namespace Num

/-- Where a number stands against the finite ones: below them, among them, or above. -/
def level : Num → Int
  | .inf true => -1
  | .inf false => 1
  | _ => 0

theorem lt_iff_level_val {x y : Num} (hx : x ≠ .nan) (hy : y ≠ .nan) :
    x.lt y = true ↔ x.level < y.level ∨ x.level = y.level ∧ x.val < y.val := by
  cases x with
  | nan => exact absurd rfl hx
  | inf a =>
    cases y with
    | nan => exact absurd rfl hy
    | inf b => cases a <;> cases b <;> decide
    | fin b n f => cases a <;> simp [lt, level]
  | fin a m e =>
    cases y with
    | nan => exact absurd rfl hy
    | inf b => cases b <;> simp [lt, level]
    | fin b n f => exact (lt_iff_val rfl rfl).trans (by simp only [level, Int.lt_irrefl, false_or, true_and])

theorem ne_nan_of_lt {x y : Num} (h : x.lt y = true) : x ≠ .nan ∧ y ≠ .nan := by
  constructor
  · rintro rfl
    cases h
  · rintro rfl
    cases x <;> cases h

theorem lt_asymm {x y : Num} (h : x.lt y = true) : y.lt x = false := by
  obtain ⟨hx, hy⟩ := ne_nan_of_lt h
  rw [← Bool.not_eq_true, lt_iff_level_val hy hx]
  have hlt := (lt_iff_level_val hx hy).mp h
  grind

theorem lt_irrefl (x : Num) : x.lt x = false := by
  rw [← Bool.not_eq_true]
  exact fun h => absurd (h.symm.trans (lt_asymm h)) (by decide)

end Num

end Sys2Proof.Machine

/-! SUPPORT. How RM_OP runs on a half (08 R393-R397, R721) and its results for an element (08 Table 8.1, R398, R722), and O31. -/

namespace Sys2Proof.Machine

/-! ### The rows of RM_OP -/

theorem exec_rimRow (s : State) (h : Half) : ∀ q ∈ rimRows, exec (q.2 h) s = .next (runOp q.1 h s) :=
  List.map_inj_left.mp (rfl : rimRows.map (fun q => exec (q.2 h) s) = rimRows.map fun q => .next (runOp q.1 h s))

section
variable {s s1 : State} {h : Half} {r : Running} {c : Context} {p : RimPlan} {d : Desc}

theorem startOp_error {e : CmdErr} (hplan : rimPlan r (.rim h) = .error e) : startOp h s c r = .error e := by
  simp only [startOp, hplan]
  rfl

theorem startOp_fromPipe (hplan : rimPlan r (.rim h) = .ok p) (hin : inPipe r.word ≠ 0) : startOp h s c r = .ok (markStarted s (.rim h) r.ref) := by
  simp only [startOp, hplan, ok_bind, if_pos hin]

theorem startOp_waits (hplan : rimPlan r (.rim h) = .ok p) (hin : inPipe r.word = 0) (hout : outPipe r.word ≠ 0) (hd : p.din = some d)
    (hidle : pipeReady c (outPipe r.word) = false) : startOp h s c r = .ok s := by
  simp only [startOp, hplan, ok_bind, if_neg (not_not_intro hin), if_pos hout, hd, hidle, Bool.false_eq_true, if_false]

theorem startOp_toPipe (hplan : rimPlan r (.rim h) = .ok p) (hin : inPipe r.word = 0) (hout : outPipe r.word ≠ 0) (hd : p.din = some d)
    (hready : pipeReady c (outPipe r.word) = true) : startOp h s c r = rimToPipe s c r p h d := by
  simp only [startOp, hplan, ok_bind, if_neg (not_not_intro hin), if_pos hout, hd, hready, if_true]

theorem startOp_toMemory (hplan : rimPlan r (.rim h) = .ok p) (hin : inPipe r.word = 0) (hout : outPipe r.word = 0) (hd : p.dout = some d) :
    startOp h s c r = rimToMemory s c r p h d := by
  simp only [startOp, hplan, ok_bind, if_neg (not_not_intro hin), if_neg (not_not_intro hout), hd]

theorem startOp_tests (hplan : rimPlan r (.rim h) = .ok p) (hin : inPipe r.word = 0) (hout : outPipe r.word = 0) (hno : p.dout = none)
    (hd : p.din = some d) : startOp h s c r = rimTest s c r p h d := by
  simp only [startOp, hplan, ok_bind, if_neg (not_not_intro hin), if_neg (not_not_intro hout), hno, hd]

/-- The elements of an output that a half values: a row operation's rows and the blocks of an MX stream stay whole (R396, R397). -/
def outputShare (r : Running) (p : RimPlan) (h : Half) (d : Desc) : List (Nat × List Nat) :=
  halfElems d (bothHalves r.word) h fun e => if isRowOp p.op then (0, e.2) else blockUnit d e

/-- What follows the store of a half's elements: they are counted, the flags are raised and the half's share is done. -/
def storedShare (r : Running) (p : RimPlan) (h : Half) (d : Desc) (vs : List FV) (st : Stored) : State :=
  let es := outputShare r p h d
  let s1 := match p.din with | some a => tallyElems st.st r.sess 0 a es | none => st.st
  let s2 := setFlags (tallyElems s1 r.sess 1 d es) r.sess engRim (flOr vs ||| st.fl)
  shareDone (unitsDone s2 r.ref (doneTiles s2 r.ref d h es)) (.rim h) r.ref

theorem rimToMemory_stores {vs : List FV} {st : Stored}
    (hvs : ((outputShare r p h d).mapM fun e => rimValue s c r p e.1 e.2 (d.linear e.1 e.2)) = .ok vs)
    (hst : storeElems s c .wr d false (Num.ofNat 1) (((outputShare r p h d).zip vs).map fun x => (x.1, (fp32 x.2.1, Round.nearest))) = .ok st) :
    rimToMemory s c r p h d = .ok (storedShare r p h d vs st) := by
  unfold outputShare at hvs hst
  simp only [rimToMemory, hvs, memTry_ok, ok_bind, hst]
  rfl

theorem rimTest_tests {vs : List FV}
    (hvs : ((halfElems d (bothHalves r.word) h (blockUnit d)).mapM fun e => rimValue s c r p e.1 e.2 0) = .ok vs) :
    rimTest s c r p h d = .ok (shareDone (noteNonfinite (setFlags (tallyElems s r.sess 0 d (halfElems d (bothHalves r.word) h (blockUnit d)))
      r.sess engRim (flOr vs)) r.sess (vs.filter fun v => !(fp32 v.1).isFin).length) (.rim h) r.ref) := by
  simp only [rimTest, hvs, memTry_ok, ok_bind]
  rfl

end

/-! ### MAX and MIN -/

theorem fp32_zero : fp32 0 = .fin false 0 (-149) := by decide

theorem lt_fp32_zero (x : Num) : x.lt (fp32 0) = x.lt Num.zero := by
  cases x with
  | nan => rfl
  | inf b => rfl
  | fin b m e => rw [Bool.eq_iff_iff, Num.lt_iff_val rfl rfl, Num.lt_iff_val rfl rfl, fp32_zero, Num.zero, Num.val_fin_zero, Num.val_fin_zero]

theorem fp32_zero_lt (x : Num) : (fp32 0).lt x = Num.zero.lt x := by
  cases x with
  | nan => rfl
  | inf b => rfl
  | fin b m e => rw [Bool.eq_iff_iff, Num.lt_iff_val rfl rfl, Num.lt_iff_val rfl rfl, fp32_zero, Num.zero, Num.val_fin_zero, Num.val_fin_zero]

theorem Num.isZero_iff {x : Num} : x.isZero = true ↔ ∃ b e, x = .fin b 0 e := by
  constructor
  · intro h
    unfold isZero at h
    split at h
    next b e => exact ⟨b, e, rfl⟩
    next => cases h
  · rintro ⟨b, e, rfl⟩
    rfl

/-- A value does not lie below one that it is above, +0 being above -0 (08 R722). -/
theorem lt_eq_false_of_fAbove {x y : U32} (h : fAbove x y = true) : (fp32 x).lt (fp32 y) = false := by
  simp only [fAbove, Bool.or_eq_true, Bool.and_eq_true] at h
  obtain hlt | ⟨⟨⟨hx, hy⟩, -⟩, -⟩ := h
  · exact Num.lt_asymm hlt
  · obtain ⟨a, e, hx⟩ := Num.isZero_iff.mp hx
    obtain ⟨b, f, hy⟩ := Num.isZero_iff.mp hy
    rw [hx, hy]
    exact (Num.lt_eq_false_iff_val rfl rfl).mpr (by simp only [Num.val_fin_zero, Rat.le_refl])

theorem lt_eq_false_of_not_fAbove {x y : U32} (h : fAbove x y = false) : (fp32 y).lt (fp32 x) = false :=
  (Bool.or_eq_false_iff.mp h).1

theorem rimExtreme_nan (isMax : Bool) {x y : U32} (h : fp32 x = .nan ∨ fp32 y = .nan) : rimExtreme isMax x y = (canonNan, flNF) := if_pos h

section
variable {x y : U32}

theorem rimExtreme_fst (isMax : Bool) (hx : fp32 x ≠ .nan) (hy : fp32 y ≠ .nan) :
    (rimExtreme isMax x y).1 = if (if isMax then fAbove y x else fAbove x y) then y else x := by
  rw [rimExtreme, if_neg (fun h => h.elim hx hy), apply_ite Prod.fst]

theorem rimExtreme_max (hx : fp32 x ≠ .nan) (hy : fp32 y ≠ .nan) :
    ((rimExtreme true x y).1 = x ∨ (rimExtreme true x y).1 = y) ∧ (fp32 (rimExtreme true x y).1).lt (fp32 x) = false ∧
      (fp32 (rimExtreme true x y).1).lt (fp32 y) = false := by
  rw [rimExtreme_fst true hx hy, if_pos rfl]
  cases h : fAbove y x with
  | true => exact ⟨.inr rfl, lt_eq_false_of_fAbove h, Num.lt_irrefl _⟩
  | false => exact ⟨.inl rfl, Num.lt_irrefl _, lt_eq_false_of_not_fAbove h⟩

theorem rimExtreme_min (hx : fp32 x ≠ .nan) (hy : fp32 y ≠ .nan) :
    ((rimExtreme false x y).1 = x ∨ (rimExtreme false x y).1 = y) ∧ (fp32 x).lt (fp32 (rimExtreme false x y).1) = false ∧
      (fp32 y).lt (fp32 (rimExtreme false x y).1) = false := by
  rw [rimExtreme_fst false hx hy, if_neg Bool.false_ne_true]
  cases h : fAbove x y with
  | true => exact ⟨.inr rfl, lt_eq_false_of_fAbove h, Num.lt_irrefl _⟩
  | false => exact ⟨.inl rfl, Num.lt_irrefl _, lt_eq_false_of_not_fAbove h⟩

/-! ### RELU and LEAKY_RELU -/

theorem relu_of_neg (hx : (fp32 x).lt Num.zero = true) : (rimExtreme true x 0).1 = 0 := by
  have habove : fAbove 0 x = true := by rw [fAbove, lt_fp32_zero, hx, Bool.true_or]
  rw [rimExtreme_fst true (Num.ne_nan_of_lt hx).1 (by decide), if_pos rfl, if_pos habove]

theorem relu_of_pos (hnz : (fp32 x).isZero = false) (hx : Num.zero.lt (fp32 x) = true) : (rimExtreme true x 0).1 = x := by
  have habove : fAbove 0 x = false := by
    simp only [fAbove, lt_fp32_zero, Num.lt_asymm hx, hnz, Bool.and_false, Bool.false_and, Bool.or_false]
  rw [rimExtreme_fst true (Num.ne_nan_of_lt hx).2 (by decide), if_pos rfl, habove, if_neg Bool.false_ne_true]

end

theorem rimElem_dropout (imm : Nat) (ls x y : U32) (bits : U16) : (rimElem 0x0200 imm ls x y bits).1 =
    if bits.toNat < imm / 65536 % 65536 then (fmul x (BitVec.ofNat 32 (imm / 2 ^ 32))).1 else 0 := apply_ite Prod.fst ..

theorem rimElem_leakyRelu_of_nonneg (imm : Nat) (ls : U32) {x : U32} (y : U32) (bits : U16) (hx : fp32 x ≠ .nan)
    (hpos : (fp32 x).lt Num.zero = false) : (rimElem 0x0002 imm ls x y bits).1 = x := congrArg Prod.fst (if_pos ⟨hx, hpos⟩)

theorem rimElem_leakyRelu_of_neg (imm : Nat) (ls : U32) {x : U32} (y : U32) (bits : U16) (hneg : (fp32 x).lt Num.zero = true) :
    (rimElem 0x0002 imm ls x y bits).1 = (fmul (BitVec.ofNat 32 imm) x).1 :=
  congrArg Prod.fst (if_neg fun h => absurd (hneg.symm.trans h.2) (by decide))

theorem rimExtreme_zeros : (rimExtreme true 0x80000000 0).1 = 0 ∧ (rimExtreme true 0 0x80000000).1 = 0 ∧
    (rimExtreme false 0 0x80000000).1 = 0x80000000 ∧ (rimExtreme false 0x80000000 0).1 = 0x80000000 := by
  decide

/-- Settles O31: the ways to start by their own lemmas; the results of one computation as rimElem writes them, and the others by the
order of numbers. -/
theorem rimOperationsRun : Obligations.RimOperationsRun := by
  unfold Obligations.RimOperationsRun
  refine ⟨fun s h r c q hq hruns => ?_, fun imm ls x y bits => ?_⟩
  · rw [exec_rimRow s h q hq]
    refine ⟨fun e hplan => congrArg _ (withRunning_error hruns (startOp_error hplan)), fun p hplan => ⟨fun hin => ?_,
      fun d hin hout hd => ⟨fun hidle => ?_, fun s1 hready hok => ?_⟩, fun d vs st hin hout hd => ?_, fun d vs hin hout hno hd => ?_⟩⟩
    · exact congrArg _ (withRunning_ok hruns (startOp_fromPipe hplan hin))
    · exact congrArg _ (withRunning_ok hruns (startOp_waits hplan hin hout hd hidle))
    · exact congrArg _ (withRunning_ok hruns ((startOp_toPipe hplan hin hout hd hready).trans hok))
    · exact fun hvs hst => congrArg _ (withRunning_ok hruns ((startOp_toMemory hplan hin hout hd).trans (rimToMemory_stores hvs hst)))
    · exact fun hvs => congrArg _ (withRunning_ok hruns ((startOp_tests hplan hin hout hno hd).trans (rimTest_tests hvs)))
  · obtain ⟨hrelu, hmax, hmin, hmin'⟩ := rimExtreme_zeros
    refine ⟨rfl, rfl, rfl, rfl, rfl, rfl, rfl, rfl, rfl, rfl, rfl, rimElem_dropout imm ls x y bits, rimElem_leakyRelu_of_nonneg imm ls y bits,
      fun hneg => ⟨rimElem_leakyRelu_of_neg imm ls y bits hneg, relu_of_neg hneg⟩, hrelu, relu_of_pos, fun hnan => ?_, fun hx hy => ?_,
      hmax, hrelu, hmin, hmin'⟩
    · exact ⟨congrArg Prod.fst (rimExtreme_nan true hnan), congrArg Prod.fst (rimExtreme_nan false hnan),
        congrArg Prod.snd (rimExtreme_nan true hnan), congrArg Prod.snd (rimExtreme_nan false hnan)⟩
    · obtain ⟨hone, hxle, hyle⟩ := rimExtreme_max hx hy
      obtain ⟨hone', hlex, hley⟩ := rimExtreme_min hx hy
      exact ⟨hone, hxle, hyle, hone', hlex, hley⟩

end Sys2Proof.Machine

/-! SUPPORT. What sortBy gives, and what RM_PRUNE keeps of a group: of magnitudes with a NaN on top the k largest, ties to the lower
index (08 R419). -/

namespace Sys2Proof.Machine

/-! ### Sorting -/

section
variable {α : Type} {before : α → α → Bool}

theorem insertBy_perm (x : α) : ∀ l : List α, (insertBy before x l).Perm (x :: l)
  | [] => .refl _
  | y :: t => by
    rw [insertBy]
    split
    · exact .refl _
    · exact ((insertBy_perm x t).cons y).trans (.swap x y t)

theorem sortBy_perm : ∀ l : List α, (sortBy before l).Perm l
  | [] => .refl _
  | x :: t => (insertBy_perm x _).trans ((sortBy_perm t).cons x)

theorem insertBy_pairwise (trans : ∀ x y z, before x y = true → before y z = true → before x z = true)
    (asymm : ∀ x y, before x y = true → before y x = false) (x : α) : ∀ {l : List α},
    l.Pairwise (fun a b => before b a = false) → (insertBy before x l).Pairwise fun a b => before b a = false
  | [], _ => List.pairwise_singleton _ x
  | y :: t, h => by
    obtain ⟨hy, ht⟩ := List.pairwise_cons.mp h
    rw [insertBy]
    split
    next hxy =>
      refine List.pairwise_cons.mpr ⟨fun z hz => ?_, h⟩
      obtain rfl | hz := List.mem_cons.mp hz
      · exact asymm x z hxy
      · exact eq_false_of_ne_true fun hzx => absurd ((hy z hz).symm.trans (trans z x y hzx hxy)) (by decide)
    next hxy =>
      refine List.pairwise_cons.mpr ⟨fun z hz => ?_, insertBy_pairwise trans asymm x ht⟩
      obtain rfl | hz := List.mem_cons.mp ((insertBy_perm x t).mem_iff.mp hz)
      · exact eq_false_of_ne_true hxy
      · exact hy z hz

theorem sortBy_pairwise (trans : ∀ x y z, before x y = true → before y z = true → before x z = true)
    (asymm : ∀ x y, before x y = true → before y x = false) : ∀ l : List α, (sortBy before l).Pairwise fun a b => before b a = false
  | [] => .nil
  | x :: t => insertBy_pairwise trans asymm x (sortBy_pairwise trans asymm t)

end

theorem sortBy_lt_pairwise {l : List Nat} (h : l.Nodup) : (sortBy (fun a b => decide (a < b)) l).Pairwise (· < ·) := by
  have hle := sortBy_pairwise (before := fun a b : Nat => decide (a < b)) (by grind) (by grind) l
  have hne : (sortBy (fun a b => decide (a < b)) l).Pairwise (· ≠ ·) := (sortBy_perm l).nodup_iff.mpr h
  refine (hle.and hne).imp fun {a b} hab => ?_
  have hnlt := of_decide_eq_false hab.1
  have hneq := hab.2
  omega

/-! ### Magnitudes -/

/-- Where a magnitude stands: a NaN above the infinities, these above the finite ones. -/
def Num.magLevel : Num → Int
  | .nan => 2
  | .inf _ => 1
  | .fin _ _ _ => 0

/-- The comparison of magnitudes of 08 R419, in which a NaN is larger than any number. -/
def largerMag (a b : Num) : Bool := if a = .nan then decide (b ≠ .nan) else if b = .nan then false else b.abs.lt a.abs

theorem largerMag_iff (a b : Num) :
    largerMag a b = true ↔ b.magLevel < a.magLevel ∨ b.magLevel = a.magLevel ∧ b.abs.val < a.abs.val := by
  cases a with
  | nan => cases b <;> simp [largerMag, Num.magLevel, Num.abs, Rat.lt_irrefl]
  | inf s => cases b <;> simp [largerMag, Num.magLevel, Num.abs, Num.lt, Rat.lt_irrefl]
  | fin s m e =>
    cases b with
    | nan => simp [largerMag, Num.magLevel]
    | inf t => simp [largerMag, Num.magLevel, Num.abs, Num.lt]
    | fin t n f =>
      have hlt : largerMag (.fin s m e) (.fin t n f) = (Num.fin t n f).abs.lt (Num.fin s m e).abs := by simp [largerMag]
      rw [hlt, Num.lt_iff_val rfl rfl]
      simp only [Num.magLevel, Int.lt_irrefl, false_or, true_and]

/-- The order in which RM_PRUNE takes the elements of a group (08 R419). -/
def prunesBefore (a b : Nat × Num) : Bool := largerMag a.2 b.2 || (!largerMag b.2 a.2 && decide (a.1 < b.1))

theorem prunesBefore_iff (a b : Nat × Num) : prunesBefore a b = true ↔
    largerMag a.2 b.2 = true ∨ largerMag b.2 a.2 = false ∧ a.1 < b.1 := by
  simp only [prunesBefore, Bool.or_eq_true, Bool.and_eq_true, Bool.not_eq_true', decide_eq_true_eq]

theorem prunesBefore_asymm (a b : Nat × Num) (h : prunesBefore a b = true) : prunesBefore b a = false := by
  rw [← Bool.not_eq_true]
  simp only [prunesBefore_iff, ← Bool.not_eq_true, largerMag_iff] at h ⊢
  grind

theorem prunesBefore_trans (a b c : Nat × Num) (hab : prunesBefore a b = true) (hbc : prunesBefore b c = true) :
    prunesBefore a c = true := by
  simp only [prunesBefore_iff, ← Bool.not_eq_true, largerMag_iff] at hab hbc ⊢
  grind

/-! ### What is kept -/

/-- The elements of a group with their indices, as RM_PRUNE ranks them. -/
def ranked (xs : List Num) : List (Nat × Num) := sortBy prunesBefore ((List.range xs.length).zip xs)

section
variable {k : Nat} {xs : List Num}

theorem keptOf_eq (k : Nat) (xs : List Num) :
    keptOf k xs = sortBy (fun a b => decide (a < b)) (((ranked xs).take k).map fun p => p.1) := by
  have hlarger : ∀ a b : Num, decide (if a = .nan then b ≠ .nan else (if b = .nan then false else b.abs.lt a.abs) = true) = largerMag a b := by
    intro a b
    unfold largerMag
    split
    next => rfl
    next => exact Bool.decide_eq_true
  simp only [keptOf, hlarger]
  rfl

theorem map_fst_ranked_perm (xs : List Num) : ((ranked xs).map fun p => p.1).Perm (List.range xs.length) := by
  have hfst : ((List.range xs.length).zip xs).map (fun p => p.1) = List.range xs.length := List.map_fst_zip (by simp)
  exact hfst ▸ (sortBy_perm _).map _

theorem length_ranked (xs : List Num) : (ranked xs).length = xs.length := by
  simpa using (map_fst_ranked_perm xs).length_eq

theorem nodup_fst_ranked (xs : List Num) : ((ranked xs).map fun p => p.1).Nodup :=
  (map_fst_ranked_perm xs).nodup_iff.mpr List.nodup_range

theorem snd_of_mem_ranked {p : Nat × Num} (h : p ∈ ranked xs) : p.1 < xs.length ∧ p.2 = nthD Num.zero xs p.1 := by
  obtain ⟨i, hi, rfl⟩ := List.mem_iff_getElem.mp ((sortBy_perm _).mem_iff.mp h)
  have hlt : i < xs.length := by simpa using hi
  simp [nthD_eq_getElem Num.zero hlt, hlt]

theorem mem_ranked {i : Nat} (h : i < xs.length) : (i, nthD Num.zero xs i) ∈ ranked xs := by
  obtain ⟨p, hp, rfl⟩ := List.mem_map.mp ((map_fst_ranked_perm xs).mem_iff.mpr (List.mem_range.mpr h))
  rw [← (snd_of_mem_ranked hp).2]
  exact hp

theorem mem_keptOf {i : Nat} : i ∈ keptOf k xs ↔ ∃ p ∈ (ranked xs).take k, p.1 = i := by
  rw [keptOf_eq, (sortBy_perm _).mem_iff, List.mem_map]

theorem length_keptOf (h : k ≤ xs.length) : (keptOf k xs).length = k := by
  rw [keptOf_eq, (sortBy_perm _).length_eq, List.length_map, List.length_take, length_ranked, Nat.min_eq_left h]

theorem keptOf_pairwise_lt (k : Nat) (xs : List Num) : (keptOf k xs).Pairwise (· < ·) := by
  rw [keptOf_eq]
  exact sortBy_lt_pairwise (((List.take_sublist k _).map _).nodup (nodup_fst_ranked xs))

theorem lt_length_of_mem_keptOf {i : Nat} (h : i ∈ keptOf k xs) : i < xs.length := by
  obtain ⟨p, hp, rfl⟩ := mem_keptOf.mp h
  exact (snd_of_mem_ranked (List.mem_of_mem_take hp)).1

/-- An element that is dropped does not stand before one that is kept. -/
theorem not_prunesBefore_kept {i j : Nat} (hi : i ∈ keptOf k xs) (hj : j < xs.length) (hdrop : j ∉ keptOf k xs) :
    prunesBefore (j, nthD Num.zero xs j) (i, nthD Num.zero xs i) = false := by
  obtain ⟨p, hp, rfl⟩ := mem_keptOf.mp hi
  have hjin : (j, nthD Num.zero xs j) ∈ (ranked xs).take k ++ (ranked xs).drop k := (List.take_append_drop k _).symm ▸ mem_ranked hj
  have hjdrop := (List.mem_append.mp hjin).resolve_left fun h => hdrop (mem_keptOf.mpr ⟨_, h, rfl⟩)
  have hsorted := sortBy_pairwise prunesBefore_trans prunesBefore_asymm ((List.range xs.length).zip xs)
  rw [← List.take_append_drop k (sortBy _ _), List.pairwise_append] at hsorted
  rw [← (snd_of_mem_ranked (List.mem_of_mem_take hp)).2]
  exact hsorted.2.2 p hp _ hjdrop

/-- No NaN is dropped for a number and no magnitude for a smaller one, and of equals the lower index is kept (08 R419). -/
theorem keptOf_keeps_largest {i j : Nat} (hi : i ∈ keptOf k xs) (hj : j < xs.length) (hdrop : j ∉ keptOf k xs) :
    (nthD Num.zero xs j = .nan → nthD Num.zero xs i = .nan ∧ i < j) ∧
    (nthD Num.zero xs i ≠ .nan → (nthD Num.zero xs i).abs.lt (nthD Num.zero xs j).abs = false ∧
      ((nthD Num.zero xs j).abs.lt (nthD Num.zero xs i).abs = false → i < j)) := by
  have hne : i ≠ j := fun h => hdrop (h ▸ hi)
  have hafter := mt (prunesBefore_iff _ _).mpr (ne_true_of_eq_false (not_prunesBefore_kept hi hj hdrop))
  generalize nthD Num.zero xs i = x, nthD Num.zero xs j = y at hafter
  simp only [largerMag] at hafter
  grind

end

end Sys2Proof.Machine

/-! SUPPORT. The combine of a destination's pieces (08 R405), the entries of a table of ALIAS_BUILD (R401) and the optimiser's update of one
element (R411), and O33. -/

namespace Sys2Proof.Machine

/-! ### Combining pieces -/

/-- The fixed tree pairs neighbours and passes an odd last piece up; the native combine takes the pieces in their order (08 R405). -/
theorem combine_few (op : Nat) (a b c d e : List (U32 × Nat)) :
    (combine op false [a, b, c, d]).1 = (combineRows op (combineRows op (combineRows op a b).1 c).1 d).1 ∧
    (combine op true [a, b, c, d]).1 = (combineRows op (combineRows op a b).1 (combineRows op c d).1).1 ∧
    (combine op true [a, b, c]).1 = (combineRows op (combineRows op a b).1 c).1 ∧
    (combine op true [a, b, c, d, e]).1 = (combineRows op (combineRows op (combineRows op a b).1 (combineRows op c d).1).1 e).1 ∧
    (combine op true [a]).1 = a ∧ (combine op false [a]).1 = a :=
  ⟨rfl, rfl, rfl, rfl, rfl, rfl⟩

/-! ### Byte strings of equal entries -/

theorem leBytes_size : ∀ n v, (leBytes n v).length = n
  | 0, _ => rfl
  | n + 1, v => congrArg (· + 1) (leBytes_size n (v / 256))

theorem leNat_leBytes : ∀ {n v : Nat}, v < 256 ^ n → leNat (leBytes n v) = v
  | 0, v, h => by
    rw [Nat.pow_zero, Nat.lt_one_iff] at h
    rw [h]
    rfl
  | n + 1, v, h => by
    have hrest : v / 256 < 256 ^ n := Nat.div_lt_of_lt_mul (by rwa [Nat.pow_succ, Nat.mul_comm] at h)
    rw [leBytes, leNat, leNat_leBytes hrest, BitVec.toNat_ofNat]
    exact Nat.mod_add_div v 256

section
variable {α : Type} {f : α → List Byte} {w : Nat}

theorem length_flatMap_of_length_eq : ∀ {l : List α}, (∀ x ∈ l, (f x).length = w) → (l.flatMap f).length = w * l.length
  | [], _ => rfl
  | x :: t, h => by
    rw [List.flatMap_cons, List.length_append, h x List.mem_cons_self, length_flatMap_of_length_eq fun y hy => h y (List.mem_cons_of_mem x hy),
      List.length_cons, Nat.mul_succ, Nat.add_comm]

theorem drop_flatMap_of_length_eq : ∀ {l : List α} (i : Nat), (∀ x ∈ l, (f x).length = w) →
    (l.flatMap f).drop (w * i) = (l.drop i).flatMap f
  | _, 0, _ => rfl
  | [], _ + 1, _ => List.drop_nil
  | x :: t, i + 1, h => by
    have hx : (f x).length ≤ w * (i + 1) := by
      rw [h x List.mem_cons_self]
      exact Nat.le_mul_of_pos_right w (Nat.succ_pos i)
    rw [List.flatMap_cons, List.drop_append, List.drop_eq_nil_of_le hx, List.nil_append, h x List.mem_cons_self, Nat.mul_succ, Nat.add_sub_cancel,
      drop_flatMap_of_length_eq i fun y hy => h y (List.mem_cons_of_mem x hy), List.drop_succ_cons]

end

/-! ### Tables of ALIAS_BUILD -/

/-- An entry of such a table: PROB and the number of a neighbour (08 R401). -/
def AliasEntry (n : Nat) (bs : List Byte) : Prop := ∃ prob neighbour, bs = leBytes 4 prob ++ leBytes 4 neighbour ∧ neighbour < n

theorem AliasEntry.length {n : Nat} {bs : List Byte} (h : AliasEntry n bs) : bs.length = 8 := by
  obtain ⟨prob, neighbour, rfl, -⟩ := h
  rw [List.length_append, leBytes_size, leBytes_size]

theorem AliasEntry.fieldAt_lt {n : Nat} {bs : List Byte} (h : AliasEntry n bs) (hn : n < 2 ^ 32) (rest : List Byte) :
    fieldAt (bs ++ rest) 4 4 < n := by
  obtain ⟨prob, neighbour, rfl, hneighbour⟩ := h
  have hprob := leBytes_size 4 prob
  rw [fieldAt, List.append_assoc, List.drop_left' hprob, List.take_left' (leBytes_size 4 neighbour), leNat_leBytes (by omega)]
  exact hneighbour

/-- The large pool only shrinks, so that what it gives is a neighbour. -/
theorem voseLoop_alias_lt {n : Nat} : ∀ (fuel : Nat) (v : Vose), (∀ l ∈ v.large, l < n) → (∀ e ∈ v.entries, e.2.2 < n) →
    ∀ e ∈ (voseLoop fuel v).entries, e.2.2 < n
  | 0, _, _, hentries => hentries
  | fuel + 1, v, hlarge, hentries => by
    rw [voseLoop]
    split
    next s st l lt _ hl =>
      rw [hl] at hlarge
      refine voseLoop_alias_lt fuel _ (fun x hx => hlarge x ?_) fun e he => ?_
      · dsimp only at hx
        split at hx
        · exact List.mem_cons_of_mem l hx
        · exact hx
      · obtain rfl | he := List.mem_cons.mp he
        · exact hlarge l List.mem_cons_self
        · exact hentries e he
    next => exact hentries

theorem voseTable_entries {ws : List U32} {bytes : List Byte} {fl : Fl} (h : voseTable ws = (some bytes, fl)) :
    ∃ entry, bytes = (List.range ws.length).flatMap entry ∧ ∀ i ∈ List.range ws.length, AliasEntry ws.length (entry i) := by
  unfold voseTable at h
  split at h
  next => cases h
  next =>
    dsimp only at h
    split at h
    next => cases h
    next =>
      cases h
      refine ⟨_, rfl, fun i hi => ?_⟩
      split
      next e he =>
        refine ⟨_, _, rfl, voseLoop_alias_lt _ _ (fun l hl => ?_) (fun e he => absurd he List.not_mem_nil) e (List.mem_of_find?_eq_some he)⟩
        exact List.mem_range.mp (List.mem_filter.mp hl).1
      next => exact ⟨_, _, rfl, List.mem_range.mp hi⟩

theorem voseTable_good {ws : List U32} {bytes : List Byte} {fl : Fl} (h : voseTable ws = (some bytes, fl)) (hn : ws.length < 2 ^ 32) :
    bytes.length = 8 * ws.length ∧ ∀ i, i < ws.length → fieldAt bytes (8 * i + 4) 4 < ws.length := by
  obtain ⟨entry, rfl, hentry⟩ := voseTable_entries h
  have hlen : ∀ i ∈ List.range ws.length, (entry i).length = 8 := fun i hi => (hentry i hi).length
  refine ⟨by rw [length_flatMap_of_length_eq hlen, List.length_range], fun i hi => ?_⟩
  have hi' : i < (List.range ws.length).length := by rwa [List.length_range]
  have hat : fieldAt ((List.range ws.length).flatMap entry) (8 * i + 4) 4 =
      fieldAt (entry i ++ ((List.range ws.length).drop (i + 1)).flatMap entry) 4 4 := by
    rw [fieldAt, ← List.drop_drop, drop_flatMap_of_length_eq i hlen, List.drop_eq_getElem_cons hi', List.getElem_range,
      List.flatMap_cons, fieldAt]
  rw [hat]
  exact (hentry i (List.mem_range.mpr hi)).fieldAt_lt hn _

/-! ### The update of one element -/

section
variable (code : Nat) (h : Hyper) (w m v : U32)

/-- The gradient without the loss scale, with the coupled decay (08 R411). -/
def coupledGrad (g : U32) : U32 :=
  if (fp32 h.wd).isZero then (fmul g h.inv).1 else (fadd (fmul g h.inv).1 (fmul h.wd w).1).1

/-- The new weight for a step u (08 R411). -/
def stepped (u : U32) : U32 := (fsub w (fmul h.lr u).1).1

/-- The moment β·m + (1 − β)·x (08 R411). -/
def decayed (b m x : U32) : U32 := (fadd (fmul b m).1 (fmul (fsub 0x3F800000 b).1 x).1).1

/-- A value over the root of a second moment and ε (08 R411). -/
def overRoot (x v : U32) : U32 := (fdiv x (fadd (fsqrt v).1 h.eps).1).1

/-- The new w, m and v of an element, without the flags. -/
def newValues (g : FV) : U32 × U32 × U32 := ((optElem code h w m v g).1, (optElem code h w m v g).2.1, (optElem code h w m v g).2.2.1)

end

theorem optGrad_coupled {code : Nat} (hcode : code ≠ 8) (h : Hyper) (w g : U32) : (optGrad code h w g).1 = coupledGrad h w g := by
  rw [optGrad, coupledGrad]
  cases hz : (fp32 h.wd).isZero with
  | true =>
    rw [if_neg (fun hc => absurd hc.2 (by decide))]
    rfl
  | false =>
    rw [if_pos ⟨hcode, rfl⟩]
    rfl

theorem optGrad_adamW (h : Hyper) (w g : U32) : (optGrad 8 h w g).1 = (fmul g h.inv).1 := by
  rw [optGrad, if_neg (fun hc => hc.1 rfl)]
  rfl

section
variable {h : Hyper} {w m v c : U32} {g : FV} (hg : g.1 = c)
include hg

theorem newValues_sgd : newValues 1 h w m v g = (stepped h w c, m, v) := by
  subst hg
  rfl

theorem newValues_momentum : newValues 2 h w m v g = (stepped h w (fadd (fmul h.b1 m).1 c).1, (fadd (fmul h.b1 m).1 c).1, v) := by
  subst hg
  rfl

theorem newValues_nesterov : newValues 3 h w m v g =
    (stepped h w (fadd c (fmul h.b1 (fadd (fmul h.b1 m).1 c).1).1).1, (fadd (fmul h.b1 m).1 c).1, v) := by
  subst hg
  rfl

theorem newValues_adagrad : newValues 4 h w m v g =
    (stepped h w (overRoot h c (fadd v (fmul c c).1).1), m, (fadd v (fmul c c).1).1) := by
  subst hg
  rfl

theorem newValues_rowAdagrad : newValues 5 h w m v g = (stepped h w (overRoot h c v), m, v) := by
  subst hg
  rfl

theorem newValues_rmsProp : newValues 6 h w m v g =
    (stepped h w (overRoot h c (decayed h.b2 v (fmul c c).1)), m, decayed h.b2 v (fmul c c).1) := by
  subst hg
  rfl

theorem newValues_adam : newValues 7 h w m v g =
    (stepped h w (overRoot h (fdiv (decayed h.b1 m c) h.bc1).1 (fdiv (decayed h.b2 v (fmul c c).1) h.bc2).1),
      decayed h.b1 m c, decayed h.b2 v (fmul c c).1) := by
  subst hg
  rfl

/-- AdamW adds its decay to the step, not to the gradient. -/
theorem newValues_adamW : newValues 8 h w m v g =
    (let u := overRoot h (fdiv (decayed h.b1 m c) h.bc1).1 (fdiv (decayed h.b2 v (fmul c c).1) h.bc2).1
     (stepped h w (if (fp32 h.wd).isZero then u else (fadd u (fmul h.wd w).1).1), decayed h.b1 m c, decayed h.b2 v (fmul c c).1)) := by
  subst hg
  simp only [newValues, optElem]
  cases hz : (fp32 h.wd).isZero <;> rfl

end

/-- Settles O33: pieces by the shape of the combine, pruning by the order of magnitudes, tables by their entries, and the update
optimiser by optimiser. -/
theorem optimiserUpdateIsTheTable : Obligations.OptimiserUpdateIsTheTable := by
  unfold Obligations.OptimiserUpdateIsTheTable
  refine ⟨⟨combine_few, fun k xs hk => ?_, fun ws bytes fl => voseTable_good⟩, fun h w m v g => ?_⟩
  · exact ⟨length_keptOf hk, keptOf_pairwise_lt k xs, fun i => lt_length_of_mem_keptOf, fun i hi j => keptOf_keeps_largest hi⟩
  · have hgrad : ∀ {code : Nat}, code ≠ 8 → (optGrad code h w g).1 = coupledGrad h w g := fun hcode => optGrad_coupled hcode h w g
    refine ⟨fun code hcode => hgrad ?_, optGrad_adamW h w g, newValues_sgd (hgrad (by decide)),
      ⟨newValues_momentum (hgrad (by decide)), newValues_nesterov (hgrad (by decide))⟩, newValues_adagrad (hgrad (by decide)),
      newValues_rowAdagrad (hgrad (by decide)), ⟨newValues_rmsProp (hgrad (by decide)), newValues_adam (hgrad (by decide))⟩,
      newValues_adamW (optGrad_adamW h w g)⟩
    rintro rfl
    exact absurd hcode (by decide)

end Sys2Proof.Machine

/-! SUPPORT. The versions of a region's granules through a commit, a skip, a revert and a settle (08 R423, R435-R441), and O36. -/

namespace Sys2Proof.Machine

theorem contains_symDiff (a b : List Nat) (x : Nat) : (symDiff a b).contains x = (a.contains x ^^ b.contains x) := by
  rw [Bool.eq_iff_iff, List.contains_iff_mem, symDiff, List.mem_append, List.mem_filter, List.mem_filter]
  by_cases ha : x ∈ a <;> by_cases hb : x ∈ b <;> simp [ha, hb]

namespace Region
variable {r : Region} {step va : Nat}

/-! ### The version that is read -/

theorem committed_commit_of_provisional (h : (va - r.base) / 256 ∈ r.provisional) : (r.commit step).committed va = r.inactive va := by
  simp only [committed, inactive, commit, contains_symDiff, List.contains_iff_mem.mpr h]
  cases r.inShadow.contains ((va - r.base) / 256) <;> rfl

theorem inactive_commit_of_provisional (h : (va - r.base) / 256 ∈ r.provisional) : (r.commit step).inactive va = r.committed va := by
  simp only [committed, inactive, commit, contains_symDiff, List.contains_iff_mem.mpr h]
  cases r.inShadow.contains ((va - r.base) / 256) <;> rfl

theorem committed_commit_of_not_provisional (h : (va - r.base) / 256 ∉ r.provisional) : (r.commit step).committed va = r.committed va := by
  have hout : r.provisional.contains ((va - r.base) / 256) = false := by rwa [← Bool.not_eq_true, List.contains_iff_mem]
  simp only [committed, commit, contains_symDiff, hout, Bool.xor_false]

/-! ### What a revert takes back -/

/-- The granules that a revert flips back are those that the commit of its step flipped (08 R441). -/
theorem flipped_commit (hnew : ∀ u ∈ r.unsettled, u.2 ≠ step) :
    ((r.commit step).unsettled.filter fun u => u.2 == step) = r.provisional.map fun g => (g, step) := by
  have hold : (r.unsettled.filter fun u => u.2 == step) = [] := by
    simpa [List.filter_eq_nil_iff] using hnew
  have hall : ((r.provisional.map fun g => (g, step)).filter fun u => u.2 == step) = r.provisional.map fun g => (g, step) := by
    simp [List.filter_eq_self]
  rw [commit, List.filter_append, hold, hall, List.nil_append]

theorem unsettled_revert_commit (hnew : ∀ u ∈ r.unsettled, u.2 ≠ step) : ((r.commit step).revert step).unsettled = r.unsettled := by
  have hold : (r.unsettled.filter fun u => u.2 != step) = r.unsettled := by
    simpa [List.filter_eq_self] using hnew
  have hall : ((r.provisional.map fun g => (g, step)).filter fun u => u.2 != step) = [] := by
    simp [List.filter_eq_nil_iff]
  calc ((r.commit step).revert step).unsettled = r.unsettled.filter (fun u => u.2 != step) ++
        (r.provisional.map fun g => (g, step)).filter fun u => u.2 != step := List.filter_append ..
    _ = r.unsettled := by rw [hold, hall, List.append_nil]

theorem committed_revert_commit (hnew : ∀ u ∈ r.unsettled, u.2 ≠ step) : ((r.commit step).revert step).committed va = r.committed va := by
  have hgs : ((r.commit step).unsettled.filter fun u => u.2 == step).map (fun u => u.1) = r.provisional := by
    rw [flipped_commit hnew, List.map_map]
    exact List.map_id _
  have hback : ((r.commit step).revert step).inShadow.contains ((va - r.base) / 256) = r.inShadow.contains ((va - r.base) / 256) := by
    rw [revert, hgs, contains_symDiff, commit, contains_symDiff, Bool.xor_assoc, Bool.xor_self, Bool.xor_false]
  exact congrArg (fun b : Bool => if b then r.shadow + (va - r.base) else va) hback

/-! ### What waits for the settle -/

theorem mem_granules {n i : Nat} (hbase : r.base ≤ va) (hi : i < n) : (va + i - r.base) / 256 ∈ r.granules va n := by
  simp only [granules, if_neg (Nat.ne_of_gt (Nat.zero_lt_of_lt hi)), List.mem_map, List.mem_range]
  exact ⟨(va + i - r.base) / 256 - (va - r.base) / 256, by omega, by omega⟩

theorem unsettledIn_commit {n i : Nat} (hbase : r.base ≤ va) (hi : i < n) (hprov : (va + i - r.base) / 256 ∈ r.provisional) :
    (r.commit step).unsettledIn va n = true := by
  have hflip : ((va + i - r.base) / 256, step) ∈ (r.commit step).unsettled :=
    List.mem_append_right _ (List.mem_map.mpr ⟨_, hprov, rfl⟩)
  exact List.any_eq_true.mpr ⟨_, mem_granules (r := r.commit step) hbase hi, List.any_eq_true.mpr ⟨_, hflip, beq_self_eq_true _⟩⟩

end Region

/-- Settles O36: membership in the shadow after a commit is an exclusive or with the provisional granules, which a revert
repeats. -/
theorem versionsFlipAndRevert : Obligations.VersionsFlipAndRevert := by
  unfold Obligations.VersionsFlipAndRevert
  intro r step va _ _ hnew
  exact ⟨fun h => ⟨Region.committed_commit_of_provisional h, Region.inactive_commit_of_provisional h⟩,
    Region.committed_commit_of_not_provisional, rfl, rfl, rfl, Region.committed_revert_commit hnew, Region.unsettled_revert_commit hnew, rfl,
    fun n _ hbase ⟨i, hi, hprov⟩ => Region.unsettledIn_commit hbase hi hprov⟩

end Sys2Proof.Machine

/-! SUPPORT. How a step operation runs and what the loss-scale policy does (08 R444), and O37. -/

namespace Sys2Proof.Machine

/-! ### Step operations -/

/-- A step operation of the half that comes first does its work and the half's share is done. -/
theorem stepOp_runs {s t : State} {h : Half} {r : Running} {c : Context} {op : Nat} {f : State → Context → Running → Except CmdErr State}
    (hruns : Runs s (.rim h) (rimSel op) r c) (hno : noStreams (.rim h) r.word = .ok ()) (hfirst : otherDone s h r.ref = false)
    (hf : f s c r = .ok t) : stepOp op h f s = armWaits (shareDone t (.rim h) r.ref) := by
  refine withRunning_ok hruns ?_
  simp only [onceOp, hfirst, hno, ok_bind, hf, Except.map]
  rfl

theorem scaleSet_loads {s : State} {h : Half} {r : Running} {c : Context} {b : List Byte} (hread : readVa s c .rd (auxOf r.word) 32 = .ok b) :
    scaleSet h s c r = .ok (setCtx s c.sess fun c => { c with rim := loadPolicy b c.rim }) := by
  simp only [scaleSet, hread, memTry_ok, ok_bind]
  rfl

/-! ### The record of a policy -/

theorem fieldAt_append_left {bs : List Byte} (t : List Byte) {off w : Nat} (h : off + w ≤ bs.length) :
    fieldAt (bs ++ t) off w = fieldAt bs off w := by
  have hfits : w ≤ (bs.drop off).length := by rw [List.length_drop]; omega
  rw [fieldAt, List.drop_append_of_le_length (by omega), List.take_append_of_le_length hfits, fieldAt]

theorem loadPolicy_eq {b : List Byte} (hb : b.length = 32) (r : RimState) :
    loadPolicy b r = { restoreRim b r with lastDecided := r.lastDecided } := by
  simp only [loadPolicy, restoreRim, List.append_assoc]
  repeat rw [fieldAt_append_left _ (by omega)]

/-! ### Decisions -/

section
variable {r : RimState}

theorem lossScale_off (hoff : r.lsMode = false) (b : Bool) : lossScale b r = r := if_pos hoff

theorem lossScale_counts (hon : r.lsMode = true) (hmore : (r.lsClean + 1).toNat < r.lsInterval.toNat) :
    lossScale true r = { r with lsClean := r.lsClean + 1 } := by
  simp only [lossScale, hon, Bool.true_eq_false, if_false, if_true, if_neg (Nat.not_le_of_lt hmore)]

theorem lossScale_grows (hon : r.lsMode = true) (hdue : r.lsInterval.toNat ≤ (r.lsClean + 1).toNat) : lossScale true r =
    { r with lsScale := if (fp32 r.lsMax).lt (fp32 (fmul r.lsScale r.lsGrowth).1) then r.lsMax else (fmul r.lsScale r.lsGrowth).1,
             lsClean := 0 } := by
  simp only [lossScale, hon, Bool.true_eq_false, if_false, if_true, if_pos hdue]

theorem lossScale_backsOff (hon : r.lsMode = true) : lossScale false r =
    { r with lsScale := if (fp32 (fmul r.lsScale r.lsBackoff).1).lt (fp32 r.lsMin) then r.lsMin else (fmul r.lsScale r.lsBackoff).1,
             lsClean := 0 } := by
  simp only [lossScale, hon, Bool.true_eq_false, Bool.false_eq_true, if_false]

end

/-- Settles O37: the operation, its record and each case of a decision by its own lemma. -/
theorem lossScalePolicyHolds : Obligations.LossScalePolicyHolds := by
  unfold Obligations.LossScalePolicyHolds
  refine ⟨fun s h r c b hno hfirst hruns hread => congrArg _ (stepOp_runs hruns hno hfirst (scaleSet_loads hread)), fun b r hb => ?_,
    fun r b => ⟨fun hoff => lossScale_off hoff b, lossScale_counts, lossScale_grows, lossScale_backsOff⟩⟩
  dsimp only
  rw [loadPolicy_eq hb]
  exact ⟨rfl, rfl, rfl, rfl, rfl, rfl, rfl, rfl, rfl, rfl, rfl, rfl⟩

end Sys2Proof.Machine

/-! SUPPORT. What a member does with a vote and an abort on the sentinel's path, and the timeouts of steps and requests (05 R264; 08
R433, R440-R442; 09 R496; 11 R594, R595), and O51. -/

namespace Sys2Proof.Machine

/-! ### Packets of the path -/

theorem withResident_active {t t1 : State} {p : Packet} {c c1 : Context} (f : State → Context → State)
    (hactive : activateByPacket t c.sess = (t1, true)) (hctx : findCtx t1 c.sess = some c1) : withResident t p c f = f t1 c1 := by
  simp only [withResident, hactive, hctx, if_true]

section
variable {s t t1 : State} {p : Packet} {c c1 : Context} {g : Group} {axis : Nat}

/-- The state of a round that a packet brings along an axis (08 R433). -/
def voteOf (p : Packet) (axis : Nat) : VoteRx :=
  { step := p.step.toNat, settle := p.a.toNat / 2 % 2 == 1, phase := axis, src := p.srcMod.toNat, set := p.a.toNat % 2 == 1,
    lowest := p.b.toNat % 4096 }

/-- A member keeps the last state of a round and phase from each other member. -/
def keepVote (v : VoteRx) (g : Group) : Group :=
  { g with votes := v :: g.votes.filter fun x => !(x.step == v.step && x.settle == v.settle && x.phase == v.phase && x.src == v.src) }

theorem voteReceived_takes (hflood : Floods s p 0x0D t c g axis) (hactive : activateByPacket t c.sess = (t1, true))
    (hctx : findCtx t1 c.sess = some c1) : voteReceived s p =
      if (voteOf p axis).settle then advanceSettle 4 (setGroup t1 c1.sess g.handle (keepVote (voteOf p axis))) c1.sess (voteOf p axis).step
      else advanceVote 4 (setGroup t1 c1.sess g.handle (keepVote (voteOf p axis))) c1.sess := by
  rw [voteReceived, withFlood_floods _ hflood, withResident_active _ hactive hctx]
  rfl

/-! ### Aborts -/

/-- The member knows no abort for this collective or step of an originator as low (11 R595). -/
def LowerAbort (g : Group) (kind seq origin : Nat) : Prop :=
  ∀ y, (g.aborts.find? fun y => y.1 == kind && y.2.1 == seq) = some y → origin < y.2.2.1

/-- The abort is for a collective that has ended here. -/
def AbortOver (g : Group) (kind seq : Nat) : Prop := kind = 0 ∧ seq < g.nextSeq ∧ ∀ y, g.current = some y → y.seq ≠ seq

theorem lowerAbort_iff (g : Group) (kind seq origin : Nat) :
    (match g.aborts.find? fun x => x.1 == kind && x.2.1 == seq with | some x => decide (origin < x.2.2.1) | none => true) = true ↔
      LowerAbort g kind seq origin := by
  unfold LowerAbort
  split
  next x hx => simp [hx]
  next hx => simp [hx]

theorem current_ne_iff (g : Group) (seq : Nat) :
    (match g.current with | some x => x.seq == seq | none => false) = false ↔ ∀ y, g.current = some y → y.seq ≠ seq := by
  split
  next x hx => simp [hx]
  next hx => simp [hx]

/-- What a member does with an abort that it keeps: it sends it on along the later axes and acts on it (08 R441; 11 R594, R595). -/
def actOnAbort (now : Nat) (t : State) (c : Context) (g : Group) (axis kind seq origin err : Nat) : State :=
  let s1 := floodAbort (setGroup t c.sess g.handle (keepAbort kind seq origin err)) c g (axis + 1) kind seq origin err
  match kind with
  | 0 => setGroup s1 c.sess g.handle (noteCollAbort now seq origin err)
  | 1 => decisionAbort s1 c seq origin err
  | _ => setSettle s1 c.sess seq fun y => { y with aborted := true }

theorem actOnAbort_eq (now : Nat) (t : State) (c : Context) (g : Group) (axis kind seq origin err : Nat) :
    actOnAbort now t c g axis kind seq origin err =
      let s1 := floodAbort (setGroup t c.sess g.handle (keepAbort kind seq origin err)) c g (axis + 1) kind seq origin err
      if kind = 0 then setGroup s1 c.sess g.handle (noteCollAbort now seq origin err)
      else if kind = 1 then decisionAbort s1 c seq origin err
      else setSettle s1 c.sess seq fun y => { y with aborted := true } := by
  match kind with
  | 0 => rfl
  | 1 => rfl
  | _ + 2 => rfl

theorem abortSkipped_iff (g : Group) (kind seq origin : Nat) :
    ((match g.aborts.find? fun x => x.1 == kind && x.2.1 == seq with | some x => decide (origin < x.2.2.1) | none => true) = false ∨
      (kind = 0 ∧ seq < g.nextSeq ∧ (match g.current with | some x => x.seq == seq | none => false) = false)) ↔
    (¬ LowerAbort g kind seq origin ∨ AbortOver g kind seq) := by
  rw [← lowerAbort_iff, Bool.not_eq_true, current_ne_iff]
  rfl

theorem abortReceived_ignores (hflood : Floods s p 0x0E t c g axis) (hactive : activateByPacket t c.sess = (t1, true))
    (hctx : findCtx t1 c.sess = some c1)
    (hskip : ¬ LowerAbort g (p.a.toNat / 65536 % 4) p.msg.toNat (p.b.toNat % 4096) ∨ AbortOver g (p.a.toNat / 65536 % 4) p.msg.toNat) :
    abortReceived s p = t1 := by
  rw [abortReceived, withFlood_floods _ hflood, withResident_active _ hactive hctx]
  exact if_pos ((abortSkipped_iff ..).mpr hskip)

theorem abortReceived_acts (hflood : Floods s p 0x0E t c g axis) (hactive : activateByPacket t c.sess = (t1, true))
    (hctx : findCtx t1 c.sess = some c1) (hlower : LowerAbort g (p.a.toNat / 65536 % 4) p.msg.toNat (p.b.toNat % 4096))
    (hopen : ¬ AbortOver g (p.a.toNat / 65536 % 4) p.msg.toNat) :
    abortReceived s p = actOnAbort s.now t1 c1 g axis (p.a.toNat / 65536 % 4) p.msg.toNat (p.b.toNat % 4096) (p.a.toNat % 65536) := by
  have hkept := mt (abortSkipped_iff g _ _ _).mp fun h => h.elim (absurd hlower) hopen
  rw [abortReceived, withFlood_floods _ hflood, withResident_active _ hactive hctx]
  exact (if_neg hkept).trans (actOnAbort_eq ..).symm

end

/-! ### Timeouts of steps -/

section
variable {s : State} {c : Context} {g : Group} {sess : U32}

theorem decisionTimeout_early {v : VoteState} (hctx : findCtx s sess = some c) (hvote : c.vote = some v) (hgroup : findGroup c v.group = some g)
    (hearly : s.now < v.castAt + g.timeoutNs) : decisionTimeout s sess = s := by
  simp only [decisionTimeout, hctx, hvote, hgroup, hearly, Option.bind_some, Option.map_some, or_true, if_true]

theorem decisionTimeout_acts {v : VoteState} (hctx : findCtx s sess = some c) (hvote : c.vote = some v) (hgroup : findGroup c v.group = some g)
    (hopen : v.decision = .none) (hdue : v.castAt + g.timeoutNs ≤ s.now) :
    decisionTimeout s sess = releaseHeld (originateAbort (voteAborted (if c.rim.pending = v.step then skipStep s sess v.step else s) sess
      (myNumber s) faultTimeoutColl) sess g.handle 1 v.step faultTimeoutColl) sess := by
  have hgo : ¬ (v.decision ≠ .none ∨ s.now < v.castAt + g.timeoutNs) := by simp [hopen, hdue]
  simp only [decisionTimeout, hctx, hvote, hgroup, Option.bind_some, Option.map_some, if_neg hgo]

theorem settleTimeout_acts {x : Settle} {rest : List Settle} (hctx : findCtx s sess = some c) (hsettles : c.settles = x :: rest)
    (hopen : x.aborted = false) (hgroup : findGroup c x.group = some g) (hdue : x.startedAt + g.timeoutNs ≤ s.now) :
    settleTimeout s sess = originateAbort (setSettle s sess x.step fun x => { x with aborted := true }) sess x.group 2 x.step
      faultTimeoutColl := by
  simp only [settleTimeout, hctx, hsettles, List.find?_cons, hopen, hgroup, hdue, Bool.not_false, decide_true, Bool.and_self]

end

/-! ### Timeouts of requests -/

section
variable {s : State} {c : Context} {g : Group}

theorem replyTimeout_eq {id : Nat} {q : Request}
    (hfind : (s.requests.find? fun q => q.id == id && !q.stopped && (q.state == ReqState.remote || q.state == ReqState.held)) = some q)
    (hctx : findCtx s q.sess = some c) (hgroup : (if q.state = .remote then findGroup c q.group else heldGroup c q) = some g) :
    replyTimeout s id = if q.issuedAt + g.timeoutNs ≤ s.now
      then faultCommand s q.ref (.group faultTimeoutColl (myNumber s) (CoreId.unit q.splint)) else s := by
  simp only [replyTimeout, hfind, hctx, hgroup]

theorem contribTimeout_eq {h : Half} {q : RemoteReq} (hreqs : s.remoteReqs = [q]) (htype : q.type = 0x0A)
    (hgroup : groupOfReq s q.sess q.group = some g) :
    contribTimeout s h = if q.stopped = false ∧ q.sentAt + g.timeoutNs ≤ s.now ∧ (∃ r ∈ (findEngine s (.splints h)).running, r.ref = q.ref)
      then faultCommand s q.ref (.group faultTimeoutColl (myNumber s) h.num) else s := by
  have hlate : (q.type == 0x0A && !q.stopped && ((findEngine s (.splints h)).running.any fun r => r.ref == q.ref) &&
      decide (q.sentAt + g.timeoutNs ≤ s.now)) = true ↔
      q.stopped = false ∧ q.sentAt + g.timeoutNs ≤ s.now ∧ (∃ r ∈ (findEngine s (.splints h)).running, r.ref = q.ref) := by
    simp only [htype, beq_self_eq_true, Bool.true_and, Bool.and_eq_true, Bool.not_eq_true', decide_eq_true_eq, List.any_eq_true, beq_iff_eq]
    exact and_right_comm.trans and_assoc
  simp only [contribTimeout, hreqs, List.find?_cons, List.find?_nil, hgroup]
  by_cases hdue : q.stopped = false ∧ q.sentAt + g.timeoutNs ≤ s.now ∧ (∃ r ∈ (findEngine s (.splints h)).running, r.ref = q.ref)
  · rw [if_pos hdue, hlate.mpr hdue]
  · rw [if_neg hdue, eq_false_of_ne_true (mt hlate.mp hdue)]

end

/-- Settles O51: a vote, an abort and each timeout by its own lemma. -/
theorem votesAndAbortsAreTakenUp : Obligations.VotesAndAbortsAreTakenUp := by
  unfold Obligations.VotesAndAbortsAreTakenUp
  intro s p t t1 c c1 g axis sess
  refine ⟨fun hflood hactive hctx => congrArg _ (voteReceived_takes hflood hactive hctx),
    fun hflood hactive hctx => ⟨fun hskip => ?_, fun hlower hopen => ?_⟩,
    fun v hctx hvote hgroup hopen => ⟨fun hearly => ?_, fun hdue => ?_⟩, fun x rest hctx hsettles hopen hgroup hdue => ?_,
    fun id q hfind hctx hgroup => ?_, fun h q hreqs htype hgroup => ?_⟩
  · exact congrArg _ (abortReceived_ignores hflood hactive hctx hskip)
  · exact congrArg _ (abortReceived_acts hflood hactive hctx hlower hopen)
  · exact congrArg _ (decisionTimeout_early hctx hvote hgroup hearly)
  · exact congrArg _ (decisionTimeout_acts hctx hvote hgroup hopen hdue)
  · exact congrArg _ (settleTimeout_acts hctx hsettles hopen hgroup hdue)
  · exact congrArg _ (replyTimeout_eq hfind hctx hgroup)
  · exact congrArg _ (contribTimeout_eq hreqs htype hgroup)

end Sys2Proof.Machine

/-! SUPPORT. How staged rows are programmed, what a sync finds and what the care of blocks leaves of the units that it moves
(10 R511, R512, R527-R529, R536-R541), and O45. -/

namespace Sys2Proof.Machine

/-! ### What leaves the staging buffer as it is -/

section
variable (s : State)

@[simp] theorem setTier_staging (sess : U32) (h : Nat) (f : TierTable → TierTable) : (setTier s sess h f).tier.staging = s.tier.staging := rfl

@[simp] theorem bumpTier_staging (sess : U32) (i n : Nat) : (bumpTier s sess i n).tier.staging = s.tier.staging := rfl

@[simp] theorem countProgram_staging (sess : U32) (k : Nat) : (countProgram s sess k).tier.staging = s.tier.staging := rfl

/-- The bucket holds w after n bytes more were programmed (10 R535). -/
def wearMetered (w n : Nat) : State :=
  { s with tier := { s.tier with wearBytes := w, wearAt := s.now, lifeBytes := s.tier.lifeBytes + n } }

/-- A full bucket raises WEAR_THROTTLE and tells PF0 (10 R536). -/
def throttleRaised : State := telemetryEvent { s with tier := { s.tier with throttle := true } } 0x000A 0xFFFF

@[simp] theorem wearMetered_staging (w n : Nat) : (wearMetered s w n).tier.staging = s.tier.staging := rfl

@[simp] theorem throttleRaised_staging : (throttleRaised s).tier.staging = s.tier.staging := rfl

theorem meterWear_eq (n : Nat) : meterWear s n =
    if Nat.min wearCapacity (wearNow s + n) = wearCapacity ∧ s.tier.throttle = false then
      addLog (throttleRaised (wearMetered s (Nat.min wearCapacity (wearNow s + n)) n)) 0x0B 0
        { arg0 := Nat.min wearCapacity (wearNow s + n) / 10 ^ 9, code := 0x000A }
    else wearMetered s (Nat.min wearCapacity (wearNow s + n)) n := rfl

@[simp] theorem meterWear_staging (n : Nat) : (meterWear s n).tier.staging = s.tier.staging := by
  rw [meterWear_eq]
  split
  · rw [addLog_tier, throttleRaised_staging, wearMetered_staging]
  · rw [wearMetered_staging]

@[simp] theorem checkSpare_staging (ch : Nat) : (checkSpare s ch).tier.staging = s.tier.staging := by
  unfold checkSpare
  split
  · rfl
  · split <;> rfl

@[simp] theorem releaseRetained_staging (sess : U32) : (releaseRetained s sess).tier.staging = s.tier.staging := by
  unfold releaseRetained
  split
  · rfl
  · dsimp only
    split
    · rfl
    · split <;> rfl

theorem foldl_checkSpare_staging (chs : List Nat) : (chs.foldl checkSpare s).tier.staging = s.tier.staging :=
  List.foldlRecOn (motive := fun t => t.tier.staging = s.tier.staging) chs checkSpare rfl
    fun t ht ch _ => (checkSpare_staging t ch).trans ht

/-- The rows that were programmed leave the staging buffer (10 R512). -/
theorem not_mem_programRows_staging {sess : U32} {h : Nat} {rows : List Staged} {y : Staged} (hy : y ∈ rows) :
    y ∉ (programRows s sess h rows).tier.staging := by
  have hgone (l : List Staged) : y ∉ l.filter fun x => !rows.contains x := fun hmem => by
    simp [hy] at hmem
  unfold programRows
  split
  · exact hgone _
  · rw [foldl_checkSpare_staging, releaseRetained_staging, countProgram_staging, bumpTier_staging, meterWear_staging]
    exact hgone _

end

/-! ### STAGING_PROGRAM -/

theorem firstUnit_mem_unitsOf (t : Table) (row : Nat) : firstUnit t row ∈ unitsOf t row := by
  unfold unitsOf
  split
  · exact List.mem_singleton_self _
  · next hlarge => exact List.mem_map.mpr ⟨0, List.mem_range.mpr ((lt_ceilDiv_iff (by decide)).mpr (by omega)), rfl⟩

/-- The channels of a staged row of the half can take its units (10 R512). -/
def canProgram (s : State) (h : Half) (x : Staged) : Bool :=
  x.half == h && (match tableOfStaged s x with
    | some t => (unitsOf t x.row).all fun u => channelWritable s (channelOf t u)
    | none => false)

/-- The staged rows of a table that share a unit with the row x of it (10 R512). -/
def unitMates (s : State) (t : Table) (x : Staged) : List Staged :=
  s.tier.staging.filter fun y => y.sess == x.sess && y.table == x.table && (unitsOf t y.row).any fun u => (unitsOf t x.row).contains u

section
variable {s : State} {h : Half} {x : Staged} {t : Table}

theorem mem_unitMates_self (hx : x ∈ s.tier.staging) : x ∈ unitMates s t x := by
  have hfirst := firstUnit_mem_unitsOf t x.row
  have hshared : ((unitsOf t x.row).any fun u => (unitsOf t x.row).contains u) = true :=
    List.any_eq_true.mpr ⟨_, hfirst, List.contains_iff_mem.mpr hfirst⟩
  exact List.mem_filter.mpr ⟨hx, by simp only [beq_self_eq_true, hshared, Bool.and_self]⟩

theorem stagingProgram_idle (hnone : s.tier.staging.find? (canProgram s h) = none) : stagingProgram s h = s := by
  unfold stagingProgram
  dsimp only
  split
  · rfl
  · next hsome => cases hsome.symm.trans hnone

/-- The oldest staged row that its channels can take is programmed with its unit mates, unless the wear throttle holds them. -/
theorem stagingProgram_some (hfind : s.tier.staging.find? (canProgram s h) = some x) (ht : tableOfStaged s x = some t) :
    stagingProgram s h = if s.tier.throttle = true ∧ wearCapacity < wearNow s + t.stride * (unitMates s t x).length then s
      else programRows s x.sess x.table (unitMates s t x) := by
  unfold stagingProgram
  dsimp only
  split
  · next hnone => cases hnone.symm.trans hfind
  · next y hsome =>
    cases hsome.symm.trans hfind
    rw [ht]
    rfl

end

/-! ### Syncs -/

/-- Every table of a context synced in turn: the count of rows and the state (10 R528). -/
def syncAll (s : State) (c : Context) (ts : List Table) : Nat × State :=
  ts.foldl (fun a t => (a.1 + (syncTable a.2 c.sess t.handle).1, (syncTable a.2 c.sess t.handle).2)) (0, s)

section
variable {s s1 : State} {c : Context} {ts : List Table} {n u : Nat}

theorem syncTables_media (hcovers : ∃ t ∈ ts, ∃ ch, coversState s t 1 = some ch) : syncTables s c ts = .media := by
  obtain ⟨t, ht, ch, hch⟩ := hcovers
  exact if_pos (List.any_eq_true.mpr ⟨t, ht, by rw [hch]; rfl⟩)

/-- With every channel of its tables in service, a sync waits or programs. -/
theorem syncTables_inService (hserves : ∀ t ∈ ts, coversState s t 1 = none ∧ coversState s t 2 = none) : syncTables s c ts =
    if c.settles ≠ [] ∨ (∃ t ∈ ts, (tierOf t).promoting ≠ []) ∨ s.tier.powerLoss = true then .wait
    else .done (syncAll s c ts).1 (bumpTier (syncAll s c ts).2 c.sess 12 (syncAll s c ts).1) := by
  have hwritable : ¬ (ts.any fun t => (coversState s t 1).isSome) = true := by
    rw [List.any_eq_true]
    rintro ⟨t, ht, hsome⟩
    rw [(hserves t ht).1] at hsome
    cases hsome
  have hup : (ts.findSome? fun t => coversState s t 2) = none := List.findSome?_eq_none_iff.mpr fun t ht => (hserves t ht).2
  have hpromoting : (ts.any fun t => !(tierOf t).promoting.isEmpty) = true ↔ ∃ t ∈ ts, (tierOf t).promoting ≠ [] := by
    simp only [List.any_eq_true, Bool.not_eq_true', List.isEmpty_eq_false_iff]
  simp only [syncTables, if_neg hwritable, hup, hpromoting, syncAll]

theorem trSync_done {r : Running} (hts : coveredTables c (fld r.word 0x10 23 0) = some ts) (hsync : syncTables s c ts = .done n s1) :
    trSync s c r = .ok (shareDone s1 .tier r.ref) := by
  simp only [trSync, hts, hsync]

theorem trSync_wait {r : Running} (hts : coveredTables c (fld r.word 0x10 23 0) = some ts) (hsync : syncTables s c ts = .wait) :
    trSync s c r = .ok s := by
  simp only [trSync, hts, hsync]

theorem trSync_hw {r : Running} (hts : coveredTables c (fld r.word 0x10 23 0) = some ts) (hsync : syncTables s c ts = .hw u) :
    trSync s c r = .error (.hw u) := by
  simp only [trSync, hts, hsync]

variable {fn : Nat} {tag : U16} {o : Outstanding}

theorem tierSync_done (hctx : findCtx s o.sub.session = some c) (hts : coveredTables c (P0 o % 2 ^ 24) = some ts)
    (hsync : syncTables s c ts = .done n s1) : tierSync s fn tag o = complete s1 fn tag (stOk0 n) := by
  simp only [tierSync, hctx, hts, hsync]

theorem tierSync_wait (hctx : findCtx s o.sub.session = some c) (hts : coveredTables c (P0 o % 2 ^ 24) = some ts)
    (hsync : syncTables s c ts = .wait) : tierSync s fn tag o = markHeld s fn tag := by
  simp only [tierSync, hctx, hts, hsync]

theorem tierSync_media (hctx : findCtx s o.sub.session = some c) (hts : coveredTables c (P0 o % 2 ^ 24) = some ts)
    (hsync : syncTables s c ts = .media) : tierSync s fn tag o = complete s fn tag stMedia := by
  simp only [tierSync, hctx, hts, hsync]

theorem tierSync_badParam (hctx : findCtx s o.sub.session = some c) (hnone : coveredTables c (P0 o % 2 ^ 24) = none) :
    tierSync s fn tag o = complete s fn tag (stBadParam 0x10) := by
  simp only [tierSync, hctx, hnone]

/-- TIER_SYNC of a session's context runs as the context stands. -/
theorem execTierSync_for {t : State} (hfor : ActsFor s fn tag 0x40 o c)
    (hruns : findCtx s o.sub.session = some c → tierSync s fn tag o = t) : execTierSync fn tag s = .next t := by
  have hcommand := withCommand_for (fun s o => tierSync s fn tag o) hfor
  obtain ⟨-, -, hctx⟩ := hfor
  exact congrArg _ (hcommand.trans (hruns hctx))

end

/-! ### Moving a unit changes where it lies only -/

/-- What a flash unit is besides its number and where it lies (10 R527). -/
def FlashUnit.content (x : FlashUnit) : List Byte × Bool × Option (List Byte) × Nat × Bool :=
  (x.data, x.poison, x.synced, x.channel, x.written)

/-- What the unit u of a table holds, if it was ever programmed. -/
def Table.contentAt (t : Table) (u : Nat) : Option (List Byte × Bool × Option (List Byte) × Nat × Bool) :=
  (findUnit t u).map FlashUnit.content

/-- What the unit u of a session's table holds, if the session has the table. -/
def contentAt (s : State) (sess : U32) (h u : Nat) : Option (Option (List Byte × Bool × Option (List Byte) × Nat × Bool)) :=
  ((findCtx s sess).bind fun c => findTable c h).map fun t => t.contentAt u

/-- What is found by a test that the change keeps is the changed element. -/
theorem find?_mapIf {α : Type} {q : α → Bool} {f : α → α} (p : α → Bool) (keeps : ∀ x, q (f x) = q x) (l : List α) :
    (mapIf p f l).find? q = (l.find? q).map fun x => if p x then f x else x := by
  have hq : (q ∘ fun x => if p x then f x else x) = q := by
    funext x
    dsimp only [Function.comp]
    split
    · exact keeps x
    · rfl
  rw [mapIf, List.find?_map, hq]

section
variable {s : State} {sess : U32} {h u : Nat}

theorem contentAt_setCtx (k : U32) {f : Context → Context} (hsess : ∀ c, (f c).sess = c.sess)
    (htables : ∀ c, (findTable (f c) h).map (·.contentAt u) = (findTable c h).map (·.contentAt u)) :
    contentAt (setCtx s k f) sess h u = contentAt s sess h u := by
  have hfind : findCtx (setCtx s k f) sess = (findCtx s sess).map fun c => if c.sess == k then f c else c :=
    find?_mapIf _ (fun c => by rw [hsess]) s.contexts
  rw [contentAt, contentAt, hfind]
  cases findCtx s sess with
  | none => rfl
  | some c =>
    dsimp only [Option.map_some, Option.bind_some]
    split
    · exact htables c
    · rfl

theorem contentAt_setTable (k : U32) (g : Nat) {f : Table → Table} (hhandle : ∀ t, (f t).handle = t.handle)
    (hunits : ∀ t, (f t).contentAt u = t.contentAt u) : contentAt (setTable s k g f) sess h u = contentAt s sess h u := by
  refine contentAt_setCtx k (fun _ => rfl) fun c => ?_
  have hfind : findTable { c with tables := mapIf (fun t => t.handle == g) f c.tables } h =
      (findTable c h).map fun t => if t.handle == g then f t else t :=
    find?_mapIf _ (fun t => by rw [hhandle]) c.tables
  rw [hfind, Option.map_map]
  congr 1
  funext t
  dsimp only [Function.comp]
  split
  · exact hunits t
  · rfl

/-- Units are found again with what they hold when each keeps its number and its content. -/
theorem Table.contentAt_mapIf_units (p : FlashUnit → Bool) {f : FlashUnit → FlashUnit} (hunit : ∀ x, (f x).unit = x.unit)
    (hcontent : ∀ x, (f x).content = x.content) (t : Table) :
    Table.contentAt { t with tier := t.tier.map fun y => { y with units := mapIf p f y.units } } u = t.contentAt u := by
  unfold Table.contentAt findUnit tierOf
  cases t.tier with
  | none => rfl
  | some y =>
    dsimp only [Option.map_some]
    rw [find?_mapIf p (fun x => by rw [hunit]), Option.map_map]
    congr 1
    funext x
    dsimp only [Function.comp]
    split
    · exact hcontent x
    · rfl

@[simp] theorem contentAt_bumpTier (k : U32) (i n : Nat) : contentAt (bumpTier s k i n) sess h u = contentAt s sess h u :=
  contentAt_setCtx k (fun _ => rfl) fun _ => rfl

@[simp] theorem contentAt_countProgram (k : U32) (n : Nat) : contentAt (countProgram s k n) sess h u = contentAt s sess h u :=
  contentAt_bumpTier k 2 _

@[simp] theorem contentAt_setBlock (ch die block : Nat) (f : Block → Block) :
    contentAt (setBlock s ch die block f) sess h u = contentAt s sess h u := rfl

@[simp] theorem contentAt_recountErases (ch : Nat) : contentAt (recountErases s ch) sess h u = contentAt s sess h u := rfl

/-- A unit that moves keeps its number, its content and its channel. -/
@[simp] theorem contentAt_moveUnit (ch : Nat) (x : U32 × Nat × FlashUnit) : contentAt (moveUnit ch s x) sess h u = contentAt s sess h u := by
  rw [moveUnit, contentAt_countProgram]
  exact contentAt_setTable x.1 x.2.1 (fun _ => rfl) (Table.contentAt_mapIf_units _ (fun _ => rfl) fun _ => rfl)

end

theorem contentAt_foldl_moveUnit (ch : Nat) (xs : List (U32 × Nat × FlashUnit)) (s : State) (sess : U32) (h u : Nat) :
    contentAt (xs.foldl (moveUnit ch) s) sess h u = contentAt s sess h u :=
  List.foldlRecOn (motive := fun t => contentAt t sess h u = contentAt s sess h u) xs (moveUnit ch) rfl
    fun _ ht x _ => (contentAt_moveUnit ch x).trans ht

/-- Relocating a block leaves every unit with what it holds (10 R527, R540). -/
theorem contentAt_relocateBlock (s : State) (ch die block : Nat) (sess : U32) (h u : Nat) :
    contentAt (relocateBlock s ch die block) sess h u = contentAt s sess h u := by
  rw [relocateBlock, contentAt_recountErases, contentAt_setBlock, contentAt_foldl_moveUnit, contentAt_setBlock]

/-! ### The care of blocks -/

section
variable {s : State} {ch die block : Nat} {b : Block}

theorem readDisturb_relocates (hb : findBlock s ch die block = some b) (hreads : 50000 ≤ b.reads) (hw : channelWritable s ch = true) :
    readDisturb s ch die block = relocateBlock s ch die block := by
  simp only [readDisturb, hb, if_pos (And.intro hreads hw)]

theorem readDisturb_early (hb : findBlock s ch die block = some b) (hreads : b.reads < 50000) : readDisturb s ch die block = s := by
  simp only [readDisturb, hb, if_neg fun hdue : 50000 ≤ b.reads ∧ _ => Nat.not_le_of_lt hreads hdue.1]

/-- The patrol has read the written pages of the block, four units each (10 R539). -/
def patrolled (s : State) (ch die block : Nat) : State :=
  let pages := ceilDiv (unitsInBlock s ch die block).length 4
  if pages = 0 then s else setBlock s ch die block fun b => { b with reads := b.reads + pages }

theorem flashPatrol_reads : flashPatrol s ch die block false = patrolled s ch die block := rfl

theorem flashPatrol_relocates (hw : channelWritable (patrolled s ch die block) ch = true) :
    flashPatrol s ch die block true = relocateBlock (patrolled s ch die block) ch die block :=
  if_pos hw

theorem reclamation_relocates (hw : channelWritable s ch = true) : ∃ d k, d < diesPerChannel ∧ k < blocksPerDie ∧
    reclamation s ch = relocateBlock (choose s).2 ch d k :=
  ⟨_, _, Nat.mod_lt _ (by decide), Nat.mod_lt _ (by decide), if_pos hw⟩

theorem reclamation_idle (hw : channelWritable s ch = false) : reclamation s ch = s :=
  if_neg (by rw [hw]; exact Bool.false_ne_true)

end

/-! ### The obligation -/

/-- Settles O45: programming, syncs and each care of a block by their own lemmas. -/
theorem rowsAreProgrammedAndBlocksCaredFor : Obligations.RowsAreProgrammedAndBlocksCaredFor := by
  unfold Obligations.RowsAreProgrammedAndBlocksCaredFor
  refine ⟨⟨fun s h x t => ⟨fun hnone => ?_, fun hfind ht => ⟨fun hthrottle hfull => ?_, fun hroom => ⟨?_, ?_, fun y hy => ?_⟩⟩⟩,
      fun s => ⟨fun hlow => ?_, fun hhigh => ?_⟩,
      fun s r c ts hruns hts => ⟨fun n s1 hsync => ?_, fun hsync => ?_, fun u hsync => ?_⟩,
      fun s fn tag o c hfor => ⟨fun ts hts => ⟨fun n s1 hsync => ?_, fun hsync => ?_, fun hsync => ?_⟩, fun hnone => ?_⟩,
      fun s c ts => ⟨fun hcovers => ?_, fun hserves => ⟨fun hwait => ?_, fun hsettled hidle hpower => ?_⟩⟩⟩,
    fun s ch die block b => ⟨fun hb => ⟨fun hreads hw => ?_, fun hreads => ?_⟩, ⟨?_, fun hw => ?_⟩, fun hw => ?_, fun hw => ?_, ?_⟩,
    fun s ch die block sess h u => ?_⟩
  · exact congrArg _ (stagingProgram_idle hnone)
  · exact congrArg _ ((stagingProgram_some hfind ht).trans (if_pos ⟨hthrottle, hfull⟩))
  · refine congrArg _ ((stagingProgram_some hfind ht).trans (if_neg ?_))
    rintro ⟨hthrottle, hfull⟩
    exact hroom.elim (fun hoff => Bool.false_ne_true (hoff.symm.trans hthrottle)) (Nat.not_le_of_lt hfull)
  · exact mem_unitMates_self (List.mem_of_find?_eq_some hfind)
  · exact not_mem_programRows_staging s hy
  · exact congrArg _ (if_pos hlow)
  · exact congrArg _ (if_neg (Nat.not_lt_of_le hhigh))
  · exact congrArg _ (withRunning_ok hruns (trSync_done hts hsync))
  · exact congrArg _ (withRunning_ok hruns (trSync_wait hts hsync))
  · exact congrArg _ (withRunning_error hruns (trSync_hw hts hsync))
  · exact execTierSync_for hfor fun hctx => tierSync_done hctx hts hsync
  · exact execTierSync_for hfor fun hctx => tierSync_wait hctx hts hsync
  · exact execTierSync_for hfor fun hctx => tierSync_media hctx hts hsync
  · exact execTierSync_for hfor fun hctx => tierSync_badParam hctx hnone
  · exact syncTables_media hcovers
  · rw [syncTables_inService hserves, if_pos hwait]
  · have hrun : ¬ (c.settles ≠ [] ∨ (∃ t ∈ ts, (tierOf t).promoting ≠ []) ∨ s.tier.powerLoss = true) := by
      rintro (hopen | ⟨t, ht, hpromoting⟩ | hlost)
      · exact hopen hsettled
      · exact hpromoting (hidle t ht)
      · exact Bool.false_ne_true (hpower.symm.trans hlost)
    exact ⟨_, _, (syncTables_inService hserves).trans (if_neg hrun)⟩
  · exact congrArg _ (readDisturb_relocates hb hreads hw)
  · exact congrArg _ (readDisturb_early hb hreads)
  · exact congrArg Host.Outcome.next flashPatrol_reads
  · exact congrArg _ (flashPatrol_relocates hw)
  · obtain ⟨d, k, hd, hk, hmoves⟩ := reclamation_relocates hw
    exact ⟨d, k, hd, hk, congrArg _ hmoves⟩
  · exact congrArg _ (reclamation_idle hw)
  · rfl
  · exact contentAt_relocateBlock s ch die block sess h u

end Sys2Proof.Machine

/-! SUPPORT. Reading the fields of byte strings back, the bytes of packets and flits (11 R554, R563), and O47. -/

namespace Sys2Proof.Machine

/-! ### Fields of byte strings -/

theorem fieldAt_head {w v : Nat} (hv : v < 256 ^ w) (t : List Byte) : fieldAt (leBytes w v ++ t) 0 w = v := by
  rw [fieldAt, List.drop_zero, List.take_left' (leBytes_size w v), leNat_leBytes hv]

theorem fieldAt_bitVec {k w : Nat} (x : BitVec k) (h : 2 ^ k ≤ 256 ^ w) (t : List Byte) : fieldAt (leBytes w x.toNat ++ t) 0 w = x.toNat :=
  fieldAt_head (Nat.lt_of_lt_of_le x.isLt h) t

theorem fieldAt_append_right {a : List Byte} (b : List Byte) {off : Nat} (w : Nat) (h : a.length ≤ off) :
    fieldAt (a ++ b) off w = fieldAt b (off - a.length) w := by
  rw [fieldAt, List.drop_append, List.drop_eq_nil_of_le h, List.nil_append, fieldAt]

theorem fieldAt_skip {n v off : Nat} (b : List Byte) (w : Nat) (h : n ≤ off) :
    fieldAt (leBytes n v ++ b) off w = fieldAt b (off - n) w := by
  rw [fieldAt_append_right b w (by rwa [leBytes_size]), leBytes_size]

theorem leBytes_add (m n v : Nat) : leBytes (m + n) v = leBytes m v ++ leBytes n (v / 256 ^ m) := by
  induction m generalizing v with
  | zero => rw [Nat.zero_add, Nat.pow_zero, Nat.div_one]; rfl
  | succ m ih => rw [Nat.succ_add, leBytes, ih, Nat.div_div_eq_div_mul, ← Nat.pow_succ']; rfl

/-! ### Packets -/

section
variable (p : Packet)

/-- The word at offset 4 of a header: both modules and the incarnation (11 Table 11.5). -/
def packetRoute : Nat := p.srcMod.toNat + 4096 * p.dstMod.toNat + 2 ^ 24 * p.incarn.toNat

/-- LAST and SIG as their byte of the header (11 Table 11.5). -/
def packetMarks : Nat := (if p.last then 1 else 0) + (if p.sig then 2 else 0)

theorem packetRoute_fields : packetRoute p < 256 ^ 4 ∧ BitVec.ofNat 12 (packetRoute p) = p.srcMod ∧
    BitVec.ofNat 12 (packetRoute p / 4096) = p.dstMod ∧ packetRoute p / 256 ^ 3 = p.incarn.toNat := by
  have hs := p.srcMod.isLt
  have hd := p.dstMod.isLt
  have hi := p.incarn.isLt
  unfold packetRoute
  refine ⟨by omega, BitVec.eq_of_toNat_eq ?_, BitVec.eq_of_toNat_eq ?_, by omega⟩ <;> rw [BitVec.toNat_ofNat] <;> omega

theorem packetMarks_fields : packetMarks p < 256 ^ 1 ∧ (packetMarks p % 2 == 1) = p.last ∧ (packetMarks p / 2 % 2 == 1) = p.sig := by
  unfold packetMarks
  cases p.last <;> cases p.sig <;> decide

theorem packetBytes_eq : packetBytes p =
    leBytes 1 p.type.toNat ++ (leBytes 1 (packetMarks p) ++ (leBytes 2 p.data.length ++ (leBytes 3 (packetRoute p) ++
      (leBytes 1 (packetRoute p / 256 ^ 3) ++ (leBytes 4 p.jobTag.toNat ++ (leBytes 2 p.groupId.toNat ++ (leBytes 2 p.stream.toNat ++
        (leBytes 4 p.msg.toNat ++ (leBytes 4 p.index.toNat ++ (leBytes 4 p.packets.toNat ++ (leBytes 4 p.step.toNat ++
          (leBytes 8 p.a.toNat ++ (leBytes 8 p.b.toNat ++ p.data))))))))))))) := by
  have hroute := leBytes_add 3 1 (packetRoute p)
  have htype : leBytes 1 p.type.toNat = [p.type] := by simp [leBytes]
  rw [htype, ← List.append_assoc (leBytes 3 _), ← hroute]
  simp [packetBytes, packetRoute, packetMarks, leBytes, -List.append_assoc]

/-- Whatever follows a packet's bytes is left out by LENGTH (11 R563). -/
theorem decodePacket_packetBytes (hlen : p.data.length < 256 ^ 2) (t : List Byte) : decodePacket (packetBytes p ++ t) = p := by
  obtain ⟨hroute, hsrc, hdst, hincarn⟩ := packetRoute_fields p
  obtain ⟨hmarks, hlast, hsig⟩ := packetMarks_fields p
  have hchain := congrArg (· ++ t) (packetBytes_eq p)
  simp only [List.append_assoc] at hchain
  have hfieldMarks : fieldAt (packetBytes p ++ t) 1 1 = packetMarks p := by
    rw [hchain, fieldAt_skip _ _ (by decide), fieldAt_head hmarks]
  have hfieldLength : fieldAt (packetBytes p ++ t) 2 2 = p.data.length := by
    simp (disch := decide) only [hchain, fieldAt_skip, Nat.reduceSub, fieldAt_head hlen]
  have hfieldRoute : fieldAt (packetBytes p ++ t) 4 4 = packetRoute p := by
    simp (disch := decide) only [hchain, fieldAt_skip, Nat.reduceSub]
    rw [← List.append_assoc, ← leBytes_add 3 1, fieldAt_head hroute]
  have hfieldIncarn : fieldAt (packetBytes p ++ t) 7 1 = p.incarn.toNat := by
    simp (disch := decide) only [hchain, hincarn, fieldAt_skip, Nat.reduceSub, fieldAt_bitVec]
  have hdata : ((packetBytes p ++ t).drop 48).take p.data.length = p.data := by
    obtain ⟨h, hh, heq⟩ : ∃ h, h.length = 48 ∧ packetBytes p = h ++ p.data := by
      simp only [packetBytes_eq, ← List.append_assoc]
      exact ⟨_, by simp only [List.length_append, leBytes_size], rfl⟩
    rw [heq, List.append_assoc, List.drop_left' hh, List.take_left' rfl]
  simp only [decodePacket, hfieldMarks, hfieldLength, hfieldRoute, hfieldIncarn, hdata, hsrc, hdst, hlast, hsig]
  simp (disch := decide) only [hchain, fieldAt_skip, fieldAt_bitVec, Nat.reduceSub, BitVec.ofNat_toNat, BitVec.setWidth_eq]

theorem packetBytes_length : (packetBytes p).length = 48 + p.data.length := by
  simp only [packetBytes_eq, List.length_append, leBytes_size]
  omega

end
/-! ### The check of a flit -/

theorem crc32Bits_lt : ∀ {n c : Nat}, c < 2 ^ 32 → crc32Bits n c < 2 ^ 32
  | 0, _, h => h
  | n + 1, c, h => by
    have hhalf : c / 2 < 2 ^ 32 := Nat.lt_of_le_of_lt (Nat.div_le_self c 2) h
    rw [crc32Bits]
    refine crc32Bits_lt ?_
    split
    · exact Nat.xor_lt_two_pow hhalf (by decide)
    · exact hhalf

theorem crc32_lt (bs : List Byte) : crc32 bs < 256 ^ 4 := by
  refine Nat.xor_lt_two_pow (n := 32) ?_ (by decide)
  refine List.foldlRecOn (motive := (· < 2 ^ 32)) bs _ (by decide) fun c hc b _ => ?_
  exact crc32Bits_lt (Nat.xor_lt_two_pow hc (Nat.lt_trans b.isLt (by decide)))

/-! ### Flits -/

/-- The 244 B that a flit carries of a body (11 R554). -/
def flitBody (body : List Byte) : List Byte := (body ++ List.replicate (244 - body.length) 0).take 244

theorem flitBody_length (body : List Byte) : (flitBody body).length = 244 := by
  simp only [flitBody, List.length_take, List.length_append, List.length_replicate]
  omega

theorem flitBody_of_length_le {body : List Byte} (h : body.length ≤ 244) :
    flitBody body = body ++ List.replicate (244 - body.length) 0 :=
  List.take_of_length_le (by simp only [List.length_append, List.length_replicate]; omega)

section
variable (seq ack vc kind : Nat) (start fin : Bool) (crVc crCount : Nat) (body : List Byte)

/-- The first eight bytes of a flit as a number (11 Table 11.3). -/
def flitHeader : Nat :=
  seq + 2 ^ 12 * ack + 2 ^ 24 * vc + 2 ^ 27 * kind + (if start then 2 ^ 29 else 0) + (if fin then 2 ^ 30 else 0) + 2 ^ 32 * crVc + 2 ^ 35 * crCount

/-- A flit without its check. -/
def flitFront : List Byte := leBytes 8 (flitHeader seq ack vc kind start fin crVc crCount) ++ flitBody body

theorem flitBytes_eq : flitBytes seq ack vc kind start fin crVc crCount body =
    flitFront seq ack vc kind start fin crVc crCount body ++ leBytes 4 (crc32 (flitFront seq ack vc kind start fin crVc crCount body)) := rfl

theorem flitFront_length : (flitFront seq ack vc kind start fin crVc crCount body).length = 252 := by
  rw [flitFront, List.length_append, leBytes_size, flitBody_length]

theorem flitBytes_length : (flitBytes seq ack vc kind start fin crVc crCount body).length = 256 := by
  rw [flitBytes_eq, List.length_append, flitFront_length, leBytes_size]

/-- A flit passes the check of its CRC (11 R554). -/
theorem flitOk_flitBytes : Machine.flitOk (flitBytes seq ack vc kind start fin crVc crCount body) = true := by
  have hcheck : fieldAt (flitBytes seq ack vc kind start fin crVc crCount body) 0xFC 4 =
      crc32 (flitFront seq ack vc kind start fin crVc crCount body) := by
    rw [flitBytes_eq, fieldAt_append_right _ _ (Nat.le_of_eq (flitFront_length ..)), flitFront_length, ← List.append_nil (leBytes 4 _),
      fieldAt_head (crc32_lt _)]
  rw [Machine.flitOk, hcheck, flitBytes_length, flitBytes_eq, List.take_left' (flitFront_length ..), beq_self_eq_true, beq_self_eq_true,
    Bool.and_self]

theorem flitBytes_body : ((flitBytes seq ack vc kind start fin crVc crCount body).drop 8).take 244 = flitBody body := by
  rw [flitBytes_eq, flitFront, List.append_assoc, List.drop_left' (leBytes_size ..), List.take_left' (flitBody_length body)]

end

section
variable {seq ack vc kind : Nat} (start fin : Bool) {crVc crCount : Nat} (body : List Byte)

/-- The numbers fit the fields of a flit's header (11 Table 11.3). -/
structure FlitFits (seq ack vc kind crVc crCount : Nat) : Prop where
  seq : seq < 2 ^ 12
  ack : ack < 2 ^ 12
  vc : vc < 2 ^ 3
  kind : kind < 2 ^ 2
  crVc : crVc < 2 ^ 3
  crCount : crCount < 2 ^ 8

/-- Each field of a header is at the bits of 11 Table 11.3. -/
theorem flitHeader_fields (hf : FlitFits seq ack vc kind crVc crCount) :
    let h := flitHeader seq ack vc kind start fin crVc crCount
    h < 256 ^ 8 ∧ BitVec.ofNat 12 h = BitVec.ofNat 12 seq ∧ bits h 23 12 = ack ∧ bits h 26 24 = vc ∧ bits h 28 27 = kind ∧
      (bits h 29 29 == 1) = start ∧ (bits h 30 30 == 1) = fin ∧ bits h 34 32 = crVc ∧ bits h 42 35 = crCount := by
  obtain ⟨hseq, hack, hvc, hkind, hcrVc, hcrCount⟩ := hf
  have hmark : ∀ (b : Bool) (k : Nat), (if b then k else 0) = k * b.toNat := by
    intro b k
    cases b <;> simp
  have hbit : ∀ (b : Bool) {n : Nat}, n = b.toNat → (n == 1) = b := by
    rintro b _ rfl
    cases b <;> rfl
  have hstart := Bool.toNat_lt start
  have hfin := Bool.toNat_lt fin
  simp only [flitHeader, hmark, bits, Nat.shiftRight_eq_div_pow]
  refine ⟨by omega, BitVec.eq_of_toNat_eq ?_, by omega, by omega, by omega, hbit start (by omega), hbit fin (by omega), by omega, by omega⟩
  rw [BitVec.toNat_ofNat, BitVec.toNat_ofNat]
  omega

theorem fieldAt_flitBytes (h : flitHeader seq ack vc kind start fin crVc crCount < 256 ^ 8) :
    fieldAt (flitBytes seq ack vc kind start fin crVc crCount body) 0 8 = flitHeader seq ack vc kind start fin crVc crCount := by
  rw [flitBytes_eq, flitFront, List.append_assoc, fieldAt_head h]

end

/-! ### Cutting a packet -/

theorem map_nthD_range {α : Type} (d : α) (l : List α) : (List.range l.length).map (nthD d l) = l :=
  List.ext_getElem (by simp) fun i _ hi => by simp [nthD_eq_getElem d hi]

theorem nthD_map_range {α : Type} (d : α) (f : Nat → α) {n i : Nat} (h : i < n) : nthD d ((List.range n).map f) i = f i := by
  rw [nthD_eq_getElem d (by simpa using h), List.getElem_map, List.getElem_range]

section
variable {n : Nat} {start : Bool} {bs : List Byte}

theorem bodiesFrom_last (h : bs.length ≤ 244) : bodiesFrom (n + 1) start bs = [(bs, start, true)] := if_pos h

theorem bodiesFrom_more (h : 244 < bs.length) :
    bodiesFrom (n + 1) start bs = (bs.take 244, start, false) :: bodiesFrom n false (bs.drop 244) := if_neg (Nat.not_le_of_lt h)

theorem bodiesFrom_length_pos : 0 < (bodiesFrom (n + 1) start bs).length := by
  by_cases h : bs.length ≤ 244
  · rw [bodiesFrom_last h]
    exact Nat.one_pos
  · rw [bodiesFrom_more (Nat.lt_of_not_le h)]
    exact Nat.succ_pos _

theorem bodiesFrom_length_le : ∀ (n : Nat) (start : Bool) (bs : List Byte), (bodiesFrom n start bs).length ≤ n
  | 0, _, _ => Nat.le_refl 0
  | n + 1, start, bs => by
    by_cases h : bs.length ≤ 244
    · rw [bodiesFrom_last h]
      exact Nat.succ_le_succ (Nat.zero_le n)
    · rw [bodiesFrom_more (Nat.lt_of_not_le h)]
      exact Nat.succ_le_succ (bodiesFrom_length_le n false _)

/-- The bodies of the flits hold the packet, and zeros after it. -/
theorem flatMap_flitBody_bodiesFrom : ∀ (n : Nat) (start : Bool) (bs : List Byte), bs.length ≤ 244 * n →
    ∃ k, (bodiesFrom n start bs).flatMap (fun b => flitBody b.1) = bs ++ List.replicate k 0
  | 0, _, bs, h => ⟨0, by rw [List.eq_nil_of_length_eq_zero (Nat.le_zero.mp h)]; rfl⟩
  | n + 1, start, bs, h => by
    by_cases hlast : bs.length ≤ 244
    · exact ⟨_, by rw [bodiesFrom_last hlast, List.flatMap_singleton, flitBody_of_length_le hlast]⟩
    · have hfull : (bs.take 244).length = 244 := by rw [List.length_take]; omega
      obtain ⟨k, hk⟩ := flatMap_flitBody_bodiesFrom n false (bs.drop 244) (by rw [List.length_drop]; omega)
      refine ⟨k, ?_⟩
      rw [bodiesFrom_more (Nat.lt_of_not_le hlast), List.flatMap_cons, hk, flitBody_of_length_le (Nat.le_of_eq hfull), hfull, Nat.sub_self,
        List.replicate_zero, List.append_nil, ← List.append_assoc, List.take_append_drop]

/-- START is on the first body only and END on the last (11 R563). -/
theorem bodiesFrom_marks (d : List Byte × Bool × Bool) : ∀ (n : Nat) (start : Bool) (bs : List Byte) (i : Nat), bs.length ≤ 244 * n →
    i < (bodiesFrom n start bs).length →
      (nthD d (bodiesFrom n start bs) i).2 = (i == 0 && start, i + 1 == (bodiesFrom n start bs).length)
  | n + 1, start, bs, i, h, hi => by
    by_cases hlast : bs.length ≤ 244
    · rw [bodiesFrom_last hlast] at hi ⊢
      obtain rfl : i = 0 := Nat.lt_one_iff.mp hi
      rfl
    · have hmore : 0 < (bodiesFrom n false (bs.drop 244)).length := by
        obtain ⟨m, rfl⟩ : ∃ m, n = m + 1 := Nat.exists_eq_succ_of_ne_zero (by omega)
        exact bodiesFrom_length_pos
      rw [bodiesFrom_more (Nat.lt_of_not_le hlast)] at hi ⊢
      cases i with
      | zero =>
        have hne : (0 + 1 == (bodiesFrom n false (bs.drop 244)).length + 1) = false := beq_eq_false_iff_ne.mpr (by omega)
        rw [List.length_cons, hne]
        rfl
      | succ i =>
        rw [nthD, bodiesFrom_marks d n false (bs.drop 244) i (by rw [List.length_drop]; omega) (Nat.lt_of_succ_lt_succ hi)]
        simp

end

/-! ### The flits of a packet -/

section
variable (seq : Nat → Nat) (ack vc crVc n : Nat) (bodies : List (List Byte × Bool × Bool))

/-- The flit that carries the body of a number. -/
def flitOf (i : Nat) : List Byte :=
  let b := nthD ([], false, false) bodies i
  flitBytes (seq i) ack vc 1 b.2.1 b.2.2 crVc n b.1

theorem flatMap_flitOf : ((List.range bodies.length).map (flitOf seq ack vc crVc n bodies)).flatMap (fun f => (flitParts f).2.1) =
    bodies.flatMap fun b => flitBody b.1 := by
  have hbody : ∀ i, (flitParts (flitOf seq ack vc crVc n bodies i)).2.1 = flitBody (nthD ([], false, false) bodies i).1 := fun i =>
    flitBytes_body ..
  conv => rhs; rw [← map_nthD_range ([], false, false) bodies]
  simp only [List.flatMap_map, hbody]

end

/-- Settles O47: the bodies hold the packet and zeros after it, and each flit's fields and check read back. -/
theorem packetsSurviveTheirFlits : Obligations.PacketsSurviveTheirFlits := by
  unfold Obligations.PacketsSurviveTheirFlits
  intro p seq ack vc crVc n hdata hseq hack hvc hcrVc hn bodies flits
  have hsize : (packetBytes p).length ≤ 244 * 17 := by rw [packetBytes_length]; omega
  have hcount : flits.length = bodies.length := by rw [List.length_map, List.length_range]
  refine ⟨?_, ?_, ?_, fun i hi => ?_⟩
  · rw [hcount]
    exact bodiesFrom_length_pos
  · rw [hcount]
    exact bodiesFrom_length_le ..
  · obtain ⟨k, hk⟩ := flatMap_flitBody_bodiesFrom 17 true (packetBytes p) hsize
    rw [show flits.flatMap _ = _ from flatMap_flitOf seq ack vc crVc n bodies, hk, decodePacket_packetBytes p (by omega)]
  · have hflit : nthD [] flits i = flitOf seq ack vc crVc n bodies i := nthD_map_range _ _ (hcount ▸ hi)
    have hmarks := bodiesFrom_marks ([], false, false) 17 true (packetBytes p) i hsize (hcount ▸ hi)
    obtain ⟨hfits, hseqAt, hackAt, hvcAt, hkindAt, hstartAt, hfinAt, hcrVcAt, hnAt⟩ := flitHeader_fields (i == 0 && true)
      (i + 1 == bodies.length) (FlitFits.mk (hseq i) hack hvc (kind := 1) (by decide) hcrVc hn)
    intro f
    have hf : f = flitBytes (seq i) ack vc 1 (i == 0 && true) (i + 1 == bodies.length) crVc n (nthD ([], false, false) bodies i).1 := by
      rw [show f = _ from hflit, flitOf, hmarks]
    have hheader := (congrArg (fieldAt · 0 8) hf).trans (fieldAt_flitBytes _ _ _ hfits)
    have hlength : f.length = 256 := by rw [hf, flitBytes_length]
    have hcheck : Machine.flitOk f = true := by rw [hf, flitOk_flitBytes]
    simp only [flitKind, flitParts, hheader, hcount]
    exact ⟨hlength, hcheck, hkindAt, hvcAt, by rw [hstartAt, hfinAt, Bool.and_true], hseqAt, hackAt, hcrVcAt, hnAt⟩

end Sys2Proof.Machine

/-! SUPPORT. The ring of a group in snake order (11 R572, R576), half-pieces and order lists (R587, R590), and O46. -/

namespace Sys2Proof.Machine

/-! ### Moving round a ring -/

section
variable {i x n : Nat}

theorem ring_distance (h : i ≤ n) : ((i + x) % n + n - i) % n = x % n := by
  rw [Nat.add_sub_assoc h, Nat.mod_add_mod, show i + x + (n - i) = x + n by omega, Nat.add_mod_right]

theorem ring_arrive (h : i ≤ n) (hx : x < n) : (i + (x + n - i) % n) % n = x := by
  rw [Nat.add_mod_mod, show i + (x + n - i) = x + n by omega, Nat.add_mod_right, Nat.mod_eq_of_lt hx]

theorem ring_next : (i + (x + 1)) % n = ((i + x) % n + 1) % n := by
  rw [Nat.mod_add_mod, Nat.add_assoc]

theorem ring_back (h : 0 < n) : (i + x) % n = ((i + (x + 1)) % n + n - 1) % n := by
  rw [Nat.add_sub_assoc h, Nat.mod_add_mod, show i + (x + 1) + (n - 1) = i + x + n by omega, Nat.add_mod_right]

end

/-! ### One level of the snake -/

/-- Element o of line k, where every odd line of e elements runs backwards (11 R576). -/
def snake (e k o : Nat) : Nat := k * e + if k % 2 = 0 then o else e - 1 - o

section
variable {e k k' o o' n : Nat}

/-- The place within line k of the element o, and the element of a place. -/
theorem snake_eq (ho : o < e) : ∃ q, q < e ∧ snake e k o = k * e + q ∧ o = if k % 2 = 0 then q else e - 1 - q := by
  unfold snake
  split
  · exact ⟨o, ho, rfl, rfl⟩
  · exact ⟨e - 1 - o, by omega, rfl, by omega⟩

theorem line_unique {q q' : Nat} (hq : q < e) (hq' : q' < e) (h : k' * e + q' = k * e + q) : k' = k ∧ q' = q := by
  have hdiv : ∀ (j : Nat) {r : Nat}, r < e → (j * e + r) / e = j := fun j r hr => by
    rw [Nat.mul_comm, Nat.mul_add_div (Nat.zero_lt_of_lt hr), Nat.div_eq_of_lt hr, Nat.add_zero]
  obtain rfl : k' = k := by rw [← hdiv k' hq', h, hdiv k hq]
  exact ⟨rfl, Nat.add_left_cancel h⟩

theorem snake_inj (ho : o < e) (ho' : o' < e) (h : snake e k' o' = snake e k o) : k' = k ∧ o' = o := by
  obtain ⟨q, hq, hs, hoq⟩ := snake_eq (k := k) ho
  obtain ⟨q', hq', hs', hoq'⟩ := snake_eq (k := k') ho'
  obtain ⟨rfl, rfl⟩ := line_unique hq hq' (by rw [← hs, ← hs', h])
  exact ⟨rfl, hoq'.trans hoq.symm⟩

theorem snake_lt (hk : k < n) (ho : o < e) : snake e k o < n * e := by
  obtain ⟨q, hq, hs, -⟩ := snake_eq (k := k) ho
  calc snake e k o < (k + 1) * e := by rw [hs, Nat.succ_mul]; exact Nat.add_lt_add_left hq _
    _ ≤ n * e := Nat.mul_le_mul_right e hk

theorem snake_surj {p : Nat} (h : p < n * e) : ∃ k o, k < n ∧ o < e ∧ snake e k o = p := by
  have he : 0 < e := Nat.pos_of_ne_zero fun h0 => by simp [h0] at h
  have hq : p % e < e := Nat.mod_lt p he
  refine ⟨p / e, if p / e % 2 = 0 then p % e else e - 1 - p % e, (Nat.div_lt_iff_lt_mul he).mpr h, ?_, ?_⟩
  · split <;> omega
  · have hline := Nat.div_add_mod' p e
    unfold snake
    split <;> omega

/-- The next place is beside it on its line, or at the same end of the next line. -/
theorem snake_succ (ho : o < e) (ho' : o' < e) (h : snake e k' o' = snake e k o + 1) :
    k' = k ∧ (o' = o + 1 ∨ o = o' + 1) ∨ k' = k + 1 ∧ o' = o := by
  obtain ⟨q, hq, hs, hoq⟩ := snake_eq (k := k) ho
  obtain ⟨q', hq', hs', hoq'⟩ := snake_eq (k := k') ho'
  rw [hs, hs'] at h
  by_cases hend : q + 1 < e
  · obtain ⟨rfl, rfl⟩ := line_unique (k := k) hend hq' h
    refine .inl ⟨rfl, ?_⟩
    split at hoq <;> split at hoq' <;> omega
  · obtain ⟨rfl, rfl⟩ := line_unique (k := k + 1) (q := 0) (Nat.zero_lt_of_lt ho) hq' (by rw [h, Nat.succ_mul]; omega)
    refine .inr ⟨rfl, ?_⟩
    split at hoq <;> split at hoq' <;> omega

end

/-! ### Coordinates -/

theorem forall_axis {P : Nat → Prop} (h0 : P 0) (h1 : P 1) (h2 : P 2) : ∀ a, a < 3 → P a
  | 0, _ => h0
  | 1, _ => h1
  | 2, _ => h2

theorem moduleOf_eq {m : Nat} {c : List Nat} (hm : m < 4096) (h : ∀ a, a < 3 → nthD 0 c a = nthD 0 (coordsOf m) a) : moduleOf c = m := by
  rw [moduleOf, h 0 (by decide), h 1 (by decide), h 2 (by decide)]
  simp only [coordsOf, nthD]
  omega

theorem coordsOf_ext {m m' : Nat} (hm : m < 4096) (hm' : m' < 4096) (h : ∀ a, a < 3 → nthD 0 (coordsOf m') a = nthD 0 (coordsOf m) a) :
    m' = m := by
  rw [← moduleOf_eq hm h, moduleOf_eq hm' fun _ _ => rfl]

theorem exists_coordsOf {x : Nat → Nat} (h : ∀ a, a < 3 → x a < 16) : ∃ m, m < 4096 ∧ ∀ a, a < 3 → nthD 0 (coordsOf m) a = x a := by
  have h0 := h 0 (by decide)
  have h1 := h 1 (by decide)
  have h2 := h 2 (by decide)
  refine ⟨x 0 + 16 * x 1 + 256 * x 2, by omega, forall_axis ?_ ?_ ?_⟩ <;>
    simp only [coordsOf, nthD] <;> omega

theorem nthD_modifyAt {α : Type} (d : α) (f : α → α) : ∀ (l : List α) (i j : Nat), i < l.length →
    nthD d (modifyAt f i l) j = if j = i then f (nthD d l i) else nthD d l j
  | _ :: _, 0, 0, _ => rfl
  | _ :: _, 0, _ + 1, _ => rfl
  | _ :: _, _ + 1, 0, _ => rfl
  | _ :: t, i + 1, j + 1, h => by
    simp only [modifyAt, nthD, nthD_modifyAt d f t i j (Nat.lt_of_succ_lt_succ h), Nat.succ.injEq]

/-! ### The members of a group by their offsets (11 R572) -/

section
variable (dims coords : List Nat) (g : Group)

/-- The group lies in the installation: each extent at most its dimension, each dimension at most 16 (11 R551, R572). -/
def GroupFits : Prop := ∀ a, a < 3 → nthD 0 coords a < nthD 1 dims a ∧ nthD 1 dims a ≤ 16 ∧ g.extentOn a ≤ nthD 1 dims a

/-- The coordinate on an axis at an offset from the origin. -/
def coordAt (a o : Nat) : Nat :=
  if g.axes / 2 ^ a % 2 = 1 then (bits g.origin (4 * a + 3) (4 * a) % nthD 1 dims a + o) % nthD 1 dims a else nthD 0 coords a

end

section
variable {dims coords : List Nat} {g : Group} {m m' a o : Nat}

theorem offsetOn_eq (ha : g.axes / 2 ^ a % 2 = 1) (hd : 0 < nthD 1 dims a) : g.offsetOn dims m a =
    (nthD 0 (coordsOf m) a + nthD 1 dims a - bits g.origin (4 * a + 3) (4 * a) % nthD 1 dims a) % nthD 1 dims a := by
  have hmax : Nat.max 1 (nthD 1 dims a) = nthD 1 dims a := Nat.max_eq_right hd
  simp only [Group.offsetOn, ha, hmax, if_true]

/-- A member stands at its offsets, each within the extent. -/
theorem mem_groupMembers (hfit : GroupFits dims coords g) : m ∈ groupMembers dims coords g ↔
    m < 4096 ∧ ∀ a, a < 3 → g.offsetOn dims m a < g.extentOn a ∧ nthD 0 (coordsOf m) a = coordAt dims coords g a (g.offsetOn dims m a) := by
  simp only [groupMembers, List.mem_filter, List.mem_range, List.all_eq_true, Bool.and_eq_true, decide_eq_true_eq]
  refine and_congr_right fun _ => forall_congr' fun a => imp_congr_right fun ha => ?_
  obtain ⟨hc, -, -⟩ := hfit a ha
  have hd : 0 < nthD 1 dims a := Nat.zero_lt_of_lt hc
  by_cases hax : g.axes / 2 ^ a % 2 = 1
  · simp only [hax, if_true, decide_eq_true_eq, coordAt]
    refine ⟨fun ⟨hlt, hoff⟩ => ⟨hoff, ?_⟩, fun ⟨hoff, hcoord⟩ => ⟨hcoord ▸ Nat.mod_lt _ hd, hoff⟩⟩
    rw [offsetOn_eq hax hd, ring_arrive (Nat.le_of_lt (Nat.mod_lt _ hd)) hlt]
  · have hoff : g.offsetOn dims m a = 0 := if_neg hax
    have hext : g.extentOn a = 1 := if_neg hax
    simp only [hax, if_false, coordAt, hoff, hext, beq_iff_eq, Nat.one_pos, true_and]
    exact and_iff_right_of_imp fun hcoord => hcoord ▸ hc

theorem offsetOn_of_coordAt (hfit : GroupFits dims coords g) (ha : a < 3) (ho : o < g.extentOn a)
    (hm : nthD 0 (coordsOf m) a = coordAt dims coords g a o) : g.offsetOn dims m a = o := by
  obtain ⟨hc, -, hext⟩ := hfit a ha
  have hd : 0 < nthD 1 dims a := Nat.zero_lt_of_lt hc
  by_cases hax : g.axes / 2 ^ a % 2 = 1
  · rw [offsetOn_eq hax hd, hm, coordAt, if_pos hax, ring_distance (Nat.le_of_lt (Nat.mod_lt _ hd)), Nat.mod_eq_of_lt (Nat.lt_of_lt_of_le ho hext)]
  · rw [show g.extentOn a = 1 from if_neg hax] at ho
    rw [show g.offsetOn dims m a = 0 from if_neg hax, Nat.lt_one_iff.mp ho]

theorem coordAt_lt (hfit : GroupFits dims coords g) (ha : a < 3) : coordAt dims coords g a o < nthD 1 dims a := by
  obtain ⟨hc, -, -⟩ := hfit a ha
  unfold coordAt
  split
  · exact Nat.mod_lt _ (Nat.zero_lt_of_lt hc)
  · exact hc

/-- Every choice of offsets within the extents is a member's. -/
theorem exists_member (hfit : GroupFits dims coords g) {x : Nat → Nat} (hx : ∀ a, a < 3 → x a < g.extentOn a) :
    ∃ m ∈ groupMembers dims coords g, ∀ a, a < 3 → g.offsetOn dims m a = x a := by
  obtain ⟨m, hm, hcoord⟩ := exists_coordsOf (x := fun a => coordAt dims coords g a (x a)) fun a ha =>
    Nat.lt_of_lt_of_le (coordAt_lt hfit ha) (hfit a ha).2.1
  have hoff : ∀ a, a < 3 → g.offsetOn dims m a = x a := fun a ha => offsetOn_of_coordAt hfit ha (hx a ha) (hcoord a ha)
  refine ⟨m, (mem_groupMembers hfit).mpr ⟨hm, fun a ha => ?_⟩, hoff⟩
  rw [hoff a ha]
  exact ⟨hx a ha, hcoord a ha⟩

/-- Members with the same offsets are the same. -/
theorem member_ext (hfit : GroupFits dims coords g) (hm : m ∈ groupMembers dims coords g) (hm' : m' ∈ groupMembers dims coords g)
    (h : ∀ a, a < 3 → g.offsetOn dims m' a = g.offsetOn dims m a) : m' = m := by
  obtain ⟨hlt, hat⟩ := (mem_groupMembers hfit).mp hm
  obtain ⟨hlt', hat'⟩ := (mem_groupMembers hfit).mp hm'
  refine coordsOf_ext hlt hlt' fun a ha => ?_
  rw [(hat a ha).2, (hat' a ha).2, h a ha]

/-! ### Neighbours in the torus (11 R576) -/

theorem moveOn_eq {neg : Bool} (hm' : m' < 4096) (ha : a < 3) (hd : 0 < nthD 1 dims a)
    (hat : nthD 0 (coordsOf m') a = if neg then (nthD 0 (coordsOf m) a + nthD 1 dims a - 1) % nthD 1 dims a
      else (nthD 0 (coordsOf m) a + 1) % nthD 1 dims a)
    (helse : ∀ b, b < 3 → b ≠ a → nthD 0 (coordsOf m') b = nthD 0 (coordsOf m) b) : moveOn dims m a neg = m' := by
  have hmax : Nat.max 1 (nthD 1 dims a) = nthD 1 dims a := Nat.max_eq_right hd
  rw [moveOn]
  refine moduleOf_eq hm' fun b hb => ?_
  rw [nthD_modifyAt _ _ _ _ _ ha, hmax]
  split
  next h => rw [h, hat]
  next h => exact (helse b hb h).symm

/-- Members whose offsets differ by 1 on one axis only are neighbours along it. -/
theorem neighbours_of_offsets (hfit : GroupFits dims coords g) (hm : m ∈ groupMembers dims coords g) (hm' : m' ∈ groupMembers dims coords g)
    (ha : a < 3) (hstep : g.offsetOn dims m' a = g.offsetOn dims m a + 1 ∨ g.offsetOn dims m a = g.offsetOn dims m' a + 1)
    (hsame : ∀ b, b < 3 → b ≠ a → g.offsetOn dims m' b = g.offsetOn dims m b) :
    ∃ axis neg, axis < 3 ∧ moveOn dims m axis neg = m' := by
  obtain ⟨-, hat⟩ := (mem_groupMembers hfit).mp hm
  obtain ⟨hlt', hat'⟩ := (mem_groupMembers hfit).mp hm'
  have hd : 0 < nthD 1 dims a := Nat.zero_lt_of_lt (hfit a ha).1
  have hax : g.axes / 2 ^ a % 2 = 1 := by
    refine Decidable.byContradiction fun hax => ?_
    have hzero : ∀ x, g.offsetOn dims x a = 0 := fun x => if_neg hax
    rw [hzero, hzero] at hstep
    omega
  have helse : ∀ b, b < 3 → b ≠ a → nthD 0 (coordsOf m') b = nthD 0 (coordsOf m) b := fun b hb hne => by
    rw [(hat b hb).2, (hat' b hb).2, hsame b hb hne]
  obtain hup | hdown := hstep
  · refine ⟨a, false, ha, moveOn_eq hlt' ha hd ?_ helse⟩
    rw [(hat a ha).2, (hat' a ha).2, hup, coordAt, coordAt, if_pos hax, if_pos hax]
    exact ring_next
  · refine ⟨a, true, ha, moveOn_eq hlt' ha hd ?_ helse⟩
    rw [(hat a ha).2, (hat' a ha).2, hdown, coordAt, coordAt, if_pos hax, if_pos hax]
    exact ring_back hd

/-! ### Positions in the ring (11 R576) -/

theorem position_eq : g.position dims m =
    snake (g.extentOn 0) (snake (g.extentOn 1) (g.offsetOn dims m 2) (g.offsetOn dims m 1)) (g.offsetOn dims m 0) := rfl

theorem size_eq : g.size = g.extentOn 2 * g.extentOn 1 * g.extentOn 0 := by
  rw [Group.size, Nat.mul_comm _ (g.extentOn 2), Nat.mul_comm (g.extentOn 0), ← Nat.mul_assoc]

theorem offsetOn_lt (hfit : GroupFits dims coords g) (hm : m ∈ groupMembers dims coords g) (ha : a < 3) :
    g.offsetOn dims m a < g.extentOn a := (((mem_groupMembers hfit).mp hm).2 a ha).1

theorem position_lt (hfit : GroupFits dims coords g) (hm : m ∈ groupMembers dims coords g) : g.position dims m < g.size := by
  rw [position_eq, size_eq]
  exact snake_lt (snake_lt (offsetOn_lt hfit hm (by decide)) (offsetOn_lt hfit hm (by decide))) (offsetOn_lt hfit hm (by decide))

theorem exists_member_at (hfit : GroupFits dims coords g) {p : Nat} (hp : p < g.size) :
    ∃ m ∈ groupMembers dims coords g, g.position dims m = p := by
  rw [size_eq] at hp
  obtain ⟨line, o0, hline, ho0, rfl⟩ := snake_surj hp
  obtain ⟨o2, o1, ho2, ho1, rfl⟩ := snake_surj hline
  obtain ⟨m, hm, hoff⟩ := exists_member hfit (x := nthD 0 [o0, o1, o2]) (forall_axis ho0 ho1 ho2)
  refine ⟨m, hm, ?_⟩
  rw [position_eq, hoff 0 (by decide), hoff 1 (by decide), hoff 2 (by decide)]
  rfl

theorem member_of_position_eq (hfit : GroupFits dims coords g) (hm : m ∈ groupMembers dims coords g) (hm' : m' ∈ groupMembers dims coords g)
    (h : g.position dims m' = g.position dims m) : m' = m := by
  have hlt := fun a ha => offsetOn_lt (a := a) hfit hm ha
  have hlt' := fun a ha => offsetOn_lt (a := a) hfit hm' ha
  obtain ⟨hline, h0⟩ := snake_inj (hlt 0 (by decide)) (hlt' 0 (by decide)) h
  obtain ⟨h2, h1⟩ := snake_inj (hlt 1 (by decide)) (hlt' 1 (by decide)) hline
  exact member_ext hfit hm hm' (forall_axis h0 h1 h2)

/-- Along the snake one offset changes by 1, and the others stay. -/
theorem neighbours_of_position_succ (hfit : GroupFits dims coords g) (hm : m ∈ groupMembers dims coords g)
    (hm' : m' ∈ groupMembers dims coords g) (h : g.position dims m' = g.position dims m + 1) :
    ∃ axis neg, axis < 3 ∧ moveOn dims m axis neg = m' := by
  have hlt := fun a ha => offsetOn_lt (a := a) hfit hm ha
  have hlt' := fun a ha => offsetOn_lt (a := a) hfit hm' ha
  obtain ⟨hline, hstep⟩ | ⟨hline, h0⟩ := snake_succ (hlt 0 (by decide)) (hlt' 0 (by decide)) h
  · obtain ⟨h2, h1⟩ := snake_inj (hlt 1 (by decide)) (hlt' 1 (by decide)) hline
    exact neighbours_of_offsets hfit hm hm' (a := 0) (by decide) hstep (forall_axis (fun hne => absurd rfl hne) (fun _ => h1) fun _ => h2)
  · obtain ⟨h2, hstep⟩ | ⟨h2, h1⟩ := snake_succ (hlt 1 (by decide)) (hlt' 1 (by decide)) hline
    · exact neighbours_of_offsets hfit hm hm' (a := 1) (by decide) hstep (forall_axis (fun _ => h0) (fun hne => absurd rfl hne) fun _ => h2)
    · exact neighbours_of_offsets hfit hm hm' (a := 2) (by decide) (.inl h2) (forall_axis (fun _ => h0) (fun _ => h1) fun hne => absurd rfl hne)

end

/-! ### Half-pieces (11 R587) -/

section
variable {n c e q : Nat}

/-- The half-piece of an element. -/
def halfPieceOf (n c e : Nat) : Nat := ((e + 1) * (2 * n) - 1) / c

theorem halfPiece_start_le_iff (hn : 0 < n) (he : e < c) : q * c / (2 * n) ≤ e ↔ q ≤ halfPieceOf n c e := by
  have hpos : 0 < (e + 1) * (2 * n) := Nat.mul_pos (Nat.succ_pos e) (by omega)
  rw [halfPieceOf, Nat.le_div_iff_mul_le (Nat.zero_lt_of_lt he), ← Nat.lt_succ_iff, Nat.div_lt_iff_lt_mul (by omega), Nat.succ_eq_add_one]
  omega

/-- An element lies in exactly one half-piece. -/
theorem mem_halfPiece_iff (hn : 0 < n) (he : e < c) :
    ((halfPiece n c q).1 ≤ e ∧ e < (halfPiece n c q).1 + (halfPiece n c q).2) ↔ q = halfPieceOf n c e := by
  have hmono : q * c / (2 * n) ≤ (q + 1) * c / (2 * n) := Nat.div_le_div_right (Nat.mul_le_mul_right c (Nat.le_succ q))
  have hstart := halfPiece_start_le_iff (q := q) hn he
  have hend := halfPiece_start_le_iff (q := q + 1) hn he
  dsimp only [halfPiece]
  omega

theorem halfPieceOf_lt (hn : 0 < n) (he : e < c) : halfPieceOf n c e < 2 * n := by
  rw [halfPieceOf, Nat.div_lt_iff_lt_mul (Nat.zero_lt_of_lt he), Nat.mul_comm]
  have hle : 2 * n * (e + 1) ≤ 2 * n * c := Nat.mul_le_mul_left _ he
  have hpos : 0 < 2 * n * (e + 1) := Nat.mul_pos (by omega) (Nat.succ_pos e)
  omega

end

/-! ### Order lists (11 R590) -/

section
variable {n i p s : Nat}

/-- How far along the ring the entry s of an order list is from its member: own piece, then one behind, one ahead, and so on. -/
def orderStep (n s : Nat) : Nat := if s % 2 = 1 then n - (s + 1) / 2 else s / 2

theorem orderStep_entry (hs : s < n) :
    (if s % 2 = 1 then (i + n - (s + 1) / 2) % n else (i + s / 2) % n) = (i + orderStep n s) % n := by
  unfold orderStep
  split
  · rw [Nat.add_sub_assoc (by omega)]
  · rfl

theorem orderPlace_eq_iff (hs : s < n) (hi : i < n) : orderPlace n i p = s ↔ (p + n - i) % n = orderStep n s := by
  have hd : (p + n - i) % n < n := Nat.mod_lt _ (Nat.zero_lt_of_lt hi)
  unfold orderPlace orderStep
  dsimp only
  generalize (p + n - i) % n = d at hd ⊢
  by_cases hown : d = 0
  · rw [if_pos hown]
    split <;> omega
  · rw [if_neg hown]
    by_cases hahead : 2 * d ≤ n - 1
    · rw [if_pos hahead]
      split <;> omega
    · rw [if_neg hahead]
      split <;> omega

end

/-- Settles O46: members, positions and neighbours by the offsets of the snake; pieces and entries by their own lemmas. -/
theorem ringsAndPiecesCoverTheGroup : Obligations.RingsAndPiecesCoverTheGroup := by
  unfold Obligations.RingsAndPiecesCoverTheGroup
  refine ⟨fun dims coords g hfit => ⟨fun p hp => exists_member_at hfit hp, fun m hm => ⟨position_lt hfit hm, fun m' hm' =>
      ⟨member_of_position_eq hfit hm hm', neighbours_of_position_succ hfit hm hm'⟩⟩⟩,
    fun n c hn => ⟨fun e he => ?_, fun i hi s hs => ?_⟩⟩
  · obtain ⟨hle, hlt⟩ := (mem_halfPiece_iff hn he).mpr rfl
    exact ⟨halfPieceOf n c e, halfPieceOf_lt hn he, hle, hlt, fun k _ hle' hlt' => (mem_halfPiece_iff hn he).mp ⟨hle', hlt'⟩⟩
  · have hstep : orderStep n s < n := by unfold orderStep; split <;> omega
    rw [orderStep_entry hs]
    refine ⟨?_, fun p hp hplace => ?_⟩
    · rw [orderPlace_eq_iff hs hi, ring_distance (Nat.le_of_lt hi), Nat.mod_eq_of_lt hstep]
    · rw [← (orderPlace_eq_iff hs hi).mp hplace, ring_arrive (Nat.le_of_lt hi) hp]

end Sys2Proof.Machine

/-! SUPPORT. A handle that is chosen for a context is new and at 0x80_0000 or above (09 R476), but has more than 24 bits once all of
24 bits are held, and O48. -/

namespace Sys2Proof.Machine

/-! ### The choice of a handle -/

/-- Different elements of a list are no more than the elements of the list. -/
theorem length_le_of_nodup_of_subset {α : Type} [BEq α] [LawfulBEq α] : ∀ {l m : List α}, l.Nodup → (∀ x ∈ l, x ∈ m) → l.length ≤ m.length
  | [], _, _, _ => Nat.zero_le _
  | x :: t, m, hnodup, hsub => by
    obtain ⟨hx, ht⟩ := List.nodup_cons.mp hnodup
    have hmem : x ∈ m := hsub x List.mem_cons_self
    have hrest : t.length ≤ (m.erase x).length := length_le_of_nodup_of_subset ht fun y hy =>
      (List.mem_erase_of_ne fun (heq : y = x) => hx (heq ▸ hy)).mpr (hsub y (List.mem_cons_of_mem x hy))
    rw [List.length_erase_of_mem hmem] at hrest
    have hpos := List.length_pos_of_mem hmem
    rw [List.length_cons]
    omega

section
variable (s : State) (c : Context)

theorem chooseHandle_fresh : 0x800000 ≤ (chooseHandle s c).1 ∧ (chooseHandle s c).1 ∉ otherHandles c := by
  have hnew : (((List.range ((otherHandles c).length + 1)).map fun i => 0x800000 + i).find? fun h => !(otherHandles c).contains h).isSome = true := by
    refine Decidable.byContradiction fun hnone => ?_
    have hsub : ∀ h ∈ (List.range ((otherHandles c).length + 1)).map (fun i => 0x800000 + i), h ∈ otherHandles c := fun h hh =>
      Decidable.byContradiction fun hfree => hnone (List.find?_isSome.mpr ⟨h, hh, by simpa using hfree⟩)
    have hnodup : ((List.range ((otherHandles c).length + 1)).map fun i => 0x800000 + i).Nodup :=
      List.Pairwise.map _ (fun i j hij heq => hij (Nat.add_left_cancel heq)) List.nodup_range
    have hle := length_le_of_nodup_of_subset hnodup hsub
    rw [List.length_map, List.length_range] at hle
    exact Nat.lt_irrefl _ hle
  obtain ⟨h, hfind⟩ := Option.isSome_iff_exists.mp hnew
  unfold chooseHandle
  dsimp only
  rw [hfind]
  split
  · obtain ⟨i, -, rfl⟩ := List.mem_map.mp (List.mem_of_find?_eq_some hfind)
    exact ⟨Nat.le_add_right _ i, by simpa using List.find?_some hfind⟩
  next hfree => exact ⟨Nat.le_add_right _ _, by simpa using hfree⟩

theorem chooseHandle_contexts : (chooseHandle s c).2.contexts = s.contexts := by
  unfold chooseHandle
  dsimp only
  split <;> rfl

end

/-! ### Sending leaves the contexts -/

theorem dispatchPacket_contexts (s : State) (h : Half) (p : Packet) : (dispatchPacket s h p).1.contexts = s.contexts := by
  unfold dispatchPacket enqueue
  split
  · rfl
  · split
    · rfl
    · split
      · rfl
      · split <;> rfl

theorem sendFrom_contexts (s : State) (c : Context) (h : Half) (p : Packet) : (sendFrom s c h p).1.contexts = s.contexts := by
  unfold sendFrom sendPacket
  dsimp only
  split
  · exact dispatchPacket_contexts s h p
  · split
    · rw [dispatchPacket_contexts, setTenant_contexts]
    · rfl

/-! ### OPEN_PEER_STREAM -/

/-- The stream that the command opens towards a peer, not yet answered (11 R577). -/
def openedStream (now : Nat) (tag : U16) (g : Group) (peer n h : Nat) : PeerStream :=
  { number := n, handle := h, group := g.handle, peer := peer, rxBytes := none, nextTransfer := 0, openedAt := now, openTag := some tag }

theorem openedStream_handle (now : Nat) (tag : U16) (g : Group) (peer n h : Nat) : (openedStream now tag g peer n h).handle = h := rfl

/-- OPEN_PEER_STREAM adds a stream to its context, under the handle that is chosen (11 R577). -/
theorem openPeerStream_adds {s s1 : State} {fn : Nat} {tag : U16} {o : Outstanding} {c : Context} {g : Group} {n : Nat}
    (hacts : ActsFor s fn tag 0x31 o c) (hgroup : findGroup c (P0 o % 2 ^ 24) = some g) (hcomplete : g.complete = true)
    (hpeer : P1 o % 4096 ∈ g.members) (hquota : quotaBreach s c.tenant [(0x09, quotaUse s c.tenant 0x09 none + 1)] = none)
    (hstream : chooseStream s = (some n, s1)) :
    ∃ t, exec (.openPeerStream fn tag) s = .next t ∧ t.contexts = mapIf (fun d => d.sess == c.sess)
      (fun d => { d with streams := d.streams ++ [openedStream s.now tag g (P1 o % 4096) n (chooseHandle s1 c).1] }) s1.contexts := by
  have hmember : g.members.contains (P1 o % 4096) = true := List.contains_iff_mem.mpr hpeer
  rw [exec_openPeerStream, execOpenPeerStream, withCommand_for _ hacts, openPeerStream, withOwnCtx_acts _ hacts]
  simp only [hgroup, hcomplete, hmember, hquota, hstream, Bool.true_eq_false, if_false]
  refine ⟨_, rfl, ?_⟩
  rw [sendFrom_contexts, markAccepted, setBox_contexts, setCtx, chooseHandle_contexts]
  rfl

/-- The stream that was added to a context can be told from the context. -/
theorem opened_unique {c : Context} {x y : PeerStream}
    (h : mapIf (fun d => d.sess == c.sess) (fun d => { d with streams := d.streams ++ [x] }) [c] =
      mapIf (fun d => d.sess == c.sess) (fun d => { d with streams := d.streams ++ [y] }) [c]) : x = y := by
  simpa [mapIf] using h

/-- With no stream open every choice of a number is free. -/
theorem chooseStream_first {s : State} (h : allStreams s = []) : ∃ n, chooseStream s = (some n, (choose s).2) := by
  refine ⟨(choose s).1 % 8192, ?_⟩
  unfold chooseStream
  simp only [h, List.map_nil, List.length_nil, List.contains_nil]
  rfl

/-! ### A context that holds every handle of 24 bits -/

/-- Coil images under the n handles from lo on. -/
def coilsFrom (lo n : Nat) : List Coil := (List.range n).map fun i => { handle := lo + i, cls := 0, code := [] }

theorem mem_otherHandles_of_coils {c : Context} {lo n h : Nat} (hcoils : c.coils = coilsFrom lo n) (hlow : lo ≤ h) (hhigh : h < lo + n) :
    h ∈ otherHandles c := by
  refine List.mem_append_left _ (List.mem_append_left _ ?_)
  rw [hcoils, coilsFrom, List.map_map]
  exact List.mem_map.mpr ⟨h - lo, List.mem_range.mpr (by omega), Nat.add_sub_cancel' hlow⟩

/-- The handle chosen for a context that holds the first n lies behind them. -/
theorem le_chooseHandle_of_coils (s : State) {c : Context} {n : Nat} (hcoils : c.coils = coilsFrom 0x800000 n) :
    0x800000 + n ≤ (chooseHandle s c).1 := by
  obtain ⟨hlow, hfresh⟩ := chooseHandle_fresh s c
  exact Nat.le_of_not_lt fun hhigh => hfresh (mem_otherHandles_of_coils hcoils hlow hhigh)

/-- A complete group of this module alone. -/
def soleGroup : Group :=
  { handle := 0x800001, gid := 1, axes := 1, origin := 0, extent := 0, jobTag := 1, timeoutMs := 50, rxBase := 0, rxBytes := 0, order := 0,
    joinedAt := 0, members := [0], joined := [0], complete := true, joinTag := none, nextSeq := 1, current := none, early := [], aborts := [],
    votes := [], rx := [] }

/-- A context that holds a coil image under each handle from 0x80_0000 to 0xFF_FFFF. -/
def fullContext : Context :=
  { sess := 0x1000, tenant := 1, fn := 0, slot := some 0, residentAt := 0, activeAt := 0, coils := coilsFrom 0x800000 0x800000, groups := [soleGroup],
    plaitKey := 0, bases := [] }

/-- OPEN_PEER_STREAM of the group towards this module itself. -/
def selfOpening : Outstanding :=
  { sub := { opcode := 0x31, flags := 0, tag := 7, session := 0x1000, epoch := 1, p0 := 0x800001, p1 := 0, p2 := 0, p3 := 0, p4 := 0, p5 := 0 },
    readAt := 0, interim := false, held := false, started := false, order := 0 }

/-- A READY module with the full context, whose session asks for a stream. -/
def fullState : State :=
  { State.reset with mstate := .ready, boxes := [{ Mailbox.fresh 0 with outstanding := [selfOpening] }], contexts := [fullContext] }

theorem fullState_acts : ActsFor fullState 0 7 0x31 selfOpening fullContext :=
  ⟨⟨rfl, rfl, rfl, rfl⟩, rfl, rfl⟩

/-- Refutes O48: nothing bounds the search for a free handle, so that OPEN_PEER_STREAM of a context that holds the handles 0x80_0000 to
0xFF_FFFF takes 0x100_0000, which has more than 24 bits. -/
theorem not_groupsAndStreamsOpen : ¬ Obligations.GroupsAndStreamsOpen := by
  unfold Obligations.GroupsAndStreamsOpen
  intro hall
  obtain ⟨-, -, -, hopens, -, -⟩ := hall fullState 0 7 selfOpening fullContext (newPacket fullState soleGroup 0 0) soleGroup
  obtain ⟨-, -, hnew, -⟩ := hopens fullState_acts
  have hgroup : findGroup fullContext (P0 selfOpening % 2 ^ 24) = some soleGroup := rfl
  have hpeer : P1 selfOpening % 4096 ∈ soleGroup.members := List.mem_singleton.mpr rfl
  have hquota : quotaBreach fullState fullContext.tenant [(0x09, quotaUse fullState fullContext.tenant 0x09 none + 1)] = none := rfl
  have hnone : allStreams fullState = [] := rfl
  obtain ⟨m, h, s1, x, hexec, -, -, hlow, hhigh, hctx, hx⟩ := hnew hgroup rfl hpeer hquota (by rw [hnone]; decide)
  obtain ⟨k, hstream⟩ := chooseStream_first hnone
  obtain ⟨t, hexec', hcontexts⟩ := openPeerStream_adds fullState_acts hgroup rfl hpeer hquota hstream
  have hsame := congrArg State.contexts (Host.Outcome.next.inj (hexec.symm.trans hexec'))
  rw [sendFrom_contexts, markAccepted, setBox_contexts, setCtx, hctx, hcontexts] at hsame
  have hhandle : h = (chooseHandle (choose fullState).2 fullContext).1 := by
    have hctx0 : fullState.contexts = [fullContext] := rfl
    rw [show (choose fullState).2.contexts = _ from hctx0, hctx0] at hsame
    have hadded := congrArg PeerStream.handle (opened_unique hsame)
    rw [openedStream_handle, hx] at hadded
    exact hadded
  have hcoils : fullContext.coils = coilsFrom 0x800000 0x800000 := by rw [fullContext]
  have hpast : 2 ^ 24 ≤ (chooseHandle (choose fullState).2 fullContext).1 := le_chooseHandle_of_coils _ hcoils
  exact Nat.lt_irrefl _ (Nat.lt_of_lt_of_le hhigh (Nat.le_trans hpast (Nat.le_of_eq hhandle.symm)))

end Sys2Proof.Machine

/-! SUPPORT. How FB_COLL starts, how a collective takes up readiness, barriers and data, and how it is aborted (11 R583-R595), and
O50. -/

namespace Sys2Proof.Machine

/-! ### FB_COLL -/

/-- The row of a kind of collective runs it (11 R583). -/
theorem exec_collRow (s : State) {k : Nat × Instr} (hk : k ∈ collRows) : exec k.2 s = .next (runColl k.1 s) := by
  simp only [collRows, List.mem_cons, List.not_mem_nil, or_false] at hk
  obtain rfl | rfl | rfl | rfl | rfl | rfl := hk <;> rfl

section
variable (s : State) (c : Context) (r : Running) (g : Group) (kind : Nat)

/-- The collective that a command starts in its group (11 R583, R585). -/
def newColl : Collective :=
  let sh := collShape kind (r.desc 0x18) (r.desc 0x20)
  { ref := r.ref, seq := g.nextSeq, kind := kind, op := fld r.word 0x28 7 4, wire := sh.1, count := sh.2, step := fld r.word 0x30 31 0,
    startedAt := s.now, readyPos := false, readyNeg := false, phase := 0, heard := [], outbox := [], got := [], abort := none }

/-- The collective has taken the next sequence number of its group (11 R584). -/
def collEntered : State :=
  setGroup s c.sess g.handle fun y => { y with nextSeq := y.nextSeq + 1, current := some (newColl s r g kind) }

end

/-- The member, at the start in state s, tells its readiness from state t: by the flood before an ALL_TO_ALL or a BARRIER, else to its
ring neighbours (11 R586). -/
def tellReady (s t : State) (c : Context) (g : Group) (x : Collective) : State :=
  if x.kind = 3 ∨ x.kind = 5 then floodAxis t c g 0 (phasePacket t g x)
  else if g.size = 1 then t
  else [ringNext s g false, ringNext s g true].eraseDups.foldl (fun st m => (sendFrom st c .west { phasePacket st g x with
    dstMod := BitVec.ofNat 12 m, incarn := incarnOfModule st m }).1) t

/-- What has come early for the collective is taken up, and it goes as far as it can (11 R585). -/
def takeEarly (s : State) (c : Context) (g : Group) (x : Collective) : State :=
  collGo ((g.early.filter fun e => e.seq == x.seq).foldl (fun st e => takeNote st c.sess g.handle e)
    (advancePhase 4 s c.sess g.handle)) c.sess g.handle

section
variable {s s2 : State} {c : Context} {r : Running} {g : Group} {kind : Nat}

theorem startColl_noGroup (hgroup : findGroup c (fld r.word 0x10 23 0) = none) : startColl kind s c r = .error (errBad .fabric) := by
  simp only [startColl, hgroup]

theorem startColl_bad (hgroup : findGroup c (fld r.word 0x10 23 0) = some g)
    (hbad : g.complete = false ∨ collOk kind g.size (r.desc 0x18) (r.desc 0x20) = false) :
    startColl kind s c r = .error (errBad .fabric) := by
  have hcheck : (g.complete && collOk kind g.size (r.desc 0x18) (r.desc 0x20)) = false := Bool.and_eq_false_iff.mpr hbad
  simp only [startColl, hgroup, hcheck]
  rfl

/-- The command names a complete group, and its operands are those of 11 Table 11.8. -/
structure CollGood (c : Context) (r : Running) (g : Group) (kind : Nat) : Prop where
  group : findGroup c (fld r.word 0x10 23 0) = some g
  complete : g.complete = true
  operands : collOk kind g.size (r.desc 0x18) (r.desc 0x20) = true

theorem CollGood.check (h : CollGood c r g kind) : (g.complete && collOk kind g.size (r.desc 0x18) (r.desc 0x20)) = true :=
  Bool.and_eq_true_iff.mpr ⟨h.complete, h.operands⟩

theorem CollGood.startColl_translation {va : Nat} (h : CollGood c r g kind) (hspan : collSpans s c (r.desc 0x18) (r.desc 0x20) = some va) :
    startColl kind s c r = .error (.code faultTranslation 0xFFFF va) := by
  simp only [startColl, h.group, mustBe_of_true h.check, ok_bind, hspan]

theorem CollGood.startColl_waits (h : CollGood c r g kind) (hspan : collSpans s c (r.desc 0x18) (r.desc 0x20) = none)
    (hbusy : g.current ≠ none) : startColl kind s c r = .ok s := by
  have hcurrent : g.current.isSome = true := Option.isSome_iff_ne_none.mpr hbusy
  simp only [startColl, h.group, mustBe_of_true h.check, ok_bind, hspan, hcurrent, if_true]
  rfl

theorem CollGood.startColl_aborted {a : Nat × Nat × Nat × Nat} (h : CollGood c r g kind)
    (hspan : collSpans s c (r.desc 0x18) (r.desc 0x20) = none) (hfree : g.current = none)
    (habort : (g.aborts.find? fun a => a.1 == 0 && a.2.1 == g.nextSeq) = some a) :
    startColl kind s c r = .ok (endColl (collEntered s c r g kind) c.sess g.handle r.ref (.group a.2.2.2 a.2.2.1 0xFFFF)) := by
  simp only [startColl, h.group, mustBe_of_true h.check, ok_bind, hspan, hfree, Option.isSome_none, Bool.false_eq_true, if_false, habort]
  rfl

theorem CollGood.startColl_begins (h : CollGood c r g kind) (hspan : collSpans s c (r.desc 0x18) (r.desc 0x20) = none)
    (hfree : g.current = none) (hnew : (g.aborts.find? fun a => a.1 == 0 && a.2.1 == g.nextSeq) = none)
    (hbegin : collBegin (markStarted (collEntered s c r g kind) .fabric r.ref) c g (newColl s r g kind) (r.desc 0x18) (r.desc 0x20) = .ok s2) :
    startColl kind s c r = .ok (takeEarly (tellReady s s2 c g (newColl s r g kind)) c g (newColl s r g kind)) := by
  rw [collEntered, newColl] at hbegin
  simp only [startColl, h.group, mustBe_of_true h.check, ok_bind, hspan, hfree, Option.isSome_none, Bool.false_eq_true, if_false, hnew, hbegin,
    memTry_ok]
  rfl

end

/-! ### Data -/

section
variable {s : State} {c : Context} {g : Group} {p : Packet} {n : Nat} {x : Collective} {r : Running}

/-- The packet brings data for the collective x of its group, which the command r runs and nothing has aborted (11 R591). -/
structure BringsData (s : State) (p : Packet) (c : Context) (g : Group) (x : Collective) (r : Running) : Prop where
  arrives : Arrives s p 0x02 c g
  running : collOf (takePacket s p) c.sess g.handle = some (c, g, x, r)
  named : x.seq = p.msg.toNat
  whole : x.abort = none

/-- The packet's data reduce: it is of an ALL_REDUCE or a REDUCE_SCATTER (11 R587). -/
def Reduces (p : Packet) : Prop := p.a.toNat % 16 = 0 ∨ p.a.toNat % 16 = 1

theorem BringsData.taken (h : BringsData s p c g x r) : ¬ (x.seq ≠ p.msg.toNat ∨ x.abort.isSome = true) := by
  simp [h.named, h.whole]

theorem reduces_iff (p : Packet) : (p.a.toNat % 16 == 0 || p.a.toNat % 16 == 1) = true ↔ Reduces p := by
  simp only [Bool.or_eq_true, beq_iff_eq, Reduces]

theorem collData_differs (h : BringsData s p c g x r) (hdiffers : dataDiffers x (fld r.word 0x18 47 0 != 0) p.a.toNat = true) :
    collData s p n = originateAbort (takePacket s p) c.sess g.handle 0 x.seq faultBadCommand := by
  rw [collData, withPacket_arrives _ h.arrives]
  simp only [h.running, if_neg h.taken, hdiffers, if_true]

section
variable (h : BringsData s p c g x r) (hagrees : dataDiffers x (fld r.word 0x18 47 0 != 0) p.a.toNat = false)
include h hagrees

/-- A second mismatch of the port's check aborts the collective (11 R591). -/
theorem collData_mismatch (hreduces : Reduces p) (hn : 2 ≤ n) : collData s p n =
    originateAbort (setCtx (countMismatch (takePacket s p) p.srcMod.toNat 2) c.sess fun c => { c with fabricCtr := bump c.fabricCtr 8 1 })
      c.sess g.handle 0 x.seq 0x0006 := by
  have hmin : Nat.min n 2 = 2 := Nat.min_eq_right hn
  have hsome : n ≠ 0 := by omega
  rw [collData, withPacket_arrives _ h.arrives]
  simp only [h.running, if_neg h.taken, hagrees, (reduces_iff p).mpr hreduces, hmin, hn, hsome, Bool.false_eq_true, Bool.true_eq_false,
    or_self, and_self, if_false, if_true]

theorem collData_reduces {a b : Desc} {t : State} (hreduces : Reduces p) (ha : r.desc 0x18 = some a) (hb : r.desc 0x20 = some b)
    (hreduce : collReduce (takePacket s p) c g x a b p = .ok t) : collData s p 0 = armWaits (collGo t c.sess g.handle) := by
  have hnone : ¬ 2 ≤ 0 := by decide
  rw [collData, withPacket_arrives _ h.arrives]
  simp only [h.running, if_neg h.taken, hagrees, (reduces_iff p).mpr hreduces, ha, hb, hreduce, hnone, Bool.false_eq_true, false_and, if_false,
    true_or, if_true]

theorem collData_carries {t : State} (hcarries : ¬ Reduces p) (hcarry : collCarry (takePacket s p) c g x (r.desc 0x20) p = .ok t) :
    collData s p n = armWaits (collGo t c.sess g.handle) := by
  have hfalse : (p.a.toNat % 16 == 0 || p.a.toNat % 16 == 1) = false := eq_false_of_ne_true (mt (reduces_iff p).mp hcarries)
  rw [collData, withPacket_arrives _ h.arrives]
  simp only [h.running, if_neg h.taken, hagrees, hfalse, hcarry, Bool.false_eq_true, if_false, and_false, or_true, if_true]

end

end

/-! ### The timeout and the end of an abort -/

section
variable {s : State} {sess : U32} {h : Nat} {c : Context} {g : Group} {x : Collective} {r : Running}

theorem collectiveTimeout_eq (hrunning : collOf s sess h = some (c, g, x, r)) : collectiveTimeout s sess h =
    if x.startedAt + g.timeoutNs ≤ s.now ∧ x.abort = none then originateAbort s sess h 0 x.seq faultTimeoutColl else s := by
  simp only [collectiveTimeout, hrunning, Option.isNone_iff_eq_none]

theorem abortEndRow_eq {o e since : Nat} (hrunning : collOf s sess h = some (c, g, x, r)) (habort : x.abort = some (o, e, since)) :
    abortEndRow s sess h = if since + 80000 ≤ s.now then endColl s sess h x.ref (.group e o 0xFFFF) else s := by
  simp only [abortEndRow, hrunning, habort]

end

/-- Settles O50: each way to start, each packet and each end of a collective by its own lemma. -/
theorem collectivesRun : Obligations.CollectivesRun := by
  unfold Obligations.CollectivesRun
  intro s r c g p n gr x t axis
  refine ⟨fun k hk hr => ⟨fun hgroup => ?_, fun hgroup => ⟨fun hbad => ?_, fun hcomplete hok => ?_⟩⟩,
    fun harrives hkind => ?_, fun hfloods hkind => ?_, fun hfloods => ?_, fun harrives hrunning hnamed hwhole => ?_, fun sess hrunning => ?_⟩
  · rw [exec_collRow s hk, runColl, withRunning_error hr (startColl_noGroup hgroup)]
  · rw [exec_collRow s hk, runColl, withRunning_error hr (startColl_bad hgroup hbad)]
  · have hgood : CollGood c r g k.1 := ⟨hgroup, hcomplete, hok⟩
    refine ⟨fun va hspan => ?_, fun hspan => ⟨fun hbusy => ?_, fun hfree => ⟨fun a habort => ?_, fun hnew s2 hbegin => ?_⟩⟩⟩
    · rw [exec_collRow s hk, runColl, withRunning_error hr (hgood.startColl_translation hspan)]
    · rw [exec_collRow s hk, runColl, withRunning_ok hr (hgood.startColl_waits hspan hbusy)]
    · rw [exec_collRow s hk, runColl, withRunning_ok hr (hgood.startColl_aborted hspan hfree habort)]
      rfl
    · rw [exec_collRow s hk, runColl, withRunning_ok hr (hgood.startColl_begins hspan hfree hnew hbegin)]
      rfl
  · exact congrArg _ ((if_neg hkind).trans (withPacket_arrives _ harrives))
  · refine congrArg _ ((if_pos hkind).trans ((withFlood_floods _ hfloods).trans ?_))
    rw [hkind]
  · exact congrArg _ (withFlood_floods _ hfloods)
  · have hdata : BringsData s p c g x r := ⟨harrives, hrunning, hnamed, hwhole⟩
    exact ⟨fun hdiffers => congrArg _ (collData_differs hdata hdiffers),
      fun hagrees hreduces hn => congrArg _ (collData_mismatch hdata hagrees hreduces hn),
      fun hagrees hreduces hn a b t ha hb hreduce => congrArg _ (hn ▸ collData_reduces hdata hagrees hreduces ha hb hreduce),
      fun hagrees hcarries t hcarry => congrArg _ (collData_carries hdata hagrees hcarries hcarry)⟩
  · exact ⟨congrArg _ (collectiveTimeout_eq hrunning), fun o e since habort => congrArg _ (abortEndRow_eq hrunning habort)⟩

end Sys2Proof.Machine
